-- ==== Sys2Proof/Word.lean ====
section
/-!
DEFINITION. The word types of the HC1 module and their plainest field access.
The module is little-endian everywhere and numbers a field `[hi:lo]` with bit 0 least significant (R4).
-/
namespace Sys2Proof

/-- One byte of memory. -/
abbrev Byte := BitVec 8

/-- One 64-bit register or address. -/
abbrev Word := BitVec 64

/-- A 16-bit reason code: family in bits [15:8], reason in bits [7:0] (R9). -/
abbrev Reason := Nat

end Sys2Proof
end

