-- ==== Sys2Proof/Syntax.lean ====
section
/-!
DEFINITION. The commands of the module: one constructor for each row of spec/opcode_table.json. The rows give no bits: a
command is named with its operands. An operand `v` is the 64-bit value that a write carries.
-/
namespace Sys2Proof

/-- A cluster, by its index n = 400 d + 20 y + x. -/
abbrev Clu := Fin 1600
/-- A module channel number (R13). -/
abbrev Chan := Fin 128
/-- A Lokel link (R14). -/
abbrev Lnk := Fin 24
/-- An I/O die. -/
abbrev Die := Fin 2
/-- A partition, or a croft. -/
abbrev Part := Fin 16
/-- A matrix station of a cluster. -/
abbrev Mat := Fin 16
/-- An STR unit of a cluster. -/
abbrev StrU := Fin 2
/-- A queue of an STR unit. -/
abbrev StrN := Fin 32
/-- A host command channel. -/
abbrev HCh := Fin 1024
/-- A mailbox in BAR0 order: 0 the manager's, p + 1 that of partition p, 17 the root of trust's. -/
abbrev Mbx := Fin 18

/-- The commands (spec/opcode_table.json). -/
inductive Instr where
  /-- REGISTER_WRITE (R7). Aselo writes `size` bytes (4 or 8) at a module-local register offset; the value stands in the low bytes of `v`. -/
  | registerWrite (off size : Nat) (v : Word)
  /-- CLU_ALIAS_CTL_EN (R44). Writing en = 1 to CLU_ALIAS_CTL runs the alias enable checks, and either enables alias translation and remote access or records the reason. -/
  | cluAliasCtlEn (c : Clu) (v : Word)
  /-- CTL_SKQ_PUSH (R65). A write to CTL_SKQ_PUSH copies a 64 B descriptor into the launch queue and checks it, or stops the engine and faults the context. -/
  | ctlSkqPush (c : Clu) (v : Word)
  /-- SKEIN_START (R71). The skein engine starts the head skein once a running slot, its stations, its queues, its wait semaphore and its order condition allow. -/
  | skeinStart (c : Clu)
  /-- CREDIT_RETURN (R66). The consumer of a port of a stage of the skein with push number `no` has read the last byte of a consumed tile. -/
  | creditReturn (c : Clu) (no : Nat) (stage : Fin 4) (port : Fin 2)
  /-- SKEIN_STARVED (R68). A stage ready to consume finds its source-fed port empty, which sets the late flag and records one event on the first such cycle. -/
  | skeinStarved (c : Clu) (no : Nat) (stage : Fin 4) (port : Fin 2)
  /-- STALL_LIMIT_EXPIRY (R69). A port stays starved longer than stall_us, so the skein fails with 0x023C and the context faults. -/
  | stallLimitExpiry (c : Clu) (no : Nat)
  /-- SKEIN_COMPLETE (R74). The last stage has emitted its final tile and every sink write is acknowledged, so the engine frees the slot and stations, posts, and queues the completion entry. -/
  | skeinComplete (c : Clu) (no : Nat)
  /-- CTL_SK_CANCEL (R76). Writing cancel = 1 discards queued descriptors and ends every running skein with the cancelled flag and without a post. -/
  | ctlSkCancel (c : Clu) (v : Word)
  /-- CTL_SK_EN (R80). Writing en = 1 to CTL_SK_CTL runs the skein engine enable checks. -/
  | ctlSkEn (c : Clu) (v : Word)
  /-- CTL_SK_DISABLE (R80). Writing en = 0 to CTL_SK_CTL discards the launch queue, cancels running skeins and clears the stop. -/
  | ctlSkDisable (c : Clu) (v : Word)
  /-- SKEIN_ENGINE_DISABLE_DONE (R80). The last cancelled skein ends, so the disable takes effect and en reads 0. -/
  | skeinEngineDisableDone (c : Clu)
  /-- CTL_SEM_ADD (R73). A write to CTL_SEM_ADD increments a semaphore by the amount, in the order of R73. -/
  | ctlSemAdd (c : Clu) (v : Word)
  /-- CTL_SEM_WRITE (R73). A write to CTL_SEMs sets the semaphore value before the increments and decrement of the same control cycle. -/
  | ctlSemWrite (c : Clu) (sem : Fin 16) (v : Word)
  /-- CTL_CQ_POP (R75). It answers the core's oldest outstanding 8-byte load of that register. -/
  | ctlCqPop (c : Clu)
  /-- MAT_CTL_EN (R121). Writing en = 1 to MAT_CTL checks every valid op against Table 4.18. -/
  | matCtlEn (c : Clu) (m : Mat) (v : Word)
  /-- MAT_CTL_DISABLE (R118). Writing en = 0 to MAT_CTL while no skein holds the station clears the buffers, register sets and queues and turns the station off. -/
  | matCtlDisable (c : Clu) (m : Mat) (v : Word)
  /-- MAT_WARM_EXPIRY (R113). The warm time after a completion expires, and the station disables its rows from row 7 downward. -/
  | matWarmExpiry (c : Clu) (m : Mat)
  /-- MAT_STATIONARY_LOADED (R91). A register set finishes loading a stationary tile and returns the port slot's credit. -/
  | matStationaryLoaded (c : Clu) (m : Mat)
  /-- MAT_ACCUMULATION_DRAINED (R95). A buffer finishes draining into the output stage and becomes free. -/
  | matAccumulationDrained (c : Clu) (m : Mat)
  /-- MAT_CTX_SAVE (R117). Writing cmd = 0b01 to MAT_CTX_CTL saves the accumulator bank as an 8,256 B image in Common, or refuses it. -/
  | matCtxSave (c : Clu) (m : Mat) (v : Word)
  /-- MAT_CTX_RESTORE (R117). Writing cmd = 0b10 to MAT_CTX_CTL restores the accumulator bank from an image in Common, or refuses it. -/
  | matCtxRestore (c : Clu) (m : Mat) (v : Word)
  /-- MAT_CTX_DONE (R117). A save's last write is acknowledged or a restore's last read is taken, so done sets and a waiting skein may proceed. -/
  | matCtxDone (c : Clu) (m : Mat)
  /-- STATION_CTL_EN (R165). Station 0 VEC, 1 SUM, 2 CNV, 3 GTH. -/
  | stationCtlEn (c : Clu) (stn : Fin 4) (v : Word)
  /-- CTL_ADD (R166). The core adds two registers. -/
  | ctlAdd (c : Clu)
  /-- CTL_SUB (R166). The core subtracts two registers. -/
  | ctlSub (c : Clu)
  /-- CTL_AND (R166). The core forms the bitwise and of two registers. -/
  | ctlAnd (c : Clu)
  /-- CTL_OR (R166). The core forms the bitwise or of two registers. -/
  | ctlOr (c : Clu)
  /-- CTL_XOR (R166). The core forms the bitwise exclusive-or of two registers. -/
  | ctlXor (c : Clu)
  /-- CTL_SHL (R166). The core shifts a register left by b[5:0]. -/
  | ctlShl (c : Clu)
  /-- CTL_SHR (R166). The core shifts a register logically right by b[5:0]. -/
  | ctlShr (c : Clu)
  /-- CTL_SAR (R166). The core shifts a register arithmetically right by b[5:0]. -/
  | ctlSar (c : Clu)
  /-- CTL_MUL (R166). The core multiplies two registers and keeps the low 64 bits. -/
  | ctlMul (c : Clu)
  /-- CTL_SLT (R166). The core sets a register when one operand is less than the other, signed. -/
  | ctlSlt (c : Clu)
  /-- CTL_SLTU (R166). The core sets a register when one operand is less than the other, unsigned. -/
  | ctlSltu (c : Clu)
  /-- CTL_MIN (R166). The core takes the signed minimum of two registers. -/
  | ctlMin (c : Clu)
  /-- CTL_MAX (R166). The core takes the signed maximum of two registers. -/
  | ctlMax (c : Clu)
  /-- CTL_MINU (R166). The core takes the unsigned minimum of two registers. -/
  | ctlMinu (c : Clu)
  /-- CTL_MAXU (R166). The core takes the unsigned maximum of two registers. -/
  | ctlMaxu (c : Clu)
  /-- CTL_ADDI (R166). The core adds a sign-extended immediate to a register. -/
  | ctlAddi (c : Clu)
  /-- CTL_LUI (R166). The core loads a sign-extended immediate shifted left by 16. -/
  | ctlLui (c : Clu)
  /-- CTL_ORI (R166). The core ors a zero-extended immediate into a register. -/
  | ctlOri (c : Clu)
  /-- CTL_SHLI (R166). The core shifts a register left by an immediate. -/
  | ctlShli (c : Clu)
  /-- CTL_SHRI (R166). The core shifts a register logically right by an immediate. -/
  | ctlShri (c : Clu)
  /-- CTL_LOAD1 (R167). The core issues a 1-byte zero-extended load. -/
  | ctlLoad1 (c : Clu)
  /-- CTL_LOAD2 (R167). The core issues a 2-byte zero-extended load. -/
  | ctlLoad2 (c : Clu)
  /-- CTL_LOAD4 (R167). The core issues a 4-byte zero-extended load. -/
  | ctlLoad4 (c : Clu)
  /-- CTL_LOAD8 (R167). The core issues an 8-byte load. -/
  | ctlLoad8 (c : Clu)
  /-- CTL_STORE1 (R167). The core issues a 1-byte store. -/
  | ctlStore1 (c : Clu)
  /-- CTL_STORE2 (R167). The core issues a 2-byte store. -/
  | ctlStore2 (c : Clu)
  /-- CTL_STORE4 (R167). The core issues a 4-byte store. -/
  | ctlStore4 (c : Clu)
  /-- CTL_STORE8 (R167). The core issues an 8-byte store. -/
  | ctlStore8 (c : Clu)
  /-- CTL_LOAD_RETURN (R167). The answer to the load with number `id` reaches the core. -/
  | ctlLoadReturn (c : Clu) (id : Nat)
  /-- CTL_STORE_ACK (R167). The acknowledgement of the store with number `id` reaches the core. -/
  | ctlStoreAck (c : Clu) (id : Nat)
  /-- CTL_BEQ (R166). The core branches when two registers are equal. -/
  | ctlBeq (c : Clu)
  /-- CTL_BNE (R166). The core branches when two registers differ. -/
  | ctlBne (c : Clu)
  /-- CTL_BLT (R166). The core branches when one register is less than another, signed. -/
  | ctlBlt (c : Clu)
  /-- CTL_BLTU (R166). The core branches when one register is less than another, unsigned. -/
  | ctlBltu (c : Clu)
  /-- CTL_JAL (R166). The core stores the return address and jumps by an immediate. -/
  | ctlJal (c : Clu)
  /-- CTL_JR (R166). The core jumps to the address in a register. -/
  | ctlJr (c : Clu)
  /-- CTL_WSEM (R168). The core begins waiting on a semaphore for a count n. -/
  | ctlWsem (c : Clu)
  /-- CTL_WSEM_RETIRE (R168). The semaphore reaches n, so wsem subtracts n and retires. -/
  | ctlWsemRetire (c : Clu)
  /-- CTL_FENCE (R167). The core begins waiting for every earlier store to be acknowledged. -/
  | ctlFence (c : Clu)
  /-- CTL_FENCE_RETIRE (R167). Every earlier store is acknowledged, so fence retires. -/
  | ctlFenceRetire (c : Clu)
  /-- CTL_KEND (R169). The core reaches a kernel-end point and waits for the engine to go idle. -/
  | ctlKend (c : Clu)
  /-- CTL_KEND_RETIRE (R169). The engine is idle and stores are acknowledged, so kend retires, counts, and yields when yield_req is set. -/
  | ctlKendRetire (c : Clu)
  /-- CTL_YIELD_SAVED (R169). Common acknowledges the last save-area write, so the core enters the yielded state. -/
  | ctlYieldSaved (c : Clu)
  /-- CTL_HALT (R166). The core stops with state halted. -/
  | ctlHalt (c : Clu)
  /-- CTL_ILLEGAL (R166). An illegal opcode, reserved funct, stray field or bad pc ends the context with 0x04E1 or 0x04E2. -/
  | ctlIllegal (c : Clu)
  /-- CLU_CORE_RUN (R170). Writing run = 1 without restore starts the core afresh from CLU_CORE_PC and zeroes CTL_KSTAT. -/
  | cluCoreRun (c : Clu) (v : Word)
  /-- CLU_CORE_RESUME (R169). Writing run = 1 with restore = 1 reads the save area and continues at the saved pc, or refuses with 0x04E4. -/
  | cluCoreResume (c : Clu) (v : Word)
  /-- CLU_CORE_STOP (R170). Writing run = 0 stops the core after its current instruction and drops outstanding loads. -/
  | cluCoreStop (c : Clu) (v : Word)
  /-- CLU_CORE_YIELD_REQ (R169). Writing yield_req = 1 makes the core yield at its next kend. -/
  | cluCoreYieldReq (c : Clu) (v : Word)
  /-- CLU_IMEM_LOAD (R170). Writing go = 1 starts copying an instruction image from Common into the instruction store, or refuses with 0x04E3. -/
  | cluImemLoad (c : Clu) (v : Word)
  /-- IMEM_LOAD_DONE (R170). The instruction copy completes and done sets. -/
  | imemLoadDone (c : Clu)
  /-- CTL_DRAW (R171). It answers the core's oldest outstanding 8-byte load of that register. -/
  | ctlDraw (c : Clu)
  /-- CLU_SCRUB_EN (R199). Writing en = 1 to CLU_SCRUB runs the scrubber enable check. -/
  | cluScrubEn (c : Clu) (v : Word)
  /-- CLU_SCRUB_CLR_CNT (R198). Writing clr_cnt = 1 zeroes MEM_ECC_CNT and MEM_ECC_ADDR. -/
  | cluScrubClrCnt (c : Clu) (v : Word)
  /-- SCRUB_INTERVAL (R184). The scrub interval elapses and the scrubber presents the next mapped block as background work. -/
  | scrubInterval (c : Clu)
  /-- CLU_CLEAR (R185). Writing go = 1 to CLU_CLEAR starts zeroing a granule range as background work, or refuses with 0x0521. -/
  | cluClear (c : Clu) (v : Word)
  /-- CLEAR_DONE (R185). The last word of the clear is written and done sets. -/
  | clearDone (c : Clu)
  /-- CLU_BORROW_EN (R199). Writing en = 1 to CLU_BORROW_CFG runs the borrowing enable checks. -/
  | cluBorrowEn (c : Clu) (v : Word)
  /-- CLU_BSLOT_WRITE (R194). A write to a borrow slot marks or unmarks a line, or is ignored with 0x0515 when it would break the budget. -/
  | cluBslotWrite (c : Clu) (slot : Fin 32) (v : Word)
  /-- CLU_RETURN (R196). Writing cmd = 0b01 returns every valid slot, spilling dirty lines to HBM3. -/
  | cluReturn (c : Clu) (v : Word)
  /-- CLU_REFILL (R196). Writing cmd = 0b10 refills a valid slot's line from its spill area. -/
  | cluRefill (c : Clu) (v : Word)
  /-- RETURN_DONE (R196). The last spill write is acknowledged, no valid slot remains, and done sets. -/
  | returnDone (c : Clu)
  /-- REFILL_DONE (R196). The refill copy completes, the slot's dirty bit clears and done sets. -/
  | refillDone (c : Clu)
  /-- POOL_FILL_DONE (R189). The fill of the copy of the adapter in `slot` ends; `ok`: every write was acknowledged. -/
  | poolFillDone (slot : Nat) (ok : Bool)
  /-- HBM_CTL_EN (R227). Writing en = 1 to HBM_CTL runs the channel enable checks. -/
  | hbmCtlEn (ch : Chan) (v : Word)
  /-- HBM_PAGE_CMD (R210). Writing go = 1 to HBM_PAGE_CMD changes a page's presence state from the next controller cycle and sets done, or refuses with 0x0621. -/
  | hbmPageCmd (ch : Chan) (v : Word)
  /-- HBM_REQUEST_ACCEPT (R208). `cls` names the class queue served: 0 management, 1 latency-critical, 2 reduction, 3 best-effort. -/
  | hbmRequestAccept (ch : Chan) (cls : Fin 4)
  /-- HBM_PATROL (R206). The patrol interval elapses and the controller patrols the next block, writing it back corrected or poisoned. -/
  | hbmPatrol (ch : Chan)
  /-- HBM_PARITY_FAIL (R209). A retried command fails parity again and the channel enters the failed state. -/
  | hbmParityFail (ch : Chan)
  /-- STR_CTL_EN (R227). Writing en = 1 to STR_CTL runs the STR unit enable check. -/
  | strCtlEn (c : Clu) (u : StrU) (v : Word)
  /-- STR_QCFG_EN (R227). Writing en = 1 to STR_QCFG runs the queue enable checks and fills the bucket. -/
  | strQcfgEn (c : Clu) (u : StrU) (q : StrN) (v : Word)
  /-- STR_TRANSFER_START (R213). A queue with tokens and room below its limit is chosen in round-robin order and starts a tile transfer. -/
  | strTransferStart (c : Clu) (u : StrU)
  /-- STR_TRANSFER_DONE (R211). Transfer `id` of the queue ends. -/
  | strTransferDone (c : Clu) (u : StrU) (q : StrN) (id : Nat)
  /-- STR_RETRY_TIMER (R220). The retry interval of a halted queue elapses and it retries the saved block. -/
  | strRetryTimer (c : Clu) (u : StrU) (q : StrN)
  /-- STR_QCMD_RESUME (R220). Writing resume = 1 retries a halted queue at once, or is ignored with 0x025A. -/
  | strQcmdResume (c : Clu) (u : StrU) (q : StrN)
  /-- STR_QCMD_ABANDON (R224). Writing abandon = 1 fails a halted queue's stream with 0x025B, or is ignored with 0x025A. -/
  | strQcmdAbandon (c : Clu) (u : StrU) (q : StrN)
  /-- HALT_LIMIT_EXPIRY (R222). A halt lasts halt_ms and the stream fails with 0x0257. -/
  | haltLimitExpiry (c : Clu) (u : StrU) (q : StrN)
  /-- PAGE_REQUEST_RESPONSE (R221). The Page Request Group Response to the i-th Page Request that awaits one; `code` is its response code: 0 success, 1 invalid request, 15 response failure. -/
  | pageRequestResponse (i code : Nat)
  /-- ATS_TRANSLATION_RESPONSE (R216). The translation of a 4 KiB page in a PASID, with the access it grants. -/
  | atsTranslationResponse (pasid page : Nat) (rd wr : Bool)
  /-- BALE_LOAD (R239). `bale` holds the bytes that the host reads return; `fail` is the reason of a read that failed, zero for none. -/
  | baleLoad (b : Mbx) (bale : List Byte) (fail : Nat)
  /-- BALE_LOAD_PHASE2 (R241). `h` is the instance handle. -/
  | baleLoadPhase2 (h : Nat)
  /-- BALE_LOAD_TIMEOUT (R242). `h` is the instance handle. -/
  | baleLoadTimeout (h : Nat)
  /-- INSTANCE_REPROGRAM (R245). `h` is the instance handle. -/
  | instanceReprogram (h : Nat)
  /-- BALE_UNLOAD (R246). A BALE_UNLOAD request stops, cancels, drains and releases an instance, or refuses with 0x0135. -/
  | baleUnload (b : Mbx)
  /-- KEY_REGISTER (R232). A KEY_REGISTER request registers a bale-signing key for a partition and returns its identifier. -/
  | keyRegister (b : Mbx)
  /-- KEY_REVOKE (R431). A KEY_REVOKE request removes a registered key, or refuses with 0x0943. -/
  | keyRevoke (b : Mbx)
  /-- ADP_CTL_EN (R268). Writing en = 1 to ADP_CTL runs the adapter station enable checks. -/
  | adpCtlEn (c : Clu) (v : Word)
  /-- ADP_TABLE (R259). The skein with push number `no` moves on at its adapter stage. -/
  | adpTable (c : Clu) (no : Nat)
  /-- ADP_DOWN (R261). The skein with push number `no` moves on at its adapter stage. -/
  | adpDown (c : Clu) (no : Nat)
  /-- ADP_UP (R261). The skein with push number `no` moves on at its adapter stage. -/
  | adpUp (c : Clu) (no : Nat)
  /-- ADP_FETCH_ISSUE (R262). ADP issues a run's half-record fetch from copy or home once the weight buffer has room. -/
  | adpFetchIssue (c : Clu) (no : Nat)
  /-- ADAPTER_IMPORT (R501). An ADAPTER_IMPORT command checks a sealed blob, decrypts it into a new home and makes the record ready when the tag verifies. -/
  | adapterImport (ch : HCh) (cseq : Nat)
  /-- ADAPTER_EXPORT (R503). An ADAPTER_EXPORT command seals an adapter's home again and writes the blob. -/
  | adapterExport (ch : HCh) (cseq : Nat)
  /-- ADAPTER_REMOVE (R276). An ADAPTER_REMOVE command starts forced removal of named adapters or of an owner's adapters. -/
  | adapterRemove (ch : HCh) (cseq : Nat)
  /-- CONTRACT_CREATE (R271). A CONTRACT_CREATE request reserves pinned granules in every cluster and references a base version. -/
  | contractCreate (b : Mbx)
  /-- CONTRACT_END (R272). A CONTRACT_END request unpins every adapter of the contract and releases its reservation. -/
  | contractEnd (b : Mbx)
  /-- PIN (R272). A PIN request places an adapter's copy in the contract's granules, or refuses it. -/
  | pin (b : Mbx)
  /-- UNPIN (R272). An UNPIN request releases a pinned copy, or defers it with 0x0534 while leased. -/
  | unpin (b : Mbx)
  /-- DRAIN_DEADLINE_EXPIRY (R279). An older base version's drain deadline passes and it retires. -/
  | drainDeadlineExpiry (p : Part) (tag : Nat)
  /-- UNIT_UPDATE (R291). A home unit's sums are complete and its clip factor is known, so the engine updates it and hands its high halves to the return. -/
  | unitUpdate (ch : Chan) (n : Part)
  /-- UPD_CMD_APPLY (R301). Writing cmd apply to UPD_CMD makes the engine apply custom deltas and return, or refuses with 0x0C47. -/
  | updCmdApply (ch : Chan) (v : Word)
  /-- UPD_CMD_VOID (R371). Writing cmd void to UPD_CMD stops a job entry beginning further units for the attempt. -/
  | updCmdVoid (ch : Chan) (v : Word)
  /-- UPD_CTL_EN (R384). Writing en = 1 to UPD_CTL runs the adder and engine enable checks. -/
  | updCtlEn (ch : Chan) (v : Word)
  /-- UPD_JOB_VALID (R384). Writing valid = 1 to UPD_JOBn_CFG runs the job entry enable checks. -/
  | updJobValid (ch : Chan) (n : Part) (v : Word)
  /-- JOB_CREATE (R445). `tables` holds what the reads of the tables in host memory return; it counts only when the payload sets ext. -/
  | jobCreate (b : Mbx) (tables : List Byte)
  /-- JOB_STOP (R430). A JOB_STOP request ends the job at the next step boundary with 0x0934. -/
  | jobStop (b : Mbx)
  /-- EXAMPLES (R446). An EXAMPLES command ingests example records and packs them into micro-batches. -/
  | examples (ch : HCh) (cseq : Nat)
  /-- TUNING_ATTEMPT_START (R447). `h` is the job handle. -/
  | tuningAttemptStart (h : Nat)
  /-- CHECKPOINT (R448). A CHECKPOINT command names a committed count at which the home writes its sealed units. -/
  | checkpoint (ch : HCh) (cseq : Nat)
  /-- CHECKPOINT_WRITE (R448). `h` is the job handle. -/
  | checkpointWrite (h : Nat)
  /-- LNK_CTL_EN (R355). Writing en = 1 to LNK_CTL runs the link enable checks and starts the first training. -/
  | lnkCtlEn (l : Lnk) (v : Word)
  /-- LNK_CTL_DISABLE (R329). Writing en = 0 to LNK_CTL takes the link down and ends a failed state. -/
  | lnkCtlDisable (l : Lnk) (v : Word)
  /-- LINK_TRAINING_DONE (R328). `digest` is the reservation digest that the peer sent. -/
  | linkTrainingDone (l : Lnk) (digest : List Byte)
  /-- LINK_RETRAIN (R328). A lane loses lock or a flit has been resent 8 times, so the link retrains holding its replay buffers. -/
  | linkRetrain (l : Lnk)
  /-- RETRAIN_TIMEOUT (R328). A retrain passes retrain_us and the link fails, discarding its replay buffers. -/
  | retrainTimeout (l : Lnk)
  /-- LNK_ROUTE_EN (R355). Writing route_en = 1 to LNK_MODULE runs the routing enable checks. -/
  | lnkRouteEn (d : Die) (v : Word)
  /-- ROUTE_WRITE (R334). A write to a route entry while routing is enabled applies to later lookups, or is ignored when it breaks a check. -/
  | routeWrite (d : Die) (w : Fin 1024) (v : Word)
  /-- LNK_MODULE_ID_WRITE (R495). A write to LNK_MODULE.id zeroizes every key slot of both I/O dies. -/
  | lnkModuleIdWrite (d : Die) (v : Word)
  /-- FLIT_RECEIVE (R327). The bytes of a flit that arrives. -/
  | flitReceive (l : Lnk) (bytes : List Byte)
  /-- MESSAGE_FORWARD (R331). The oldest message of reservation `r` in the receive buffer of link `l`. -/
  | messageForward (l : Lnk) (r : Fin 64)
  /-- READ_REQUEST (R340). The oldest message of reservation `r` in the receive buffer of link `l`. -/
  | readRequest (l : Lnk) (r : Fin 64)
  /-- REMOTE_WRITE (R340). The oldest message of reservation `r` in the receive buffer of link `l`. -/
  | remoteWrite (l : Lnk) (r : Fin 64)
  /-- ACCUMULATE (R361). The oldest message of reservation `r` in the receive buffer of link `l`. -/
  | accumulate (l : Lnk) (r : Fin 64)
  /-- MULTICAST_WRITE (R347). The oldest message of reservation `r` in the receive buffer of link `l`. -/
  | multicastWrite (l : Lnk) (r : Fin 64)
  /-- PULL_READ (R349). The oldest message of reservation `r` in the receive buffer of link `l`. -/
  | pullRead (l : Lnk) (r : Fin 64)
  /-- CLOSE (R342). The oldest message of reservation `r` in the receive buffer of link `l`. -/
  | close (l : Lnk) (r : Fin 64)
  /-- READ_RESPONSE (R353). The oldest message of reservation `r` in the receive buffer of link `l`. -/
  | readResponse (l : Lnk) (r : Fin 64)
  /-- ACK (R341). The oldest message of reservation `r` in the receive buffer of link `l`. -/
  | ack (l : Lnk) (r : Fin 64)
  /-- ACK_SEND (R341). The target sends a stream's ack once its writes and accumulates are acknowledged by memory. -/
  | ackSend (d : Die) (src span cls : Nat)
  /-- MULTICAST_ACK (R348). The oldest message of reservation `r` in the receive buffer of link `l`. -/
  | multicastAck (l : Lnk) (r : Fin 64)
  /-- MULTICAST_ACK_SEND (R347). A receiver sends a cumulative multicast ack once its memory has acknowledged the covered blocks. -/
  | multicastAckSend (d : Die) (root id : Nat)
  /-- MULTICAST_BLOCK_SEND (R348). The root sends a multicast block once it lies within the window above the slowest receiver. -/
  | multicastBlockSend (d : Die) (id : Nat)
  /-- FAULT_RESPONSE (R344). The oldest message of reservation `r` in the receive buffer of link `l`. -/
  | faultResponse (l : Lnk) (r : Fin 64)
  /-- PRUNE_TIMEOUT (R348). A hold lasts prune_us without an ack from the slowest receivers, so they are pruned. -/
  | pruneTimeout (d : Die) (id : Nat)
  /-- PRUNE (R349). The oldest message of reservation `r` in the receive buffer of link `l`. -/
  | prune (l : Lnk) (r : Fin 64)
  /-- END_OF_STREAM (R349). The oldest message of reservation `r` in the receive buffer of link `l`. -/
  | endOfStream (l : Lnk) (r : Fin 64)
  /-- PULL_DONE (R350). The oldest message of reservation `r` in the receive buffer of link `l`. -/
  | pullDone (l : Lnk) (r : Fin 64)
  /-- TRANSACTION_TIMEOUT (R351). A request reaches txn_us without a response and fails with 0x0731. -/
  | transactionTimeout (d : Die) (ttag : Nat)
  /-- LEAVE (R352). The oldest message of reservation `r` in the receive buffer of link `l`. -/
  | leave (l : Lnk) (r : Fin 64)
  /-- JOIN (R352). The oldest message of reservation `r` in the receive buffer of link `l`. -/
  | join (l : Lnk) (r : Fin 64)
  /-- ASELO_RELAY (R559). The oldest message of reservation `r` in the receive buffer of link `l`. -/
  | aseloRelay (l : Lnk) (r : Fin 64)
  /-- RANK_WAIT_EXPIRY (R365). A job entry's rank-wait timer reaches wait_ms and the step is void with 0x0C61. -/
  | rankWaitExpiry (ch : Chan) (n : Part)
  /-- SHARD_SEND (R366). Every unit of a channel's run is complete, so it sends its shard value to the norm root. -/
  | shardSend (ch : Chan) (n : Part)
  /-- SHARD_COMPLETE (R367). The message: the oldest of a reservation of a link, or (none) the oldest that the module sent to itself. -/
  | shardComplete (m : Option (Lnk × Fin 64))
  /-- SHARD_WAIT_EXPIRY (R367). The root's shard-wait timer expires and the step is void with 0x0C61. -/
  | shardWaitExpiry (ch : Chan) (n : Part)
  /-- CLIP_FACTOR (R299). The message: the oldest of a reservation of a link, or (none) the oldest that the module sent to itself. -/
  | clipFactor (m : Option (Lnk × Fin 64))
  /-- VOID_REPORT (R370). The message: the oldest of a reservation of a link, or (none) the oldest that the module sent to itself. -/
  | voidReport (m : Option (Lnk × Fin 64))
  /-- STEP_VOID (R371). The message: the oldest of a reservation of a link, or (none) the oldest that the module sent to itself. -/
  | stepVoid (m : Option (Lnk × Fin 64))
  /-- VOID_ACK (R372). The message: the oldest of a reservation of a link, or (none) the oldest that the module sent to itself. -/
  | voidAck (m : Option (Lnk × Fin 64))
  /-- RETURN_STREAM_START (R374). An I/O die starts a channel's return multicast stream as a place frees. -/
  | returnStreamStart (d : Die)
  /-- RETURNED (R376). The message: the oldest of a reservation of a link, or (none) the oldest that the module sent to itself. -/
  | returned (m : Option (Lnk × Fin 64))
  /-- BASE_LOAD (R379). `image` holds the bytes that the host reads return; `fail` says that one of them failed. -/
  | baseLoad (ch : HCh) (cseq : Nat) (image : List Byte) (fail : Bool)
  /-- BASE_FILL_VERIFY (R381). The last block is landed and hashed, and the version becomes resident or the fill ends. -/
  | baseFillVerify (p : Part) (tag : Nat)
  /-- CHN_SQ_DB (R404). A write to the submission doorbell moves tail, is ignored, or halts the channel on overrun. -/
  | chnSqDb (ch : HCh) (v : Word)
  /-- SLOT_SEQ_READ_RETURN (R405). A slot's sequence-word read returns, and the body read issues when cseq matches. -/
  | slotSeqReadReturn (ch : HCh) (cseq word : Nat)
  /-- SLOT_REREAD_TIMER (R406). A re-read interval elapses and the sequence word is read again, the eighth failure tearing the command. -/
  | slotRereadTimer (ch : HCh) (cseq : Nat)
  /-- SLOT_BODY_ACCEPT (R407). `body` holds bytes 0 to 123 of the slot. -/
  | slotBodyAccept (ch : HCh) (cseq : Nat) (body : List Byte)
  /-- CHN_CQ_DB (R413). A write to the completion doorbell raises head, letting waiting completions be written, or is ignored. -/
  | chnCqDb (ch : HCh) (v : Word)
  /-- COMPLETION_WRITE (R412). A completion entry is written when room allows, body first and qseq second. -/
  | completionWrite (ch : HCh)
  /-- COMPLETION_SEQ_ACK (R419). The link partner acknowledges a completion's sequence word, so posted advances and MSI-X may be sent. -/
  | completionSeqAck (ch : HCh)
  /-- ATS_INVALIDATION (R389). An ATS Invalidation Request stops use of its translations and is completed once their accesses finish. -/
  | atsInvalidation (pasid page pages : Nat)
  /-- HOST_READ_COMPLETION (R390). `ep`: the completion carries EP; `fail`: it ends with Unsupported Request or Completer Abort. -/
  | hostReadCompletion (id : Nat) (data : List Byte) (ep fail : Bool)
  /-- HOST_READ_TIMEOUT (R390). A host read's completion times out and the read fails with 0x0831. -/
  | hostReadTimeout (id : Nat)
  /-- REFERENCE_PAGE_TIMEOUT (R403). A reference read's Page Request gets no response within 100 ms and the command fails with 0x0824. -/
  | referencePageTimeout (ch : HCh) (cseq : Nat)
  /-- BAR0_IGNORED_WRITE (R393). A host write to BAR0 that is not permitted is ignored and counted in ign_write. -/
  | bar0IgnoredWrite (off size : Nat)
  /-- BAR2_READ (R395). A host read of BAR2 returns staging data, zeros beyond the area, or EP for poison. -/
  | bar2Read (off len : Nat)
  /-- BAR2_WRITE (R395). A host write of BAR2 lands in the staging area or is dropped and counted. -/
  | bar2Write (off : Nat) (data : List Byte)
  /-- PCIE_LINK_UP (R387). The PCI Express link trains, and a rate or width below full sets degraded and records an event. -/
  | pcieLinkUp (speed width : Nat)
  /-- PCIE_RETRAIN (R417). The PCI Express link retrains, holding TLPs and replaying without loss. -/
  | pcieRetrain
  /-- LINK_LOSS (R418). Loss of the PCI Express link copies the resume record, discards queued TLPs, and sends leave notices. -/
  | linkLoss
  /-- LINK_LOSS_RESET_ENTRY (R418). The leave notices are sent or 1 ms passes, and the module enters the link-loss reset. -/
  | linkLossResetEntry
  /-- CLOSE_ROOM_TIMEOUT (R410). Completions still without room 10 ms after a close's order 2 are discarded and counted. -/
  | closeRoomTimeout (ch : HCh)
  /-- MBX_DB (R426). A write to MBX_DB accepts the next request, reposts the last response, or is ignored. -/
  | mbxDb (b : Mbx) (v : Word)
  /-- MBX_RESPONSE (R427). Aselo finishes a request, writes the response, sets responded and raises the vector. -/
  | mbxResponse (b : Mbx)
  /-- PART_CREATE (R454). A PART_CREATE request checks the payload and creates the partition in the order of Table 16.4. -/
  | partCreate (b : Mbx)
  /-- PART_DESTROY (R461). A PART_DESTROY request removes a partition in the order of Table 16.7. -/
  | partDestroy (b : Mbx)
  /-- PART_RESET (R461). A PART_RESET request returns a partition to its created state in the order of Table 16.7. -/
  | partReset (b : Mbx)
  /-- PART_QUERY (R454). A PART_QUERY request returns a partition's payload, state, generation and reservations. -/
  | partQuery (b : Mbx)
  /-- CHAN_OPEN (R399). A CHAN_OPEN request binds and opens a command channel with zeroed counters. -/
  | chanOpen (b : Mbx)
  /-- CHAN_CLOSE (R410). A CHAN_CLOSE request closes a channel in the order of Table 14.15. -/
  | chanClose (b : Mbx)
  /-- SERVE_START (R434). A SERVE_START request checks and starts the serving loop. -/
  | serveStart (b : Mbx)
  /-- SERVE_STOP (R430). A SERVE_STOP request ends running requests with 0x0924 at the next boundary. -/
  | serveStop (b : Mbx)
  /-- TELEMETRY (R430). A TELEMETRY request returns the counters of the sender's partition or the module. -/
  | telemetry (b : Mbx)
  /-- WARM_RESET (R544). A WARM_RESET request posts its response, sends leave notices and starts a warm module reset. -/
  | warmReset (b : Mbx)
  /-- SUBMIT (R436). A SUBMIT command queues a serving request for joining, or refuses it. -/
  | submit (ch : HCh) (cseq : Nat)
  /-- CANCEL (R444). A CANCEL command makes the named request leave at the next boundary with 0x0921. -/
  | cancel (ch : HCh) (cseq : Nat)
  /-- SERVE_STEP_DONE (R435). Every core of the step halts, and Aselo applies the step boundary of Table 15.9. -/
  | serveStepDone (p : Part)
  /-- STEP_PENDING (R469). A prepared step's gap elapses, so it becomes pending and Aselo requests yields. -/
  | stepPending (p : Part)
  /-- SERVE_STEP_START (R470). The last core yields, and Aselo returns lent lines, writes the seed and starts the step within 20 µs. -/
  | serveStepStart (p : Part)
  /-- BE_QUANTUM_EXPIRY (R468). A best-effort instance passes be_quantum_us and gives way at its next kernel end. -/
  | beQuantumExpiry (p : Part)
  /-- YIELD_LIMIT_EXPIRY (R471). A core has not yielded kernel_limit_ns after its request, so its context fails with 0x0A51. -/
  | yieldLimitExpiry (c : Clu)
  /-- BE_RESUME (R475). With no step pending, Aselo refills lent lines, restores dither values and resumes a best-effort instance. -/
  | beResume (p : Part)
  /-- CONTEXT_TEARDOWN (R477). A faulted context is torn down alone in the order of Table 16.10. -/
  | contextTeardown (c : Clu)
  /-- PRT_DIRTY_EN (R480). Writing en = 1 to PRT_DIRTYp_CTL runs the dirty-log enable checks. -/
  | prtDirtyEn (p : Part) (v : Word)
  /-- DIRTY_SWITCH (R465). Writing switch = 1 flips the active bitmap half, or refuses with 0x0A64. -/
  | dirtySwitch (p : Part) (v : Word)
  /-- DIRTY_SWITCH_DONE (R465). Every write logged to the old half is transmitted and done sets. -/
  | dirtySwitchDone (p : Part)
  /-- ATTEST (R489). An ATTEST request builds and signs an attestation report. -/
  | attest (b : Mbx)
  /-- CERT_READ (R486). A CERT_READ request returns the device certificates. -/
  | certRead (b : Mbx)
  /-- REPORT_READ (R488). A REPORT_READ request returns part of the last report from an offset. -/
  | reportRead (b : Mbx)
  /-- SESSION_OPEN (R498). A SESSION_OPEN request derives a session key and returns a bound report. -/
  | sessionOpen (b : Mbx)
  /-- KEY_DELIVER (R499). A KEY_DELIVER request unwraps an adapter key into the pending table. -/
  | keyDeliver (b : Mbx)
  /-- SESSION_CLOSE (R488). A SESSION_CLOSE request discards a session. -/
  | sessionClose (b : Mbx)
  /-- SESSION_IDLE_TIMEOUT (R498). A session sees no request for 60 s and is discarded. -/
  | sessionIdleTimeout (id : Nat)
  /-- PENDING_KEY_EXPIRY (R499). A pending key not taken within 600 s is zeroized. -/
  | pendingKeyExpiry (p keyId : Nat)
  /-- SPAN_KEY_CREATE (R495). A SPAN_KEY_CREATE request makes a random span key in a slot. -/
  | spanKeyCreate (b : Mbx)
  /-- SPAN_KEY_EXPORT (R495). A SPAN_KEY_EXPORT request wraps a created key for one target module, or refuses. -/
  | spanKeyExport (b : Mbx)
  /-- SPAN_KEY_IMPORT (R495). A SPAN_KEY_IMPORT request checks and unwraps a key packet into a slot. -/
  | spanKeyImport (b : Mbx)
  /-- SPAN_KEY_SEND (R496). A SPAN_KEY_SEND request makes a loaded slot the send slot of its span. -/
  | spanKeySend (b : Mbx)
  /-- SPAN_KEY_DESTROY (R497). A SPAN_KEY_DESTROY request zeroizes a key slot. -/
  | spanKeyDestroy (b : Mbx)
  /-- FW_UPDATE (R488). `image` is the firmware image offered. -/
  | fwUpdate (b : Mbx) (image : List Byte)
  /-- SVN_COMMIT (R488). An SVN_COMMIT request raises a stage's fused minimum svn. -/
  | svnCommit (b : Mbx)
  /-- BOOT_STATUS (R488). A BOOT_STATUS request returns stage digests, copies, boot reason and the boot nonce. -/
  | bootStatus (b : Mbx)
  /-- HBM_KEY_DRAINED (R492). Every request accepted under an old key completes, so the key is zeroized and done sets. -/
  | hbmKeyDrained (k : Part)
  /-- EVENT_INTAKE (R518). The intake takes the i-th event waiting at the synchronisers. -/
  | eventIntake (i : Nat)
  /-- EVENT_WRITE (R522). A queued event receives its sequence number and its entries are written to the ring. -/
  | eventWrite
  /-- EVENT_BUCKET_GAIN (R519). A tick at the bucket's interval adds one token to an event code's bucket. -/
  | eventBucketGain (code : Nat)
  /-- EVENT_SNAPSHOT (R523). The snapshot of the i-th event of the intake queue is read. -/
  | eventSnapshot (i : Nat)
  /-- EVR_READ (R525). An EVR_READ request returns whole visible events from a sequence number. -/
  | evrRead (b : Mbx)
  /-- EVR_CLEAR (R528). An EVR_CLEAR request with a valid clear token zeroes events up to up_to and records 0x0FF0. -/
  | evrClear (b : Mbx)
  /-- EVR_CONFIGURE (R528). An EVR_CLEAR request with a valid configure token writes rate-limit overrides and records 0x0FF1. -/
  | evrConfigure (b : Mbx)
  /-- POWER_ON (R546). The input rises through the lockout and the module starts in the order of Table 19.8. -/
  | powerOn
  /-- UVLO_FALL (R533). The input stays below the falling lockout for 50 µs and every rail turns off. -/
  | uvloFall
  /-- INPUT_DEGRADED (R533). The input enters the degraded range, asserting SMBALERT# and recording 0x0E34. -/
  | inputDegraded (mv : Nat)
  /-- OVERVOLTAGE_TRIP (R538). The input stays above 58 V for 10 µs and the module trips with 0x0E33. -/
  | overvoltageTrip
  /-- OVERPOWER_TRIP (R538). Input power exceeds 5.2 kW over 100 µs and the module trips with 0x0E31. -/
  | overpowerTrip
  /-- THERMAL_TRIP (R538). A die or stack reaches its trip temperature and the module trips with 0x0E32. -/
  | thermalTrip
  /-- POWER_SAMPLE (R535). The sampled input voltage in mV, current in 10 mA, power in W, and temperatures in °C. -/
  | powerSample (mv iin watts die hbm inlet outlet dieId : Nat)
  /-- MRST (R539). MRST# held low for 10 µs starts a warm module reset when temperature and input allow. -/
  | mrst
  /-- PERST (R547). PERST# asserted or deasserted resets or releases the PCI Express endpoint. -/
  | perst (asserted : Bool)
  /-- STANDBY_ENTRY (R543). No partition has existed for 1 s and the module enters standby. -/
  | standbyEntry
  /-- CROFT_IDLE (R543). A croft whose partition runs nothing has its arithmetic and control clocks gated. -/
  | croftIdle (k : Part)
  /-- PWR_CTL_EN (R555). Writing en = 1 to PWR_CTL runs the limiter enable checks. -/
  | pwrCtlEn (v : Word)
  /-- SMB_STATUS (R551). An SMBus STATUS read returns status and releases SMBALERT#. -/
  | smbStatus
  /-- SMB_VIN (R551). An SMBus VIN read returns the input voltage. -/
  | smbVin
  /-- SMB_IIN (R551). An SMBus IIN read returns the input current. -/
  | smbIin
  /-- SMB_PIN (R551). An SMBus PIN read returns P_avg. -/
  | smbPin
  /-- SMB_TDIE (R551). An SMBus TDIE read returns T_die. -/
  | smbTdie
  /-- SMB_THBM (R551). An SMBus THBM read returns T_hbm. -/
  | smbThbm
  /-- SMB_TIN (R551). An SMBus TIN read returns the coolant inlet temperature. -/
  | smbTin
  /-- SMB_TOUT (R551). An SMBus TOUT read returns the coolant outlet temperature. -/
  | smbTout
  /-- SMB_CAUSE (R551). An SMBus CAUSE read returns the last reset cause. -/
  | smbCause
  /-- SMB_CAP_READ (R551). An SMBus CAP read returns the power cap. -/
  | smbCapRead
  /-- SMB_CAP_WRITE (R551). `pec`: the write carries a correct PEC. -/
  | smbCapWrite (watts : Nat) (pec : Bool)
  /-- SMB_ALERT_RESPONSE (R551). A read of the Alert Response Address returns the module's address. -/
  | smbAlertResponse
  /-- TAP_BYPASS (R552). The BYPASS instruction selects the bypass register. -/
  | tapBypass
  /-- TAP_IDCODE (R552). The IDCODE instruction selects the identification register. -/
  | tapIdcode
  /-- TAP_SAMPLE_PRELOAD (R552). `pins` are the sampled boundary signals, `shift` what is shifted in. -/
  | tapSamplePreload (pins shift : Nat)
  /-- TAP_EXTEST (R552). The EXTEST instruction drives the boundary chain when debug-unlocked, otherwise acts as BYPASS. -/
  | tapExtest (shift : Nat)
  /-- TAP_CHALLENGE (R552). The CHALLENGE instruction reads a fresh 64-bit challenge from the root of trust. -/
  | tapChallenge
  /-- TAP_UNLOCK (R553). The UNLOCK instruction checks a signed token, zeroizes keys and warm-resets, or records 0x0E51. -/
  | tapUnlock (token : List Byte)
  /-- LOCAL_OPERAND_READ_DONE (R67). The next tile of the source (or of the side operand) of the skein with push number `no`. -/
  | localOperandReadDone (c : Clu) (no : Nat) (side : Bool)
  /-- CONTROL_FLIT (R322). The transmit frame reaches slot 0 or 64 and the link sends a control flit carrying acknowledgements and the freed-flit counts of every reservation. -/
  | controlFlit (l : Lnk)
  /-- TAP_TEST_RESET (R552). TRST# is asserted, or TMS reaches Test-Logic-Reset, and the test access port resets with IDCODE selected. -/
  | tapTestReset
  deriving DecidableEq, Repr

end Sys2Proof
end

