-- ==== Sys2Proof/Machine/Table.lean ====
section
/-!
DEFINITION. Sparse tables: a list of (key, value) pairs with strictly rising keys, where a key that is not listed reads
as the table's default. One data type serves the memory, the register file and the numbered units of the module.
-/
namespace Sys2Proof.Machine

/-- A sparse table: keys strictly rise, an unlisted key holds the default. -/
abbrev Tab (α : Type) := List (Nat × α)

/-- The value at a key; `d` for a key that is not listed. -/
def tget {α : Type} (d : α) : Tab α → Nat → α
  | [], _ => d
  | p :: t, k => if p.1 = k then p.2 else tget d t k

/-- The listed value at a key, if the key is listed. -/
def tfind {α : Type} : Tab α → Nat → Option α
  | [], _ => none
  | p :: t, k => if p.1 = k then some p.2 else tfind t k

/-- List a key with a value, keeping the keys rising. -/
def tins {α : Type} (k : Nat) (v : α) : Tab α → Tab α
  | [] => [(k, v)]
  | p :: t => if k < p.1 then (k, v) :: p :: t else if k = p.1 then (k, v) :: t else p :: tins k v t

/-- Unlist a key. -/
def tdel {α : Type} (k : Nat) : Tab α → Tab α
  | [] => []
  | p :: t => if p.1 = k then tdel k t else p :: tdel k t

/-- Write a key: writing the default unlists it, so that equal tables are equal lists. -/
def tset {α : Type} [DecidableEq α] (d : α) (t : Tab α) (k : Nat) (v : α) : Tab α :=
  if v = d then tdel k t else tins k v t

/-- Change the value at a key by a function. -/
def tmod {α : Type} [DecidableEq α] (d : α) (t : Tab α) (k : Nat) (f : α → α) : Tab α :=
  tset d t k (f (tget d t k))

/-- Keys strictly rise from above a bound. -/
def tsortedFrom {α : Type} : Nat → Tab α → Bool
  | _, [] => true
  | b, p :: t => decide (b ≤ p.1) && tsortedFrom (p.1 + 1) t

/-- Keys strictly rise. -/
def tsorted {α : Type} (t : Tab α) : Bool := tsortedFrom 0 t

/-- No listed value equals the default. -/
def tnodflt {α : Type} [DecidableEq α] (d : α) (t : Tab α) : Bool := t.all (fun p => p.2 != d)

/-- The canonical form of a table with default `d`. -/
def twf {α : Type} [DecidableEq α] (d : α) (t : Tab α) : Bool := tsorted t && tnodflt d t

/-- The numbers 0 to n - 1 in order (structural, so that the kernel evaluates it). -/
def upto (n : Nat) : List Nat := List.range n

/-- Replace the element at index `i` of a list (no change past its end). -/
def lset {α : Type} : List α → Nat → α → List α
  | [], _, _ => []
  | _ :: t, 0, v => v :: t
  | a :: t, i + 1, v => a :: lset t i v

/-- The element at index `i` of a list, or the given one past its end. -/
def lget {α : Type} (d : α) : List α → Nat → α
  | [], _ => d
  | a :: _, 0 => a
  | _ :: t, i + 1 => lget d t i

/-- Remove the first element that meets a test. -/
def lrem {α : Type} (p : α → Bool) : List α → List α
  | [] => []
  | a :: t => if p a then t else a :: lrem p t

/-- Apply `f` `n` times. -/
def iter {α : Type} (f : α → α) : Nat → α → α
  | 0, a => a
  | n + 1, a => iter f n (f a)

end Sys2Proof.Machine
end

