-- ==== Sys2Proof/Machine/Bits.lean ====
section
/-!
DEFINITION. Bit fields, sign extension, byte order and the small number helpers of the model (R4: little-endian, bit 0
least significant). Fields are read as natural numbers.
-/
namespace Sys2Proof.Machine

/-- Field of `w` bits at bit `lo` of a number. -/
def nfld (n lo w : Nat) : Nat := (n >>> lo) % 2 ^ w

/-- A number with its `w`-bit field at `lo` replaced by `v` (cut to `w` bits). -/
def nput (n lo w v : Nat) : Nat := n - (nfld n lo w) * 2 ^ lo + (v % 2 ^ w) * 2 ^ lo

/-- Bit `i` of a number. -/
def nbit (n i : Nat) : Bool := (n >>> i) % 2 == 1

/-- A number's value as a `w`-bit two's complement integer. -/
def sext (w n : Nat) : Int := if n % 2 ^ w < 2 ^ (w - 1) then (n % 2 ^ w : Nat) else (n % 2 ^ w : Nat) - (2 ^ w : Nat)

/-- An integer reduced modulo 2^w. -/
def imod (w : Nat) (i : Int) : Nat := (i % (2 ^ w : Nat)).toNat

/-- The number of a Boolean. -/
def b2n (b : Bool) : Nat := if b then 1 else 0

/-- Little-endian bytes to a number (R4). -/
def leNat : List Byte → Nat
  | [] => 0
  | b :: t => b.toNat + 256 * leNat t

/-- The `k` little-endian bytes of a number (R4). -/
def leBytes : Nat → Nat → List Byte
  | 0, _ => []
  | k + 1, n => BitVec.ofNat 8 n :: leBytes k (n / 256)

/-- `k` bytes of a list from an offset, zero past its end. -/
def slice (l : List Byte) (off k : Nat) : List Byte :=
  let t := (l.drop off).take k
  t ++ List.replicate (k - t.length) 0

/-- The little-endian number in `k` bytes of a list from an offset. -/
def leAt (l : List Byte) (off k : Nat) : Nat := leNat (slice l off k)

/-- A list with bytes written over it at an offset. -/
def patch (l : List Byte) (off : Nat) (v : List Byte) : List Byte :=
  l.take off ++ v ++ l.drop (off + v.length)

/-- Largest of a list of numbers (0 for none). -/
def lmax (l : List Nat) : Nat := l.foldl Nat.max 0

/-- A saturating sum. -/
def satAdd (w a b : Nat) : Nat := Nat.min (a + b) (2 ^ w - 1)

/-- Number of set bits among the low `w`. -/
def popcount (w n : Nat) : Nat := ((List.range w).filter (fun i => nbit n i)).length

/-- Quotient rounded up. -/
def cdiv (a b : Nat) : Nat := (a + b - 1) / b

/-- Cut a list into chunks of `k`, at most `fuel` of them. -/
def chunks {α : Type} (k : Nat) : Nat → List α → List (List α)
  | 0, _ => []
  | n + 1, l => if l.isEmpty then [] else l.take k :: chunks k n (l.drop k)

end Sys2Proof.Machine
end

