-- ==== Sys2Proof/Machine/Num.lean ====
section
/-!
DEFINITION. The number formats and their arithmetic (chapter "Number formats, rounding and the reference order"): exact
values as sign, magnitude and power of two; the encodings of Tables 5.1 and 5.2; rounding to nearest-even (R129) and
stochastic rounding (R130) on a format's grid; out-of-range results (Table 5.4); the dither function (R135).
-/
namespace Sys2Proof.Machine

/-- An exact value: a NaN, an infinity, or (-1)^neg × m × 2^e. `sticky` says that the true magnitude lies strictly
between m × 2^e and (m + 1) × 2^e (a quotient, a root or a transcendental value cut after many bits). -/
inductive XNum where
  | nan
  | inf (neg : Bool)
  | fin (neg : Bool) (m : Nat) (e : Int) (sticky : Bool)
  deriving DecidableEq, Repr

/-- The exact value m × 2^e with a sign. -/
def XNum.mk (neg : Bool) (m : Nat) (e : Int) : XNum := .fin neg m e false

/-- Positive zero. -/
def XNum.zero : XNum := .fin false 0 0 false

/-- A binary floating-point format of Table 5.1, with the largest finite encoding of Table 5.2. -/
structure FpFmt where
  width : Nat      -- bits of the element
  fb : Nat         -- fraction bits
  eb : Nat         -- exponent bits
  bias : Nat
  maxBits : Nat    -- magnitude bits of the largest finite value
  infBits : Option Nat   -- magnitude bits of infinity, where the format has one
  nanBits : Nat    -- the canonical NaN
  sat : Bool       -- a finite overflow saturates (Table 5.4)
  deriving DecidableEq, Repr

/-- BF16 of Table 5.1. -/
def bf16 : FpFmt := ⟨16, 7, 8, 127, 0x7F7F, some 0x7F80, 0x7FC0, false⟩
/-- FP16 of Table 5.1. -/
def fp16 : FpFmt := ⟨16, 10, 5, 15, 0x7BFF, some 0x7C00, 0x7E00, false⟩
/-- E4M3 of Table 5.1: no infinity, one NaN pattern, saturating. -/
def e4m3 : FpFmt := ⟨8, 3, 4, 7, 0x7E, none, 0x7F, true⟩
/-- E5M2 of Table 5.1: saturating for finite values, with an infinity. -/
def e5m2 : FpFmt := ⟨8, 2, 5, 15, 0x7B, some 0x7C, 0x7E, true⟩
/-- ACC40 of Table 5.1. -/
def acc40 : FpFmt := ⟨40, 31, 8, 127, 0x7F7FFFFFFF, some 0x7F80000000, 0x7FC0000000, false⟩
/-- binary32 of Table 5.1. -/
def bin32 : FpFmt := ⟨32, 23, 8, 127, 0x7F7FFFFF, some 0x7F800000, 0x7FC00000, false⟩
/-- E2M1, the ply-4 value, of Table 5.1 (Table 5.3). -/
def e2m1 : FpFmt := ⟨4, 1, 2, 1, 0x7, none, 0x0, true⟩

/-- Exponent of the smallest subnormal step of a format. -/
def FpFmt.qmin (f : FpFmt) : Int := 1 - (f.bias : Int) - (f.fb : Int)

/-- The exact value of an encoding (R123, R124). -/
def FpFmt.dec (f : FpFmt) (bits : Nat) : XNum :=
  let neg := nbit bits (f.width - 1)
  let mag := bits % 2 ^ (f.width - 1)
  let e := mag / 2 ^ f.fb
  let fr := mag % 2 ^ f.fb
  if f.infBits = some mag then .inf neg
  else if f.maxBits < mag then .nan
  else if e = 0 then .mk neg fr f.qmin
  else .mk neg (2 ^ f.fb + fr) (f.qmin + (e : Int) - 1)

/-- Sign bit at the top of an encoding. -/
def FpFmt.signed (f : FpFmt) (neg : Bool) (mag : Nat) : Nat := if neg then 2 ^ (f.width - 1) + mag else mag

/-- Encoding of an infinite input under Table 5.4. -/
def FpFmt.encInf (f : FpFmt) (neg : Bool) : Nat :=
  match f.infBits with
  | some b => f.signed neg b
  | none => f.nanBits

/-- Grid magnitude bits of m × 2^e: nearest-even for `none`, stochastic with the 16 dither bits of `some u` (R129, R130).
The magnitude bits of a grid point k × 2^q are (q - qmin) × 2^fb + k. -/
def FpFmt.gridBits (f : FpFmt) (mode : Option Nat) (m : Nat) (e : Int) (sticky : Bool) : Nat :=
  let top : Int := (Nat.log2 m : Int) + e
  let q : Int := if top - (f.fb : Int) < f.qmin then f.qmin else top - (f.fb : Int)
  let base := (q - f.qmin).toNat * 2 ^ f.fb
  if q ≤ e then base + m * 2 ^ (e - q).toNat
  else
    let sh := (q - e).toNat
    let k := m / 2 ^ sh
    let rem := m % 2 ^ sh
    let up : Bool := match mode with
      | none => if 2 * rem = 2 ^ sh then (sticky || k % 2 == 1) else decide (2 ^ sh < 2 * rem)
      | some u => decide (65536 ≤ 65536 * rem / 2 ^ sh + u)
    base + k + b2n up

/-- Round an exact value into a format, with the out-of-range results of Table 5.4 (R131). A value that the format holds
exactly is returned whatever the mode (R132). A magnitude of zero keeps its sign (R126). -/
def FpFmt.enc (f : FpFmt) (mode : Option Nat) : XNum → Nat
  | .nan => f.nanBits
  | .inf neg => f.encInf neg
  | .fin neg m e st =>
    if m = 0 then
      f.signed neg 0
    else
      let b := f.gridBits mode m e st
      if b ≤ f.maxBits then f.signed neg b
      else if f.sat then f.signed neg f.maxBits
      else f.encInf neg

/-- The value after rounding into a format. -/
def FpFmt.rnd (f : FpFmt) (mode : Option Nat) (x : XNum) : XNum := f.dec (f.enc mode x)

/-- Round to nearest-even into ACC40. -/
def rne40 (x : XNum) : XNum := acc40.rnd none x

/-- Round to nearest-even into binary32. -/
def rne32 (x : XNum) : XNum := bin32.rnd none x

/-- The exact signed integer multiple of 2^e of a finite value at a smaller or equal exponent. -/
def scaled (neg : Bool) (m : Nat) (e e0 : Int) : Int :=
  let v : Int := (m * 2 ^ (e - e0).toNat : Nat)
  if neg then -v else v

/-- Exact sum (R125, R126): NaN for a NaN or opposite infinities; equal signs of zero keep the sign, any other exact zero
sum is +0. -/
def XNum.add : XNum → XNum → XNum
  | .nan, _ => .nan
  | _, .nan => .nan
  | .inf a, .inf b => if a = b then .inf a else .nan
  | .inf a, _ => .inf a
  | _, .inf b => .inf b
  | .fin na ma ea _, .fin nb mb eb _ =>
    if ma = 0 ∧ mb = 0 then .mk (na && nb) 0 0
    else if ma = 0 then .mk nb mb eb
    else if mb = 0 then .mk na ma ea
    else
      let e0 := if ea ≤ eb then ea else eb
      let v := scaled na ma ea e0 + scaled nb mb eb e0
      if v = 0 then .mk false 0 0 else .mk (decide (v < 0)) v.natAbs e0

/-- Negation. -/
def XNum.neg : XNum → XNum
  | .nan => .nan
  | .inf a => .inf (!a)
  | .fin n m e s => .fin (!n) m e s

/-- Exact product (R125, R126): zero times an infinity is NaN. -/
def XNum.mul : XNum → XNum → XNum
  | .nan, _ => .nan
  | _, .nan => .nan
  | .inf a, .inf b => .inf (a != b)
  | .inf a, .fin n m _ _ => if m = 0 then .nan else .inf (a != n)
  | .fin n m _ _, .inf b => if m = 0 then .nan else .inf (n != b)
  | .fin na ma ea _, .fin nb mb eb _ => .mk (na != nb) (ma * mb) (ea + eb)

/-- Bits kept of a quotient or a root beyond the operand's own: enough that a sticky tail decides every rounding. -/
def qbits : Nat := 128

/-- Quotient under R125, cut after `qbits` bits with a sticky tail. -/
def XNum.div : XNum → XNum → XNum
  | .nan, _ => .nan
  | _, .nan => .nan
  | .inf _, .inf _ => .nan
  | .inf a, .fin n _ _ _ => .inf (a != n)
  | .fin n _ _ _, .inf b => .mk (n != b) 0 0
  | .fin na ma ea _, .fin nb mb eb _ =>
    if mb = 0 then (if ma = 0 then .nan else .inf (na != nb))
    else if ma = 0 then .mk (na != nb) 0 0
    else
      let sh := qbits + Nat.log2 mb
      let n := ma * 2 ^ sh
      .fin (na != nb) (n / mb) (ea - eb - (sh : Int)) (n % mb != 0)

/-- Integer square root by bisection on bits, from the top bit down. -/
def isqrtAux (n : Nat) : Nat → Nat → Nat
  | 0, r => r
  | k + 1, r =>
    let t := r + 2 ^ k
    if t * t ≤ n then isqrtAux n k t else isqrtAux n k r

/-- Integer square root. -/
def isqrt (n : Nat) : Nat := isqrtAux n (Nat.log2 n / 2 + 1) 0

/-- Square root under R125: below zero NaN, −0 gives −0, cut with a sticky tail. -/
def XNum.sqrt : XNum → XNum
  | .nan => .nan
  | .inf neg => if neg then .nan else .inf false
  | .fin neg m e st =>
    if m = 0 then .mk neg 0 0
    else if neg then .nan
    else
      let m1 := if e % 2 = 0 then m else 2 * m
      let e1 := if e % 2 = 0 then e else e - 1
      let n := m1 * 2 ^ (2 * qbits)
      let r := isqrt n
      .fin false r (e1 / 2 - (qbits : Int)) (st || r * r != n)

/-- Is the value below zero (NaN and zeros are not). -/
def XNum.isNeg : XNum → Bool
  | .nan => false
  | .inf n => n
  | .fin n m _ _ => n && m != 0

/-- Is the value a NaN. -/
def XNum.isNan : XNum → Bool
  | .nan => true
  | _ => false

/-- Is the value infinite or NaN. -/
def XNum.nonfinite : XNum → Bool
  | .fin _ _ _ _ => false
  | _ => true

/-- Is the value a zero. -/
def XNum.isZero : XNum → Bool
  | .fin _ m _ _ => m == 0
  | _ => false

/-- Sign bit of the value (false for NaN). -/
def XNum.sgn : XNum → Bool
  | .nan => false
  | .inf n => n
  | .fin n _ _ _ => n

/-- Absolute value. -/
def XNum.abs : XNum → XNum
  | .nan => .nan
  | .inf _ => .inf false
  | .fin _ m e s => .fin false m e s

/-- x < y on values that are not NaN, zeros equal. -/
def XNum.lt : XNum → XNum → Bool
  | .nan, _ => false
  | _, .nan => false
  | .inf a, .inf b => a && !b
  | .inf a, _ => a
  | _, .inf b => !b
  | .fin na ma ea _, .fin nb mb eb _ =>
    let e0 := if ea ≤ eb then ea else eb
    decide (scaled na ma ea e0 < scaled nb mb eb e0)

/-- x ≥ y; NaN is never at or above anything (R153). -/
def XNum.ge (x y : XNum) : Bool := !x.isNan && !y.isNan && !(x.lt y)

/-- Larger of two, +0 over −0 (Table 6.1 max). -/
def XNum.max (x y : XNum) : XNum :=
  if x.isNan || y.isNan then .nan
  else if x.lt y then y else if y.lt x then x else if x.sgn then y else x

/-- Smaller of two, −0 over +0 (Table 6.1 min). -/
def XNum.min (x y : XNum) : XNum :=
  if x.isNan || y.isNan then .nan
  else if x.lt y then x else if y.lt x then y else if x.sgn then x else y

/-- An exact value times 2^k. -/
def XNum.shift (k : Int) : XNum → XNum
  | .fin n m e s => .fin n m (e + k) s
  | x => x

/-! ### The dither function (R135) -/

/-- 32-bit rotation to the left. -/
def rotl32 (x k : Nat) : Nat := let x := x % 2 ^ 32; (x * 2 ^ (k % 32) + x / 2 ^ (32 - k % 32)) % 2 ^ 32

/-- The mixing function of R135. -/
def ditherMix (x k : Nat) : Nat :=
  let t := (x + k) % 2 ^ 32
  let t := t ^^^ (t >>> 15)
  let t := (t * 0x7A3D5C2B) % 2 ^ 32
  let t := t ^^^ (t >>> 13)
  let t := (t * 0xC48E1F67) % 2 ^ 32
  t ^^^ (t >>> 16)

/-- Round key i of R135. -/
def ditherKey (seed step i : Nat) : Nat :=
  let c := lget 0 [0x6A1F3C95, 0xB4E27D13, 0x2D98C6A7, 0xF35B0E49] i
  (((seed % 2 ^ 32) ^^^ rotl32 ((seed >>> 32) % 2 ^ 32) (8 * i)) + c + step * (2 * i + 1)) % 2 ^ 32

/-- The dither function of a seed, a step, a tensor identifier and an element index (R135). -/
def dither (seed step tensor elem : Nat) : Nat :=
  let r := [0, 1, 2, 3].foldl
    (fun (p : Nat × Nat) i => (p.2, p.1 ^^^ ditherMix p.2 (ditherKey seed step i))) (tensor % 2 ^ 32, elem % 2 ^ 32)
  r.1 * 2 ^ 32 + r.2

/-! ### Exponential functions, rounded once from the exact value (R107, R147)

The magnitude is bracketed by integers scaled by 2^P. Rounding uses the truncated bracket with a sticky tail: the exact
value of e^x for x ≠ 0, and of SiLU and GELU at a finite nonzero x, is never on a grid. -/

/-- Sum of the Taylor series of e^r, r scaled by 2^P, each term cut down, `k` terms. -/
def expTaylor (P r : Nat) : Nat → Nat → Nat → Nat → Nat
  | 0, _, _, acc => acc
  | fuel + 1, k, term, acc =>
    let t := term * r / (2 ^ P * k)
    expTaylor P r fuel (k + 1) t (acc + t)

/-- Square a scaled value `k` times, cutting down. -/
def sqLo (P : Nat) : Nat → Nat → Nat
  | 0, v => v
  | k + 1, v => sqLo P k (v * v / 2 ^ P)

/-- Square a scaled value `k` times, cutting up. -/
def sqHi (P : Nat) : Nat → Nat → Nat
  | 0, v => v
  | k + 1, v => sqHi P k (v * v / 2 ^ P + 1)

/-- Halvings of the argument before the series. -/
def expHalvings : Nat := 14

/-- Terms of the series. -/
def expTerms : Nat := 60

/-- Lower and upper bounds, scaled by 2^P, of e^x for x in [lo, hi] scaled by 2^P, 0 ≤ x ≤ 256. -/
def expBounds (P lo hi : Nat) : Nat × Nat :=
  let one := 2 ^ P
  let rl := lo / 2 ^ expHalvings
  let rh := hi / 2 ^ expHalvings + 1
  let l := expTaylor P rl expTerms 1 one one
  let h := expTaylor P rh expTerms 1 one one + 2 * expTerms
  (sqLo P expHalvings l, sqHi P expHalvings h)

/-- Working precision of the brackets, in bits after the point. (Log 37 DEDUCED) -/
def expPrec : Nat := 1024

/-- A magnitude m × 2^e scaled by 2^P: cut down, and cut up. -/
def scaleDn (P m : Nat) (e : Int) : Nat :=
  if 0 ≤ (P : Int) + e then m * 2 ^ ((P : Int) + e).toNat else m / 2 ^ (-((P : Int) + e)).toNat
def scaleUp (P m : Nat) (e : Int) : Nat :=
  if 0 ≤ (P : Int) + e then m * 2 ^ ((P : Int) + e).toNat else m / 2 ^ (-((P : Int) + e)).toNat + 1

/-- The value of a bracket of quotients n/d, as a cut magnitude with a sticky tail. -/
def ratio (neg : Bool) (n d : Nat) : XNum :=
  if d = 0 then .inf neg
  else
    let sh := qbits * 3 + Nat.log2 d
    .fin neg (n * 2 ^ sh / d) (-(sh : Int)) true

/-- Is the magnitude m × 2^e above 256 (the exponential is then beyond every format's range). -/
def above256 (m : Nat) (e : Int) : Bool := decide (m ≠ 0) && decide (8 ≤ (Nat.log2 m : Int) + e)

/-- e^x for an exact x (R125: the limits at the infinities). (Log 37 DEDUCED) -/
def XNum.exp : XNum → XNum
  | .nan => .nan
  | .inf neg => if neg then .mk false 0 0 else .inf false
  | .fin neg m e _ =>
    if m = 0 then .mk false 1 0
    else if above256 m e then (if neg then .fin false 1 (-369) true else .mk false 1 370)
    else
      let P := expPrec
      let b := expBounds P (scaleDn P m e) (scaleUp P m e)
      if neg then ratio false (2 ^ P) b.2 else .fin false b.1 (-(P : Int)) true

/-- x / (1 + e^(-y)) for a nonzero x and y of x's sign, |y| = ym × 2^ye as a bracket scaled by 2^P. -/
def sigmoidTimes (neg : Bool) (xm : Nat) (xe : Int) (big : Bool) (lo hi : Nat) : XNum :=
  let P := expPrec
  if big then (if neg then .fin true xm (xe - 369) true else .fin false (xm * 2 ^ 400 - 1) (xe - 400) true)
  else
    let b := expBounds P lo hi
    -- e^|y| = E: positive x gives x·E/(1+E), negative x gives x/(1+E)
    let d := b.2 + 2 ^ P
    let n := if neg then xm * 2 ^ P else xm * b.1
    (ratio neg n (if neg then d else b.1 + 2 ^ P)).shift xe

/-- SiLU: x·σ(x) (R107), with its limits at the infinities. (Log 37 DEDUCED) -/
def XNum.silu : XNum → XNum
  | .nan => .nan
  | .inf neg => if neg then .mk true 0 0 else .inf false
  | .fin neg m e _ =>
    if m = 0 then .mk neg 0 0
    else sigmoidTimes neg m e (above256 m e) (scaleDn expPrec m e) (scaleUp expPrec m e)

/-- ⌊√(8/π) × 2^1024⌋, a constant of the definition of GELU (R107). -/
def gelu2c : Nat := 0x19884533d436508d0fcb3c500bab8e2ff4e0a7cc1449c1b63011c6d20098e74ba77e2b15511f4f6dc8fd74eaecdd3a237ac509de5c2f8544c9e3a64d117c233fe60a0b87f651f392d3b36f5b99708ce572b2d51379a7ba8cb09da4dec6f159da47073b1220b1deab3bf87d9c20ca6acff234aac90d7b91724543109aeed2521f9

/-- GELU: 0.5 x (1 + tanh(√(2/π)(x + 0.044715 x³))) = x·σ(√(8/π)(x + 0.044715 x³)) (R107). (Log 37 DEDUCED) -/
def XNum.gelu : XNum → XNum
  | .nan => .nan
  | .inf neg => if neg then .mk true 0 0 else .inf false
  | .fin neg m e _ =>
    if m = 0 then .mk neg 0 0
    else if above256 m e then sigmoidTimes neg m e true 0 0
    else
      let P := expPrec
      let xl := scaleDn P m e
      let xh := scaleUp P m e
      let poly := fun (x : Nat) => x + 44715 * (x * x / 2 ^ P * x / 2 ^ P) / 1000000
      let yl := poly xl * gelu2c / 2 ^ P
      let yh := (poly xh + 3) * (gelu2c + 1) / 2 ^ P + 1
      sigmoidTimes neg m e (decide (256 * 2 ^ P ≤ yh)) yl yh

end Sys2Proof.Machine
end

