-- ==== Sys2Proof/Machine/Regs.lean ====
section
/-!
DEFINITION. The module's registers as the spec's register tables give them: for each register its block (Table 2.4, or
the BAR0 map of Table 14.2), its offset, its repetition, its reset value, and the bits of each access type (R7, Table
0.5); for each field its place. A register is kept in the state's register file under its module-local offset; a register
the host reaches through BAR0 alone is kept under 2^46 plus its BAR0 offset, which no module-local offset can be.
-/
namespace Sys2Proof.Machine

/-- One register (or one repeated register) of a register table. -/
structure Reg where
  base : Nat          -- address of the register in the block of unit 0
  unit : Nat          -- distance between the blocks of two units (0: one block)
  n1 : Nat            -- repetitions, outer, and their distance
  s1 : Nat
  n2 : Nat            -- repetitions, inner, and their distance
  s2 : Nat
  rst : Nat           -- reset value
  rw : Nat            -- bits of access RW
  rwl : Nat           -- bits of access RWL
  w1c : Nat           -- bits of access W1C
  lock : Option (Nat × Nat × Nat × Nat)   -- block offset, the two distances and the bit of the enable that locks RWL
  deriving Repr

/-- One field of a register. -/
structure Fld where
  reg : Reg
  lo : Nat
  w : Nat
  deriving Repr

/-- Address of a register of unit `u` with repetition indices `i` and `j`. -/
def Reg.addr (r : Reg) (u i j : Nat) : Nat := r.base + u * r.unit + i * r.s1 + j * r.s2

/-- CLU_ID (Table 1.4, R17). -/
def CLU_ID : Reg := ⟨0x8000000000, 0x10000, 1, 0, 1, 0, 0, 0, 0, 0, none⟩
def CLU_ID_x : Fld := ⟨CLU_ID, 0, 5⟩
def CLU_ID_y : Fld := ⟨CLU_ID, 8, 5⟩
def CLU_ID_die : Fld := ⟨CLU_ID, 16, 2⟩
def CLU_ID_croft : Fld := ⟨CLU_ID, 20, 4⟩

/-- CLU_ALIAS_CTL (Table 2.6, R43). -/
def CLU_ALIAS_CTL : Reg := ⟨0x8000000008, 0x10000, 1, 0, 1, 0, 0, 1, 0x1f0, 0, some (8, 0, 0, 0)⟩
def CLU_ALIAS_CTL_en : Fld := ⟨CLU_ALIAS_CTL, 0, 1⟩
def CLU_ALIAS_CTL_croft_count : Fld := ⟨CLU_ALIAS_CTL, 4, 5⟩
def CLU_ALIAS_CTL_own_alias : Fld := ⟨CLU_ALIAS_CTL, 12, 4⟩
def CLU_ALIAS_CTL_reason : Fld := ⟨CLU_ALIAS_CTL, 16, 16⟩

/-- CLU_ALIAS_MAP (Table 2.7, R43). -/
def CLU_ALIAS_MAP : Reg := ⟨0x8000000010, 0x10000, 1, 0, 1, 0, 0, 0, 0xffffffffffffffff, 0, some (8, 0, 0, 0)⟩

/-- CLU_SPAN (Table 2.8, R43). -/
def CLU_SPAN : Reg := ⟨0x8000000018, 0x10000, 1, 0, 1, 0, 0, 0, 0xffff, 0, some (8, 0, 0, 0)⟩
def CLU_SPAN_span_tag : Fld := ⟨CLU_SPAN, 0, 16⟩

/-- CLU_DITHER_SEED (Table 5.5, R136). -/
def CLU_DITHER_SEED : Reg := ⟨0x8000000020, 0x10000, 1, 0, 1, 0, 0, 0xffffffffffffffff, 0, 0, none⟩
def CLU_DITHER_SEED_seed : Fld := ⟨CLU_DITHER_SEED, 0, 64⟩

/-- CLU_DITHER_STEP (Table 5.6, R136). -/
def CLU_DITHER_STEP : Reg := ⟨0x8000000028, 0x10000, 1, 0, 1, 0, 0, 0xffffffff, 0, 0, none⟩
def CLU_DITHER_STEP_step : Fld := ⟨CLU_DITHER_STEP, 0, 32⟩

/-- CLU_CORE_CTL (Table 6.15, R170). -/
def CLU_CORE_CTL : Reg := ⟨0x8000000030, 0x10000, 1, 0, 1, 0, 0, 3, 0, 0, none⟩
def CLU_CORE_CTL_run : Fld := ⟨CLU_CORE_CTL, 0, 1⟩
def CLU_CORE_CTL_yield_req : Fld := ⟨CLU_CORE_CTL, 1, 1⟩
def CLU_CORE_CTL_restore : Fld := ⟨CLU_CORE_CTL, 2, 1⟩
def CLU_CORE_CTL_state : Fld := ⟨CLU_CORE_CTL, 4, 3⟩
def CLU_CORE_CTL_reason : Fld := ⟨CLU_CORE_CTL, 16, 16⟩

/-- CLU_CORE_PC (Table 6.16, R170). -/
def CLU_CORE_PC : Reg := ⟨0x8000000038, 0x10000, 1, 0, 1, 0, 0, 0, 0x3ffc, 0, some (0x30, 0, 0, 0)⟩
def CLU_CORE_PC_pc : Fld := ⟨CLU_CORE_PC, 2, 12⟩

/-- CLU_CORE_SAVE (Table 6.16, R170). -/
def CLU_CORE_SAVE : Reg := ⟨0x8000000040, 0x10000, 1, 0, 1, 0, 0, 0, 0x1fffc0, 0, some (0x30, 0, 0, 0)⟩
def CLU_CORE_SAVE_addr : Fld := ⟨CLU_CORE_SAVE, 6, 15⟩

/-- CLU_IMEM_LOAD (Table 6.16, R170). -/
def CLU_IMEM_LOAD : Reg := ⟨0x8000000048, 0x10000, 1, 0, 1, 0, 0, 0x3fffffc0, 0, 0, none⟩
def CLU_IMEM_LOAD_src : Fld := ⟨CLU_IMEM_LOAD, 6, 15⟩
def CLU_IMEM_LOAD_len : Fld := ⟨CLU_IMEM_LOAD, 21, 9⟩
def CLU_IMEM_LOAD_go : Fld := ⟨CLU_IMEM_LOAD, 30, 1⟩
def CLU_IMEM_LOAD_done : Fld := ⟨CLU_IMEM_LOAD, 31, 1⟩

/-- CLU_DRAW_CFG (Table 6.16, R170). -/
def CLU_DRAW_CFG : Reg := ⟨0x8000000050, 0x10000, 1, 0, 1, 0, 0, 0xffffffffffffffff, 0, 0, none⟩
def CLU_DRAW_CFG_tensor_id : Fld := ⟨CLU_DRAW_CFG, 0, 32⟩
def CLU_DRAW_CFG_index : Fld := ⟨CLU_DRAW_CFG, 32, 32⟩

/-- CLU_PART (Table 16.16, R479). -/
def CLU_PART : Reg := ⟨0x8000000058, 0x10000, 1, 0, 1, 0, 0, 0, 0xff0f, 0, some (8, 0, 0, 0)⟩
def CLU_PART_partition : Fld := ⟨CLU_PART, 0, 4⟩
def CLU_PART_gen : Fld := ⟨CLU_PART, 8, 8⟩

/-- CLU_SCRUB (Table 7.6, R198). -/
def CLU_SCRUB : Reg := ⟨0x8000000060, 0x10000, 1, 0, 1, 0, 0x4001, 1, 0xffff00, 0, some (0x60, 0, 0, 0)⟩
def CLU_SCRUB_en : Fld := ⟨CLU_SCRUB, 0, 1⟩
def CLU_SCRUB_clr_cnt : Fld := ⟨CLU_SCRUB, 1, 1⟩
def CLU_SCRUB_interval : Fld := ⟨CLU_SCRUB, 8, 16⟩
def CLU_SCRUB_reason : Fld := ⟨CLU_SCRUB, 32, 16⟩

/-- CLU_CLEAR (Table 7.7, R198). -/
def CLU_CLEAR : Reg := ⟨0x8000000068, 0x10000, 1, 0, 1, 0, 0, 0x7f7f, 0, 0x20000, none⟩
def CLU_CLEAR_first : Fld := ⟨CLU_CLEAR, 0, 7⟩
def CLU_CLEAR_count : Fld := ⟨CLU_CLEAR, 8, 7⟩
def CLU_CLEAR_go : Fld := ⟨CLU_CLEAR, 15, 1⟩
def CLU_CLEAR_busy : Fld := ⟨CLU_CLEAR, 16, 1⟩
def CLU_CLEAR_done : Fld := ⟨CLU_CLEAR, 17, 1⟩
def CLU_CLEAR_reason : Fld := ⟨CLU_CLEAR, 32, 16⟩

/-- CLU_BORROW_CFG (Table 7.8, R198). -/
def CLU_BORROW_CFG : Reg := ⟨0x8000000070, 0x10000, 1, 0, 1, 0, 0xc, 1, 0x7e, 0, some (0x70, 0, 0, 0)⟩
def CLU_BORROW_CFG_en : Fld := ⟨CLU_BORROW_CFG, 0, 1⟩
def CLU_BORROW_CFG_ret_lines : Fld := ⟨CLU_BORROW_CFG, 1, 6⟩
def CLU_BORROW_CFG_reason : Fld := ⟨CLU_BORROW_CFG, 32, 16⟩

/-- CLU_SPILL_BASE (Table 7.9, R198). -/
def CLU_SPILL_BASE : Reg := ⟨0x8000000078, 0x10000, 1, 0, 1, 0, 0, 0, 0x3fffffffc000, 0, some (0x70, 0, 0, 0)⟩
def CLU_SPILL_BASE_base : Fld := ⟨CLU_SPILL_BASE, 14, 32⟩

/-- CLU_RETURN (Table 7.9, R198). -/
def CLU_RETURN : Reg := ⟨0x8000000080, 0x10000, 1, 0, 1, 0, 0, 0x7c, 0, 0x600, none⟩
def CLU_RETURN_cmd : Fld := ⟨CLU_RETURN, 0, 2⟩
def CLU_RETURN_slot : Fld := ⟨CLU_RETURN, 2, 5⟩
def CLU_RETURN_busy : Fld := ⟨CLU_RETURN, 8, 1⟩
def CLU_RETURN_done : Fld := ⟨CLU_RETURN, 9, 1⟩
def CLU_RETURN_late_write : Fld := ⟨CLU_RETURN, 10, 1⟩
def CLU_RETURN_reason : Fld := ⟨CLU_RETURN, 16, 16⟩

/-- CLU_BSLOT (Table 7.10, R198). -/
def CLU_BSLOT : Reg := ⟨0x8000000100, 0x10000, 32, 8, 1, 0, 0, 0x101ff, 0, 0, none⟩
def CLU_BSLOT_line : Fld := ⟨CLU_BSLOT, 0, 9⟩
def CLU_BSLOT_valid : Fld := ⟨CLU_BSLOT, 16, 1⟩
def CLU_BSLOT_dirty : Fld := ⟨CLU_BSLOT, 17, 1⟩

/-- MEM_ECC_CNT (Table 7.11, R198). -/
def MEM_ECC_CNT : Reg := ⟨0x8000001000, 0x10000, 1, 0, 1, 0, 0, 0, 0, 0, none⟩
def MEM_ECC_CNT_corrected : Fld := ⟨MEM_ECC_CNT, 0, 32⟩
def MEM_ECC_CNT_uncorrectable : Fld := ⟨MEM_ECC_CNT, 32, 16⟩
def MEM_ECC_CNT_poison : Fld := ⟨MEM_ECC_CNT, 48, 16⟩

/-- MEM_ECC_ADDR (Table 7.12, R198). -/
def MEM_ECC_ADDR : Reg := ⟨0x8000001008, 0x10000, 1, 0, 1, 0, 0, 0, 0, 0, none⟩
def MEM_ECC_ADDR_offset : Fld := ⟨MEM_ECC_ADDR, 0, 23⟩
def MEM_ECC_ADDR_valid : Fld := ⟨MEM_ECC_ADDR, 23, 1⟩
def MEM_ECC_ADDR_stamp : Fld := ⟨MEM_ECC_ADDR, 32, 32⟩

/-- MEM_SCRUB_STAT (Table 7.13, R198). -/
def MEM_SCRUB_STAT : Reg := ⟨0x8000001010, 0x10000, 1, 0, 1, 0, 0, 0, 0, 0, none⟩
def MEM_SCRUB_STAT_passes : Fld := ⟨MEM_SCRUB_STAT, 0, 32⟩
def MEM_SCRUB_STAT_position : Fld := ⟨MEM_SCRUB_STAT, 32, 17⟩

/-- MEM_BORROW_STAT (Table 7.14, R198). -/
def MEM_BORROW_STAT : Reg := ⟨0x8000001018, 0x10000, 1, 0, 1, 0, 0, 0, 0, 0, none⟩
def MEM_BORROW_STAT_valid_slots : Fld := ⟨MEM_BORROW_STAT, 0, 6⟩
def MEM_BORROW_STAT_dirty_slots : Fld := ⟨MEM_BORROW_STAT, 8, 6⟩

/-- MEM_STAMP (Table 7.15, R198). -/
def MEM_STAMP : Reg := ⟨0x8000001400, 0x10000, 128, 4, 1, 0, 0, 0, 0, 0, none⟩
def MEM_STAMP_stamp : Fld := ⟨MEM_STAMP, 0, 32⟩

/-- ADP_CTL (Table 6.5, R164). -/
def ADP_CTL : Reg := ⟨0x8000001800, 0x10000, 1, 0, 1, 0, 0, 1, 0, 0, none⟩
def ADP_CTL_en : Fld := ⟨ADP_CTL, 0, 1⟩
def ADP_CTL_reason : Fld := ⟨ADP_CTL, 32, 16⟩

/-- ADP_STAT (Table 6.6, R164). -/
def ADP_STAT : Reg := ⟨0x8000001808, 0x10000, 1, 0, 1, 0, 0, 0, 0, 2, none⟩
def ADP_STAT_running : Fld := ⟨ADP_STAT, 0, 1⟩
def ADP_STAT_wr_lost : Fld := ⟨ADP_STAT, 1, 1⟩
def ADP_STAT_tiles_out : Fld := ⟨ADP_STAT, 32, 32⟩

/-- ADP_SR (Table 6.7, R164). -/
def ADP_SR : Reg := ⟨0x8000001810, 0x10000, 1, 0, 1, 0, 0, 0xffffffffffffffff, 0, 0, none⟩
def ADP_SR_tensor_id : Fld := ⟨ADP_SR, 0, 32⟩
def ADP_SR_elem_base : Fld := ⟨ADP_SR, 32, 32⟩

/-- VEC_CTL (Table 6.5, R164). -/
def VEC_CTL : Reg := ⟨0x800000c000, 0x10000, 1, 0, 1, 0, 0, 1, 0, 0, none⟩
def VEC_CTL_en : Fld := ⟨VEC_CTL, 0, 1⟩
def VEC_CTL_reason : Fld := ⟨VEC_CTL, 32, 16⟩

/-- VEC_STAT (Table 6.6, R164). -/
def VEC_STAT : Reg := ⟨0x800000c008, 0x10000, 1, 0, 1, 0, 0, 0, 0, 2, none⟩
def VEC_STAT_running : Fld := ⟨VEC_STAT, 0, 1⟩
def VEC_STAT_wr_lost : Fld := ⟨VEC_STAT, 1, 1⟩
def VEC_STAT_tiles_out : Fld := ⟨VEC_STAT, 32, 32⟩

/-- VEC_SR (Table 6.7, R164). -/
def VEC_SR : Reg := ⟨0x800000c010, 0x10000, 1, 0, 1, 0, 0, 0xffffffffffffffff, 0, 0, none⟩
def VEC_SR_tensor_id : Fld := ⟨VEC_SR, 0, 32⟩
def VEC_SR_elem_base : Fld := ⟨VEC_SR, 32, 32⟩

/-- SUM_CTL (Table 6.5, R164). -/
def SUM_CTL : Reg := ⟨0x800000c800, 0x10000, 1, 0, 1, 0, 0, 1, 0, 0, none⟩
def SUM_CTL_en : Fld := ⟨SUM_CTL, 0, 1⟩
def SUM_CTL_reason : Fld := ⟨SUM_CTL, 32, 16⟩

/-- SUM_STAT (Table 6.6, R164). -/
def SUM_STAT : Reg := ⟨0x800000c808, 0x10000, 1, 0, 1, 0, 0, 0, 0, 2, none⟩
def SUM_STAT_running : Fld := ⟨SUM_STAT, 0, 1⟩
def SUM_STAT_wr_lost : Fld := ⟨SUM_STAT, 1, 1⟩
def SUM_STAT_tiles_out : Fld := ⟨SUM_STAT, 32, 32⟩

/-- SUM_SR (Table 6.7, R164). -/
def SUM_SR : Reg := ⟨0x800000c810, 0x10000, 1, 0, 1, 0, 0, 0xffffffffffffffff, 0, 0, none⟩
def SUM_SR_tensor_id : Fld := ⟨SUM_SR, 0, 32⟩
def SUM_SR_elem_base : Fld := ⟨SUM_SR, 32, 32⟩

/-- CNV_CTL (Table 6.5, R164). -/
def CNV_CTL : Reg := ⟨0x800000d000, 0x10000, 1, 0, 1, 0, 0, 1, 0, 0, none⟩
def CNV_CTL_en : Fld := ⟨CNV_CTL, 0, 1⟩
def CNV_CTL_reason : Fld := ⟨CNV_CTL, 32, 16⟩

/-- CNV_STAT (Table 6.6, R164). -/
def CNV_STAT : Reg := ⟨0x800000d008, 0x10000, 1, 0, 1, 0, 0, 0, 0, 2, none⟩
def CNV_STAT_running : Fld := ⟨CNV_STAT, 0, 1⟩
def CNV_STAT_wr_lost : Fld := ⟨CNV_STAT, 1, 1⟩
def CNV_STAT_tiles_out : Fld := ⟨CNV_STAT, 32, 32⟩

/-- CNV_SR (Table 6.7, R164). -/
def CNV_SR : Reg := ⟨0x800000d010, 0x10000, 1, 0, 1, 0, 0, 0xffffffffffffffff, 0, 0, none⟩
def CNV_SR_tensor_id : Fld := ⟨CNV_SR, 0, 32⟩
def CNV_SR_elem_base : Fld := ⟨CNV_SR, 32, 32⟩

/-- GTH_CTL (Table 6.5, R164). -/
def GTH_CTL : Reg := ⟨0x800000d800, 0x10000, 1, 0, 1, 0, 0, 1, 0, 0, none⟩
def GTH_CTL_en : Fld := ⟨GTH_CTL, 0, 1⟩
def GTH_CTL_reason : Fld := ⟨GTH_CTL, 32, 16⟩

/-- GTH_STAT (Table 6.6, R164). -/
def GTH_STAT : Reg := ⟨0x800000d808, 0x10000, 1, 0, 1, 0, 0, 0, 0, 2, none⟩
def GTH_STAT_running : Fld := ⟨GTH_STAT, 0, 1⟩
def GTH_STAT_wr_lost : Fld := ⟨GTH_STAT, 1, 1⟩
def GTH_STAT_tiles_out : Fld := ⟨GTH_STAT, 32, 32⟩

/-- VEC_SCALAR (Table 6.8, R164). -/
def VEC_SCALAR : Reg := ⟨0x800000c018, 0x10000, 1, 0, 1, 0, 0, 0xffffffffff, 0, 0, none⟩
def VEC_SCALAR_value : Fld := ⟨VEC_SCALAR, 0, 40⟩

/-- VEC_THRESH (Table 6.8, R164). -/
def VEC_THRESH : Reg := ⟨0x800000c020, 0x10000, 1, 0, 1, 0, 0, 0xffffffffff, 0, 0, none⟩
def VEC_THRESH_value : Fld := ⟨VEC_THRESH, 0, 40⟩

/-- VEC_THRESH_FRAC (Table 6.8, R164). -/
def VEC_THRESH_FRAC : Reg := ⟨0x800000c028, 0x10000, 1, 0, 1, 0, 0, 0xffffffff, 0, 0, none⟩
def VEC_THRESH_FRAC_frac : Fld := ⟨VEC_THRESH_FRAC, 0, 32⟩

/-- VEC_OP (Table 6.9, R164). -/
def VEC_OP : Reg := ⟨0x800000c100, 0x10000, 16, 8, 1, 0, 0, 0, 0x3fffffffffff3fff, 0, some (0xc000, 0, 0, 0)⟩
def VEC_OP_valid : Fld := ⟨VEC_OP, 0, 1⟩
def VEC_OP_fn : Fld := ⟨VEC_OP, 1, 5⟩
def VEC_OP_bcast : Fld := ⟨VEC_OP, 6, 2⟩
def VEC_OP_out_fmt : Fld := ⟨VEC_OP, 8, 4⟩
def VEC_OP_round : Fld := ⟨VEC_OP, 12, 1⟩
def VEC_OP_thr_mode : Fld := ⟨VEC_OP, 13, 1⟩
def VEC_OP_pcount : Fld := ⟨VEC_OP, 16, 8⟩
def VEC_OP_brep : Fld := ⟨VEC_OP, 24, 8⟩
def VEC_OP_vbase : Fld := ⟨VEC_OP, 32, 12⟩
def VEC_OP_vnum : Fld := ⟨VEC_OP, 44, 12⟩
def VEC_OP_fill : Fld := ⟨VEC_OP, 56, 6⟩

/-- SUM_OP (Table 6.10, R164). -/
def SUM_OP : Reg := ⟨0x800000c900, 0x10000, 16, 8, 1, 0, 0, 0, 0xffff01ff, 0, some (0xc800, 0, 0, 0)⟩
def SUM_OP_valid : Fld := ⟨SUM_OP, 0, 1⟩
def SUM_OP_fn : Fld := ⟨SUM_OP, 1, 2⟩
def SUM_OP_axis : Fld := ⟨SUM_OP, 3, 1⟩
def SUM_OP_out_fmt : Fld := ⟨SUM_OP, 4, 4⟩
def SUM_OP_round : Fld := ⟨SUM_OP, 8, 1⟩
def SUM_OP_span : Fld := ⟨SUM_OP, 16, 16⟩

/-- CNV_OP (Table 6.11, R164). -/
def CNV_OP : Reg := ⟨0x800000d100, 0x10000, 16, 8, 1, 0, 0, 0, 0x3f, 0, some (0xd000, 0, 0, 0)⟩
def CNV_OP_valid : Fld := ⟨CNV_OP, 0, 1⟩
def CNV_OP_out_fmt : Fld := ⟨CNV_OP, 1, 4⟩
def CNV_OP_round : Fld := ⟨CNV_OP, 5, 1⟩

/-- GTH_OP (Table 6.11, R164). -/
def GTH_OP : Reg := ⟨0x800000d900, 0x10000, 16, 8, 1, 0, 0, 0, 0xffff01fffff7, 0, some (0xd800, 0, 0, 0)⟩
def GTH_OP_valid : Fld := ⟨GTH_OP, 0, 1⟩
def GTH_OP_fn : Fld := ⟨GTH_OP, 1, 2⟩
def GTH_OP_out_fmt : Fld := ⟨GTH_OP, 4, 4⟩
def GTH_OP_table_base : Fld := ⟨GTH_OP, 8, 17⟩
def GTH_OP_table_rows : Fld := ⟨GTH_OP, 32, 16⟩

/-- ADP_CFG (Table 10.4, R267). -/
def ADP_CFG : Reg := ⟨0x8000001818, 0x10000, 1, 0, 1, 0, 0, 0, 0x1fff, 0, some (0x1800, 0, 0, 0)⟩
def ADP_CFG_fetch_q : Fld := ⟨ADP_CFG, 0, 6⟩
def ADP_CFG_copy_q : Fld := ⟨ADP_CFG, 6, 6⟩
def ADP_CFG_copy_en : Fld := ⟨ADP_CFG, 12, 1⟩

/-- ADP_BASE (Table 10.5, R267). -/
def ADP_BASE : Reg := ⟨0x8000001820, 0x10000, 1, 0, 1, 0, 0, 0xffff, 0, 0, none⟩
def ADP_BASE_tag : Fld := ⟨ADP_BASE, 0, 16⟩

/-- ADP_CNT (Table 10.6, R267). -/
def ADP_CNT : Reg := ⟨0x8000001828, 0x10000, 1, 0, 1, 0, 0, 0, 0, 0, none⟩
def ADP_CNT_home_tiles : Fld := ⟨ADP_CNT, 0, 32⟩
def ADP_CNT_copy_tiles : Fld := ⟨ADP_CNT, 32, 32⟩

/-- ADP_OP (Table 10.7, R267). -/
def ADP_OP : Reg := ⟨0x8000001900, 0x10000, 16, 8, 1, 0, 0, 0, 0x3fffffffff1fff, 0, some (0x1800, 0, 0, 0)⟩
def ADP_OP_valid : Fld := ⟨ADP_OP, 0, 1⟩
def ADP_OP_kind : Fld := ⟨ADP_OP, 1, 2⟩
def ADP_OP_wt : Fld := ⟨ADP_OP, 3, 2⟩
def ADP_OP_out_fmt : Fld := ⟨ADP_OP, 5, 4⟩
def ADP_OP_round : Fld := ⟨ADP_OP, 9, 1⟩
def ADP_OP_act : Fld := ⟨ADP_OP, 10, 3⟩
def ADP_OP_home_rec : Fld := ⟨ADP_OP, 16, 24⟩
def ADP_OP_copy_rec : Fld := ⟨ADP_OP, 40, 14⟩

/-- CTL_SK_CTL (Table 3.10, R80). -/
def CTL_SK_CTL : Reg := ⟨0x8000002000, 0x10000, 1, 0, 1, 0, 0x3e80000, 1, 0xffff0000, 0, some (0x2000, 0, 0, 0)⟩
def CTL_SK_CTL_en : Fld := ⟨CTL_SK_CTL, 0, 1⟩
def CTL_SK_CTL_cancel : Fld := ⟨CTL_SK_CTL, 1, 1⟩
def CTL_SK_CTL_stall_us : Fld := ⟨CTL_SK_CTL, 16, 16⟩
def CTL_SK_CTL_reason : Fld := ⟨CTL_SK_CTL, 32, 16⟩

/-- CTL_SKQ_PUSH (Table 3.11, R80). -/
def CTL_SKQ_PUSH : Reg := ⟨0x8000002008, 0x10000, 1, 0, 1, 0, 0, 0, 0, 0, none⟩
def CTL_SKQ_PUSH_desc : Fld := ⟨CTL_SKQ_PUSH, 6, 15⟩

/-- CTL_SKQ_STAT (Table 3.12, R80). -/
def CTL_SKQ_STAT : Reg := ⟨0x8000002010, 0x10000, 1, 0, 1, 0, 0x400000, 0, 0, 0, none⟩
def CTL_SKQ_STAT_pending : Fld := ⟨CTL_SKQ_STAT, 0, 7⟩
def CTL_SKQ_STAT_running : Fld := ⟨CTL_SKQ_STAT, 8, 5⟩
def CTL_SKQ_STAT_cq_count : Fld := ⟨CTL_SKQ_STAT, 16, 6⟩
def CTL_SKQ_STAT_idle : Fld := ⟨CTL_SKQ_STAT, 22, 1⟩
def CTL_SKQ_STAT_head_blocked : Fld := ⟨CTL_SKQ_STAT, 23, 1⟩
def CTL_SKQ_STAT_stopped : Fld := ⟨CTL_SKQ_STAT, 24, 1⟩
def CTL_SKQ_STAT_starve_cycles : Fld := ⟨CTL_SKQ_STAT, 32, 32⟩

/-- CTL_CQ_POP (Table 3.13, R80). -/
def CTL_CQ_POP : Reg := ⟨0x8000002018, 0x10000, 1, 0, 1, 0, 0, 0, 0, 0, none⟩
def CTL_CQ_POP_skein_id : Fld := ⟨CTL_CQ_POP, 0, 16⟩
def CTL_CQ_POP_reason : Fld := ⟨CTL_CQ_POP, 16, 16⟩
def CTL_CQ_POP_valid : Fld := ⟨CTL_CQ_POP, 32, 1⟩
def CTL_CQ_POP_late : Fld := ⟨CTL_CQ_POP, 33, 1⟩
def CTL_CQ_POP_poisoned : Fld := ⟨CTL_CQ_POP, 34, 1⟩
def CTL_CQ_POP_cancelled : Fld := ⟨CTL_CQ_POP, 35, 1⟩
def CTL_CQ_POP_tiles_out : Fld := ⟨CTL_CQ_POP, 40, 24⟩

/-- CTL_SEM_ADD (Table 3.14, R80). -/
def CTL_SEM_ADD : Reg := ⟨0x8000002020, 0x10000, 1, 0, 1, 0, 0, 0, 0, 0, none⟩
def CTL_SEM_ADD_sem : Fld := ⟨CTL_SEM_ADD, 0, 4⟩
def CTL_SEM_ADD_amount : Fld := ⟨CTL_SEM_ADD, 16, 16⟩

/-- CTL_SEM (Table 3.15, R80). -/
def CTL_SEM : Reg := ⟨0x8000002100, 0x10000, 16, 8, 1, 0, 0, 0xffff, 0, 0, none⟩
def CTL_SEM_value : Fld := ⟨CTL_SEM, 0, 16⟩

/-- CTL_DRAW (Table 6.17, R171). -/
def CTL_DRAW : Reg := ⟨0x8000003000, 0x10000, 1, 0, 1, 0, 0, 0, 0, 0, none⟩
def CTL_DRAW_draw : Fld := ⟨CTL_DRAW, 0, 64⟩

/-- CTL_KSTAT (Table 6.17, R171). -/
def CTL_KSTAT : Reg := ⟨0x8000003008, 0x10000, 1, 0, 1, 0, 0, 0, 0, 0, none⟩
def CTL_KSTAT_kernels : Fld := ⟨CTL_KSTAT, 0, 32⟩

/-- CTL_SUMM_TAG (Table 6.17, R171). -/
def CTL_SUMM_TAG : Reg := ⟨0x8000003040, 0x10000, 1, 0, 1, 0, 0, 0, 0, 0, none⟩
def CTL_SUMM_TAG_skein_id : Fld := ⟨CTL_SUMM_TAG, 0, 16⟩
def CTL_SUMM_TAG_valid : Fld := ⟨CTL_SUMM_TAG, 16, 1⟩
def CTL_SUMM_TAG_poisoned : Fld := ⟨CTL_SUMM_TAG, 17, 1⟩
def CTL_SUMM_TAG_nonfinite : Fld := ⟨CTL_SUMM_TAG, 32, 32⟩

/-- CTL_SUMM_MAX (Table 6.17, R171). -/
def CTL_SUMM_MAX : Reg := ⟨0x8000003048, 0x10000, 1, 0, 1, 0, 0, 0, 0, 0, none⟩
def CTL_SUMM_MAX_max : Fld := ⟨CTL_SUMM_MAX, 0, 40⟩

/-- CTL_SUMM_IDX (Table 6.17, R171). -/
def CTL_SUMM_IDX : Reg := ⟨0x8000003050, 0x10000, 1, 0, 1, 0, 0, 0, 0, 0, none⟩
def CTL_SUMM_IDX_argmax : Fld := ⟨CTL_SUMM_IDX, 0, 32⟩
def CTL_SUMM_IDX_first_cross : Fld := ⟨CTL_SUMM_IDX, 32, 32⟩

/-- CTL_SUMM_SUM (Table 6.17, R171). -/
def CTL_SUMM_SUM : Reg := ⟨0x8000003058, 0x10000, 1, 0, 1, 0, 0, 0, 0, 0, none⟩
def CTL_SUMM_SUM_sum : Fld := ⟨CTL_SUMM_SUM, 0, 40⟩

/-- CTL_SUMM_ABOVE (Table 6.17, R171). -/
def CTL_SUMM_ABOVE : Reg := ⟨0x8000003060, 0x10000, 1, 0, 1, 0, 0, 0, 0, 0, none⟩
def CTL_SUMM_ABOVE_sum_above : Fld := ⟨CTL_SUMM_ABOVE, 0, 40⟩

/-- CTL_SUMM_COUNT (Table 6.17, R171). -/
def CTL_SUMM_COUNT : Reg := ⟨0x8000003068, 0x10000, 1, 0, 1, 0, 0, 0, 0, 0, none⟩
def CTL_SUMM_COUNT_count_above : Fld := ⟨CTL_SUMM_COUNT, 0, 32⟩
def CTL_SUMM_COUNT_live : Fld := ⟨CTL_SUMM_COUNT, 32, 32⟩

/-- MAT_CTL (Table 4.7, R120). -/
def MAT_CTL : Reg := ⟨0x8000004000, 0x10000, 16, 0x800, 1, 0, 0x1000000, 1, 0xffff0000, 0, some (0x4000, 0x800, 0, 0)⟩
def MAT_CTL_en : Fld := ⟨MAT_CTL, 0, 1⟩
def MAT_CTL_warm : Fld := ⟨MAT_CTL, 16, 16⟩
def MAT_CTL_reason : Fld := ⟨MAT_CTL, 32, 16⟩

/-- MAT_STAT (Table 4.8, R120). -/
def MAT_STAT : Reg := ⟨0x8000004008, 0x10000, 16, 0x800, 1, 0, 0, 0, 0, 0x2000, none⟩
def MAT_STAT_state : Fld := ⟨MAT_STAT, 0, 3⟩
def MAT_STAT_rows_on : Fld := ⟨MAT_STAT, 4, 4⟩
def MAT_STAT_buf0 : Fld := ⟨MAT_STAT, 8, 2⟩
def MAT_STAT_buf1 : Fld := ⟨MAT_STAT, 10, 2⟩
def MAT_STAT_held_poison : Fld := ⟨MAT_STAT, 12, 1⟩
def MAT_STAT_wr_lost : Fld := ⟨MAT_STAT, 13, 1⟩
def MAT_STAT_passes : Fld := ⟨MAT_STAT, 32, 32⟩

/-- MAT_CTX_CTL (Table 4.9, R120). -/
def MAT_CTX_CTL : Reg := ⟨0x8000004010, 0x10000, 16, 0x800, 1, 0, 0, 0x1fffc0, 0, 0x400000, none⟩
def MAT_CTX_CTL_cmd : Fld := ⟨MAT_CTX_CTL, 0, 2⟩
def MAT_CTX_CTL_addr : Fld := ⟨MAT_CTX_CTL, 6, 15⟩
def MAT_CTX_CTL_busy : Fld := ⟨MAT_CTX_CTL, 21, 1⟩
def MAT_CTX_CTL_done : Fld := ⟨MAT_CTX_CTL, 22, 1⟩
def MAT_CTX_CTL_reason : Fld := ⟨MAT_CTX_CTL, 32, 16⟩

/-- MAT_SR (Table 4.10, R120). -/
def MAT_SR : Reg := ⟨0x8000004018, 0x10000, 16, 0x800, 1, 0, 0, 0xffffffffffffffff, 0, 0, none⟩
def MAT_SR_tensor_id : Fld := ⟨MAT_SR, 0, 32⟩
def MAT_SR_elem_base : Fld := ⟨MAT_SR, 32, 32⟩

/-- MAT_PWL_CFG (Table 4.11, R120). -/
def MAT_PWL_CFG : Reg := ⟨0x8000004020, 0x10000, 16, 0x800, 1, 0, 0, 0xffffff, 0, 0, none⟩
def MAT_PWL_CFG_lo : Fld := ⟨MAT_PWL_CFG, 0, 16⟩
def MAT_PWL_CFG_wexp : Fld := ⟨MAT_PWL_CFG, 16, 8⟩

/-- MAT_STALL (Table 4.12, R120). -/
def MAT_STALL : Reg := ⟨0x8000004028, 0x10000, 16, 0x800, 1, 0, 0, 0, 0, 0, none⟩
def MAT_STALL_holds : Fld := ⟨MAT_STALL, 0, 32⟩
def MAT_STALL_bubbles : Fld := ⟨MAT_STALL, 32, 32⟩

/-- MAT_OPA (Table 4.13, R120). -/
def MAT_OPA : Reg := ⟨0x8000004100, 0x10000, 16, 0x800, 16, 0x10, 0, 0, 0xffff01ff7f, 0, some (0x4000, 0x800, 0, 0)⟩
def MAT_OPA_valid : Fld := ⟨MAT_OPA, 0, 1⟩
def MAT_OPA_mul : Fld := ⟨MAT_OPA, 1, 2⟩
def MAT_OPA_feed : Fld := ⟨MAT_OPA, 3, 1⟩
def MAT_OPA_group : Fld := ⟨MAT_OPA, 4, 2⟩
def MAT_OPA_hide : Fld := ⟨MAT_OPA, 6, 1⟩
def MAT_OPA_mt : Fld := ⟨MAT_OPA, 8, 6⟩
def MAT_OPA_init : Fld := ⟨MAT_OPA, 14, 2⟩
def MAT_OPA_end_hold : Fld := ⟨MAT_OPA, 16, 1⟩
def MAT_OPA_count : Fld := ⟨MAT_OPA, 24, 16⟩

/-- MAT_OPB (Table 4.14, R120). -/
def MAT_OPB : Reg := ⟨0x8000004108, 0x10000, 16, 0x800, 16, 0x10, 0, 0, 0xffff01ff, 0, some (0x4000, 0x800, 0, 0)⟩
def MAT_OPB_scale_mode : Fld := ⟨MAT_OPB, 0, 2⟩
def MAT_OPB_scale_axis : Fld := ⟨MAT_OPB, 2, 1⟩
def MAT_OPB_bias_en : Fld := ⟨MAT_OPB, 3, 1⟩
def MAT_OPB_bias_axis : Fld := ⟨MAT_OPB, 4, 1⟩
def MAT_OPB_act : Fld := ⟨MAT_OPB, 5, 3⟩
def MAT_OPB_round : Fld := ⟨MAT_OPB, 8, 1⟩
def MAT_OPB_scale_scalar : Fld := ⟨MAT_OPB, 16, 16⟩

/-- MAT_OVEC_SCALE (Table 4.15, R120). -/
def MAT_OVEC_SCALE : Reg := ⟨0x8000004200, 0x10000, 16, 0x800, 32, 8, 0, 0xffffffffffffffff, 0, 0, none⟩

/-- MAT_OVEC_BIAS (Table 4.16, R120). -/
def MAT_OVEC_BIAS : Reg := ⟨0x8000004300, 0x10000, 16, 0x800, 32, 8, 0, 0xffffffffffffffff, 0, 0, none⟩

/-- MAT_PWL_SEG (Table 4.17, R120). -/
def MAT_PWL_SEG : Reg := ⟨0x8000004400, 0x10000, 16, 0x800, 32, 8, 0, 0xffffffffffffffff, 0, 0, none⟩
def MAT_PWL_SEG_slope_0 : Fld := ⟨MAT_PWL_SEG, 0, 16⟩
def MAT_PWL_SEG_icpt_0 : Fld := ⟨MAT_PWL_SEG, 16, 16⟩
def MAT_PWL_SEG_slope_1 : Fld := ⟨MAT_PWL_SEG, 32, 16⟩
def MAT_PWL_SEG_icpt_1 : Fld := ⟨MAT_PWL_SEG, 48, 16⟩

/-- STR_CTL (Table 8.2, R225). -/
def STR_CTL : Reg := ⟨0x800000e000, 0x10000, 2, 0x1000, 1, 0, 0x643200, 1, 0xffffff00, 0, some (0xe000, 0x1000, 0, 0)⟩
def STR_CTL_en : Fld := ⟨STR_CTL, 0, 1⟩
def STR_CTL_retry_us : Fld := ⟨STR_CTL, 8, 8⟩
def STR_CTL_halt_ms : Fld := ⟨STR_CTL, 16, 16⟩
def STR_CTL_reason : Fld := ⟨STR_CTL, 32, 16⟩

/-- STR_STAT (Table 8.3, R225). -/
def STR_STAT : Reg := ⟨0x800000e008, 0x10000, 2, 0x1000, 1, 0, 0, 0, 0, 0, none⟩
def STR_STAT_halted : Fld := ⟨STR_STAT, 0, 32⟩
def STR_STAT_bound : Fld := ⟨STR_STAT, 32, 32⟩

/-- STR_QCFG (Table 8.4, R225). -/
def STR_QCFG : Reg := ⟨0x800000e100, 0x10000, 2, 0x1000, 32, 0x40, 0, 1, 0x1fff07f6, 0, some (0xe100, 0x1000, 0x40, 0)⟩
def STR_QCFG_en : Fld := ⟨STR_QCFG, 0, 1⟩
def STR_QCFG_class : Fld := ⟨STR_QCFG, 1, 2⟩
def STR_QCFG_limit : Fld := ⟨STR_QCFG, 4, 7⟩
def STR_QCFG_depth : Fld := ⟨STR_QCFG, 16, 13⟩
def STR_QCFG_reason : Fld := ⟨STR_QCFG, 32, 16⟩

/-- STR_QRATE (Table 8.5, R225). -/
def STR_QRATE : Reg := ⟨0x800000e108, 0x10000, 2, 0x1000, 32, 0x40, 0, 0, 0x3ffff, 0, some (0xe100, 0x1000, 0x40, 0)⟩
def STR_QRATE_rate : Fld := ⟨STR_QRATE, 0, 18⟩

/-- STR_QSTAT (Table 8.6, R225). -/
def STR_QSTAT : Reg := ⟨0x800000e110, 0x10000, 2, 0x1000, 32, 0x40, 0, 0, 0, 0, none⟩
def STR_QSTAT_bound : Fld := ⟨STR_QSTAT, 0, 1⟩
def STR_QSTAT_halted : Fld := ⟨STR_QSTAT, 1, 1⟩
def STR_QSTAT_outstanding : Fld := ⟨STR_QSTAT, 2, 7⟩
def STR_QSTAT_halt_reason : Fld := ⟨STR_QSTAT, 16, 16⟩
def STR_QSTAT_tokens : Fld := ⟨STR_QSTAT, 32, 32⟩

/-- STR_QPOS (Table 8.7, R225). -/
def STR_QPOS : Reg := ⟨0x800000e118, 0x10000, 2, 0x1000, 32, 0x40, 0, 0, 0, 0, none⟩
def STR_QPOS_tile : Fld := ⟨STR_QPOS, 0, 16⟩
def STR_QPOS_block : Fld := ⟨STR_QPOS, 16, 5⟩
def STR_QPOS_stream : Fld := ⟨STR_QPOS, 21, 2⟩
def STR_QPOS_valid : Fld := ⟨STR_QPOS, 23, 1⟩

/-- STR_QADDR (Table 8.7, R225). -/
def STR_QADDR : Reg := ⟨0x800000e120, 0x10000, 2, 0x1000, 32, 0x40, 0, 0, 0, 0, none⟩
def STR_QADDR_addr : Fld := ⟨STR_QADDR, 0, 64⟩

/-- STR_QCMD (Table 8.8, R225). -/
def STR_QCMD : Reg := ⟨0x800000e128, 0x10000, 2, 0x1000, 32, 0x40, 0, 0, 0, 0, none⟩
def STR_QCMD_resume : Fld := ⟨STR_QCMD, 0, 1⟩
def STR_QCMD_abandon : Fld := ⟨STR_QCMD, 1, 1⟩

/-- STR_QCNT (Table 8.8, R225). -/
def STR_QCNT : Reg := ⟨0x800000e130, 0x10000, 2, 0x1000, 32, 0x40, 0, 0, 0, 0, none⟩
def STR_QCNT_tiles : Fld := ⟨STR_QCNT, 0, 32⟩
def STR_QCNT_halts : Fld := ⟨STR_QCNT, 32, 16⟩
def STR_QCNT_retries : Fld := ⟨STR_QCNT, 48, 16⟩

/-- STR_QACC (Table 8.12, R225). -/
def STR_QACC : Reg := ⟨0x800000e138, 0x10000, 2, 0x1000, 32, 0x40, 0, 0xfffffffffff, 0, 0, none⟩
def STR_QACC_txn_step : Fld := ⟨STR_QACC, 0, 32⟩
def STR_QACC_rank : Fld := ⟨STR_QACC, 32, 8⟩
def STR_QACC_job : Fld := ⟨STR_QACC, 40, 4⟩

/-- HBM_CTL (Table 8.9, R226). -/
def HBM_CTL : Reg := ⟨0x8010000000, 0x10000, 1, 0, 1, 0, 0x400000, 1, 0xffff0000, 0, some (0, 0, 0, 0)⟩
def HBM_CTL_en : Fld := ⟨HBM_CTL, 0, 1⟩
def HBM_CTL_trained : Fld := ⟨HBM_CTL, 1, 1⟩
def HBM_CTL_failed : Fld := ⟨HBM_CTL, 2, 1⟩
def HBM_CTL_scrub_int : Fld := ⟨HBM_CTL, 16, 16⟩
def HBM_CTL_reason : Fld := ⟨HBM_CTL, 32, 16⟩

/-- HBM_PAGE_CMD (Table 8.9, R226). -/
def HBM_PAGE_CMD : Reg := ⟨0x8010000008, 0x10000, 1, 0, 1, 0, 0, 0x7fff, 0, 0x20000, none⟩
def HBM_PAGE_CMD_page : Fld := ⟨HBM_PAGE_CMD, 0, 13⟩
def HBM_PAGE_CMD_state : Fld := ⟨HBM_PAGE_CMD, 13, 2⟩
def HBM_PAGE_CMD_go : Fld := ⟨HBM_PAGE_CMD, 15, 1⟩
def HBM_PAGE_CMD_busy : Fld := ⟨HBM_PAGE_CMD, 16, 1⟩
def HBM_PAGE_CMD_done : Fld := ⟨HBM_PAGE_CMD, 17, 1⟩

/-- HBM_ECC_CNT (Table 8.9, R226). -/
def HBM_ECC_CNT : Reg := ⟨0x8010000010, 0x10000, 1, 0, 1, 0, 0, 0, 0, 0, none⟩
def HBM_ECC_CNT_corrected : Fld := ⟨HBM_ECC_CNT, 0, 32⟩
def HBM_ECC_CNT_uncorrectable : Fld := ⟨HBM_ECC_CNT, 32, 16⟩
def HBM_ECC_CNT_poison : Fld := ⟨HBM_ECC_CNT, 48, 16⟩

/-- HBM_ECC_ADDR (Table 8.9, R226). -/
def HBM_ECC_ADDR : Reg := ⟨0x8010000018, 0x10000, 1, 0, 1, 0, 0, 0, 0, 0, none⟩
def HBM_ECC_ADDR_ch_addr : Fld := ⟨HBM_ECC_ADDR, 0, 31⟩
def HBM_ECC_ADDR_valid : Fld := ⟨HBM_ECC_ADDR, 31, 1⟩
def HBM_ECC_ADDR_stamp : Fld := ⟨HBM_ECC_ADDR, 32, 32⟩

/-- HBM_FAULT_CNT (Table 8.9, R226). -/
def HBM_FAULT_CNT : Reg := ⟨0x8010000020, 0x10000, 1, 0, 1, 0, 0, 0, 0, 0, none⟩
def HBM_FAULT_CNT_presence : Fld := ⟨HBM_FAULT_CNT, 0, 32⟩
def HBM_FAULT_CNT_parity : Fld := ⟨HBM_FAULT_CNT, 32, 32⟩

/-- HBM_PSTATE (Table 8.9, R226). -/
def HBM_PSTATE : Reg := ⟨0x8010001000, 0x10000, 192, 8, 1, 0, 0x5555555555555555, 0, 0, 0, none⟩

/-- UPD_CTL (Table 13.8, R383). -/
def UPD_CTL : Reg := ⟨0x8010002000, 0x10000, 1, 0, 1, 0, 0, 1, 0, 0, none⟩
def UPD_CTL_en : Fld := ⟨UPD_CTL, 0, 1⟩
def UPD_CTL_reason : Fld := ⟨UPD_CTL, 16, 16⟩

/-- UPD_TABLE (Table 13.8, R383). -/
def UPD_TABLE : Reg := ⟨0x8010002008, 0x10000, 1, 0, 1, 0, 0, 0, 0xfffff, 0, some (0x2000, 0, 0, 0)⟩
def UPD_TABLE_base : Fld := ⟨UPD_TABLE, 0, 20⟩

/-- UPD_CMD (Table 13.8, R383). -/
def UPD_CMD : Reg := ⟨0x8010002010, 0x10000, 1, 0, 1, 0, 0, 0, 0, 0, none⟩
def UPD_CMD_job : Fld := ⟨UPD_CMD, 0, 4⟩
def UPD_CMD_cmd : Fld := ⟨UPD_CMD, 4, 2⟩

/-- UPD_JOB_CFG (Table 13.9, R383). -/
def UPD_JOB_CFG : Reg := ⟨0x8010002100, 0x10000, 16, 0x40, 1, 0, 0x2800, 1, 0xfffffffffffffffe, 0, some (0x2100, 0x40, 0, 0)⟩
def UPD_JOB_CFG_valid : Fld := ⟨UPD_JOB_CFG, 0, 1⟩
def UPD_JOB_CFG_rmax : Fld := ⟨UPD_JOB_CFG, 1, 8⟩
def UPD_JOB_CFG_wait_ms : Fld := ⟨UPD_JOB_CFG, 9, 10⟩
def UPD_JOB_CFG_root : Fld := ⟨UPD_JOB_CFG, 19, 1⟩
def UPD_JOB_CFG_shard : Fld := ⟨UPD_JOB_CFG, 20, 12⟩
def UPD_JOB_CFG_red_base : Fld := ⟨UPD_JOB_CFG, 32, 20⟩
def UPD_JOB_CFG_shards_m1 : Fld := ⟨UPD_JOB_CFG, 52, 12⟩

/-- UPD_JOB_STEP (Table 13.9, R383). -/
def UPD_JOB_STEP : Reg := ⟨0x8010002108, 0x10000, 16, 0x40, 1, 0, 0, 0xffffffff, 0, 0, none⟩
def UPD_JOB_STEP_txn_step : Fld := ⟨UPD_JOB_STEP, 0, 32⟩
def UPD_JOB_STEP_stale : Fld := ⟨UPD_JOB_STEP, 32, 16⟩

/-- UPD_JOB_RET (Table 13.9, R383). -/
def UPD_JOB_RET : Reg := ⟨0x8010002110, 0x10000, 16, 0x40, 1, 0, 0, 0, 0x3ffffffffffffc0, 0, some (0x2100, 0x40, 0, 0)⟩
def UPD_JOB_RET_copy_off : Fld := ⟨UPD_JOB_RET, 6, 40⟩
def UPD_JOB_RET_group : Fld := ⟨UPD_JOB_RET, 46, 12⟩

/-- UPD_JOB_STAT (Table 13.9, R383). -/
def UPD_JOB_STAT : Reg := ⟨0x8010002118, 0x10000, 16, 0x40, 1, 0, 0, 0, 0, 0, none⟩
def UPD_JOB_STAT_state : Fld := ⟨UPD_JOB_STAT, 0, 4⟩
def UPD_JOB_STAT_committed : Fld := ⟨UPD_JOB_STAT, 4, 1⟩
def UPD_JOB_STAT_reason : Fld := ⟨UPD_JOB_STAT, 16, 16⟩
def UPD_JOB_STAT_units_done : Fld := ⟨UPD_JOB_STAT, 32, 32⟩

/-- UPD_JOB_ROOT (Table 13.9, R383). -/
def UPD_JOB_ROOT : Reg := ⟨0x8010002120, 0x10000, 16, 0x40, 1, 0, 0, 0, 0xffffffffffffffff, 0, some (0x2100, 0x40, 0, 0)⟩
def UPD_JOB_ROOT_root_addr : Fld := ⟨UPD_JOB_ROOT, 0, 64⟩

/-- LNK_CTL (Table 12.12, R354). -/
def LNK_CTL : Reg := ⟨0x8020000000, 0x10000, 1, 0, 1, 0, 0x640000, 1, 0xffff0000, 0, some (0, 0, 0, 0)⟩
def LNK_CTL_en : Fld := ⟨LNK_CTL, 0, 1⟩
def LNK_CTL_state : Fld := ⟨LNK_CTL, 1, 3⟩
def LNK_CTL_retrain_us : Fld := ⟨LNK_CTL, 16, 16⟩
def LNK_CTL_reason : Fld := ⟨LNK_CTL, 32, 16⟩

/-- LNK_STAT (Table 12.13, R354). -/
def LNK_STAT : Reg := ⟨0x8020000008, 0x10000, 1, 0, 1, 0, 0, 0, 0, 0, none⟩
def LNK_STAT_fec_corrected : Fld := ⟨LNK_STAT, 0, 32⟩
def LNK_STAT_fec_uncorrectable : Fld := ⟨LNK_STAT, 32, 16⟩
def LNK_STAT_retrains : Fld := ⟨LNK_STAT, 48, 16⟩

/-- LNK_ERR_CNT (Table 12.14, R354). -/
def LNK_ERR_CNT : Reg := ⟨0x8020000010, 0x10000, 1, 0, 1, 0, 0, 0, 0, 0, none⟩
def LNK_ERR_CNT_crc_fail : Fld := ⟨LNK_ERR_CNT, 0, 32⟩
def LNK_ERR_CNT_replays : Fld := ⟨LNK_ERR_CNT, 32, 32⟩

/-- LNK_DROP_CNT (Table 12.15, R354). -/
def LNK_DROP_CNT : Reg := ⟨0x8020000018, 0x10000, 1, 0, 1, 0, 0, 0, 0, 0, none⟩
def LNK_DROP_CNT_auth : Fld := ⟨LNK_DROP_CNT, 0, 16⟩
def LNK_DROP_CNT_stale : Fld := ⟨LNK_DROP_CNT, 16, 16⟩
def LNK_DROP_CNT_route : Fld := ⟨LNK_DROP_CNT, 32, 16⟩
def LNK_DROP_CNT_malformed : Fld := ⟨LNK_DROP_CNT, 48, 16⟩

/-- LNK_RSV (Table 12.16, R354). -/
def LNK_RSV : Reg := ⟨0x8020000100, 0x10000, 64, 8, 1, 0, 0, 0, 0xffff07, 0, some (0, 0, 0, 0)⟩
def LNK_RSV_valid : Fld := ⟨LNK_RSV, 0, 1⟩
def LNK_RSV_class : Fld := ⟨LNK_RSV, 1, 2⟩
def LNK_RSV_span : Fld := ⟨LNK_RSV, 8, 16⟩

/-- LNK_SLOTS (Table 12.17, R354). -/
def LNK_SLOTS : Reg := ⟨0x8020000400, 0x10000, 16, 8, 1, 0, 0, 0, 0xffffffffffffffff, 0, some (0, 0, 0, 0)⟩

/-- LNK_MODULE (Table 12.18, R354). -/
def LNK_MODULE : Reg := ⟨0x8020002000, 0x10000, 1, 0, 1, 0, 0, 0x10000, 0xfff, 0, some (0x2000, 0, 0, 0x10)⟩
def LNK_MODULE_id : Fld := ⟨LNK_MODULE, 0, 12⟩
def LNK_MODULE_route_en : Fld := ⟨LNK_MODULE, 16, 1⟩
def LNK_MODULE_reason : Fld := ⟨LNK_MODULE, 32, 16⟩

/-- LNK_TIMEOUT (Table 12.19, R354). -/
def LNK_TIMEOUT : Reg := ⟨0x8020002008, 0x10000, 1, 0, 1, 0, 0x3200c8, 0, 0xffffff, 0, some (0x2000, 0, 0, 0x10)⟩
def LNK_TIMEOUT_txn_us : Fld := ⟨LNK_TIMEOUT, 0, 16⟩
def LNK_TIMEOUT_prune_us : Fld := ⟨LNK_TIMEOUT, 16, 8⟩

/-- LNK_INRSV (Table 12.20, R354). -/
def LNK_INRSV : Reg := ⟨0x8020002100, 0x10000, 8, 8, 1, 0, 0, 0xfff3ffff, 0, 0, none⟩
def LNK_INRSV_rate : Fld := ⟨LNK_INRSV, 0, 18⟩
def LNK_INRSV_depth : Fld := ⟨LNK_INRSV, 20, 12⟩

/-- LNK_ROUTE (Table 12.21, R354). -/
def LNK_ROUTE : Reg := ⟨0x8020004000, 0x10000, 1024, 8, 1, 0, 0, 0x1ff01ff01ff01ff, 0, 0, none⟩

/-- LNK_GROUP (Table 12.22, R354). -/
def LNK_GROUP : Reg := ⟨0x8020008000, 0x10000, 4096, 8, 1, 0, 0, 0xffffffffffffffff, 0, 0, none⟩
def LNK_GROUP_links : Fld := ⟨LNK_GROUP, 0, 24⟩
def LNK_GROUP_local : Fld := ⟨LNK_GROUP, 24, 1⟩
def LNK_GROUP_valid : Fld := ⟨LNK_GROUP, 25, 1⟩
def LNK_GROUP_class : Fld := ⟨LNK_GROUP, 26, 2⟩
def LNK_GROUP_root : Fld := ⟨LNK_GROUP, 28, 12⟩
def LNK_GROUP_span : Fld := ⟨LNK_GROUP, 40, 16⟩
def LNK_GROUP_receivers : Fld := ⟨LNK_GROUP, 56, 8⟩

/-- CHN_SQ_DB (Table 14.7, R421). -/
def CHN_SQ_DB : Reg := ⟨0x400000000000, 0x1000, 1, 0, 1, 0, 0, 0, 0, 0, none⟩
def CHN_SQ_DB_tail : Fld := ⟨CHN_SQ_DB, 0, 32⟩

/-- CHN_CQ_DB (Table 14.7, R421). -/
def CHN_CQ_DB : Reg := ⟨0x400000000008, 0x1000, 1, 0, 1, 0, 0, 0, 0, 0, none⟩
def CHN_CQ_DB_head : Fld := ⟨CHN_CQ_DB, 0, 32⟩

/-- CHN_CTL (Table 14.8, R421). -/
def CHN_CTL : Reg := ⟨0x400000000010, 0x1000, 1, 0, 1, 0, 0, 0, 0, 0, none⟩
def CHN_CTL_open : Fld := ⟨CHN_CTL, 0, 1⟩
def CHN_CTL_halted : Fld := ⟨CHN_CTL, 1, 1⟩
def CHN_CTL_manager : Fld := ⟨CHN_CTL, 2, 1⟩
def CHN_CTL_partition : Fld := ⟨CHN_CTL, 4, 4⟩
def CHN_CTL_sq_order : Fld := ⟨CHN_CTL, 8, 4⟩
def CHN_CTL_cq_order : Fld := ⟨CHN_CTL, 12, 4⟩
def CHN_CTL_vector : Fld := ⟨CHN_CTL, 16, 11⟩
def CHN_CTL_irq_en : Fld := ⟨CHN_CTL, 27, 1⟩
def CHN_CTL_pasid : Fld := ⟨CHN_CTL, 32, 20⟩

/-- CHN_SQ_BASE (Table 14.9, R421). -/
def CHN_SQ_BASE : Reg := ⟨0x400000000018, 0x1000, 1, 0, 1, 0, 0, 0, 0, 0, none⟩
def CHN_SQ_BASE_base : Fld := ⟨CHN_SQ_BASE, 12, 45⟩

/-- CHN_CQ_BASE (Table 14.9, R421). -/
def CHN_CQ_BASE : Reg := ⟨0x400000000020, 0x1000, 1, 0, 1, 0, 0, 0, 0, 0, none⟩
def CHN_CQ_BASE_base : Fld := ⟨CHN_CQ_BASE, 12, 45⟩

/-- CHN_SQ_STAT (Table 14.9, R421). -/
def CHN_SQ_STAT : Reg := ⟨0x400000000028, 0x1000, 1, 0, 1, 0, 0, 0, 0, 0, none⟩
def CHN_SQ_STAT_consumed : Fld := ⟨CHN_SQ_STAT, 0, 32⟩
def CHN_SQ_STAT_tail : Fld := ⟨CHN_SQ_STAT, 32, 32⟩

/-- CHN_CQ_STAT (Table 14.9, R421). -/
def CHN_CQ_STAT : Reg := ⟨0x400000000030, 0x1000, 1, 0, 1, 0, 0, 0, 0, 0, none⟩
def CHN_CQ_STAT_posted : Fld := ⟨CHN_CQ_STAT, 0, 32⟩
def CHN_CQ_STAT_head : Fld := ⟨CHN_CQ_STAT, 32, 32⟩

/-- CHN_CNT (Table 14.9, R421). -/
def CHN_CNT : Reg := ⟨0x400000000038, 0x1000, 1, 0, 1, 0, 0, 0, 0, 0, none⟩
def CHN_CNT_torn : Fld := ⟨CHN_CNT, 0, 16⟩
def CHN_CNT_dup : Fld := ⟨CHN_CNT, 16, 16⟩
def CHN_CNT_bad_db : Fld := ⟨CHN_CNT, 32, 16⟩
def CHN_CNT_malformed : Fld := ⟨CHN_CNT, 48, 16⟩

/-- CHN_REASON (Table 14.9, R421). -/
def CHN_REASON : Reg := ⟨0x400000000040, 0x1000, 1, 0, 1, 0, 0, 0, 0, 0, none⟩
def CHN_REASON_reason : Fld := ⟨CHN_REASON, 0, 16⟩
def CHN_REASON_buffers : Fld := ⟨CHN_REASON, 16, 17⟩

/-- PCI_LINK_STAT (Table 14.10, R421). -/
def PCI_LINK_STAT : Reg := ⟨0x400000700000, 0, 1, 0, 1, 0, 0, 0, 0, 0, none⟩
def PCI_LINK_STAT_speed : Fld := ⟨PCI_LINK_STAT, 0, 4⟩
def PCI_LINK_STAT_width : Fld := ⟨PCI_LINK_STAT, 4, 6⟩
def PCI_LINK_STAT_degraded : Fld := ⟨PCI_LINK_STAT, 10, 1⟩
def PCI_LINK_STAT_up : Fld := ⟨PCI_LINK_STAT, 11, 1⟩
def PCI_LINK_STAT_retrains : Fld := ⟨PCI_LINK_STAT, 16, 16⟩

/-- PCI_ERR_CNT (Table 14.10, R421). -/
def PCI_ERR_CNT : Reg := ⟨0x400000700008, 0, 1, 0, 1, 0, 0, 0, 0, 0, none⟩
def PCI_ERR_CNT_cpl_timeout : Fld := ⟨PCI_ERR_CNT, 0, 16⟩
def PCI_ERR_CNT_ur_ca : Fld := ⟨PCI_ERR_CNT, 16, 16⟩
def PCI_ERR_CNT_poisoned_in : Fld := ⟨PCI_ERR_CNT, 32, 16⟩
def PCI_ERR_CNT_ign_write : Fld := ⟨PCI_ERR_CNT, 48, 16⟩

/-- PCI_DROP_CNT (Table 14.10, R421). -/
def PCI_DROP_CNT : Reg := ⟨0x400000700010, 0, 1, 0, 1, 0, 0, 0, 0, 0, none⟩
def PCI_DROP_CNT_stale_gen : Fld := ⟨PCI_DROP_CNT, 0, 32⟩
def PCI_DROP_CNT_bar2_miss : Fld := ⟨PCI_DROP_CNT, 32, 32⟩

/-- PCI_POOL (Table 14.10, R421). -/
def PCI_POOL : Reg := ⟨0x400000700018, 0, 1, 0, 1, 0, 0x10000, 0, 0, 0, none⟩
def PCI_POOL_free : Fld := ⟨PCI_POOL, 0, 17⟩

/-- PCI_REG_WIN (Table 14.10, R421). -/
def PCI_REG_WIN : Reg := ⟨0x400000700020, 0, 1, 0, 1, 0, 0, 0x3fff, 0, 0, none⟩
def PCI_REG_WIN_block : Fld := ⟨PCI_REG_WIN, 0, 14⟩

/-- PCI_CHRATE (Table 14.10, R421). -/
def PCI_CHRATE : Reg := ⟨0x400000700100, 0, 17, 8, 1, 0, 0, 0, 0, 0, none⟩
def PCI_CHRATE_rate : Fld := ⟨PCI_CHRATE, 0, 18⟩
def PCI_CHRATE_depth : Fld := ⟨PCI_CHRATE, 20, 12⟩
def PCI_CHRATE_quota : Fld := ⟨PCI_CHRATE, 32, 17⟩

/-- MBX_DB (Table 15.2, R424). -/
def MBX_DB : Reg := ⟨0x400000402000, 0x10000, 1, 0, 1, 0, 0, 0, 0, 0, none⟩
def MBX_DB_seq : Fld := ⟨MBX_DB, 0, 16⟩

/-- MBX_STAT (Table 15.2, R424). -/
def MBX_STAT : Reg := ⟨0x400000402008, 0x10000, 1, 0, 1, 0, 0, 0, 0, 0, none⟩
def MBX_STAT_state : Fld := ⟨MBX_STAT, 0, 2⟩
def MBX_STAT_accepted : Fld := ⟨MBX_STAT, 16, 16⟩
def MBX_STAT_responded : Fld := ⟨MBX_STAT, 32, 16⟩
def MBX_STAT_ignored : Fld := ⟨MBX_STAT, 48, 16⟩

/-- MBX_IRQ (Table 15.2, R424). -/
def MBX_IRQ : Reg := ⟨0x400000402010, 0x10000, 1, 0, 1, 0, 0, 0xfff, 0, 0, none⟩
def MBX_IRQ_vector : Fld := ⟨MBX_IRQ, 0, 11⟩
def MBX_IRQ_en : Fld := ⟨MBX_IRQ, 11, 1⟩

/-- PRT_CROFT (Table 16.11, R479). -/
def PRT_CROFT : Reg := ⟨0x8030040000, 0, 16, 8, 1, 0, 0, 0xffffff1f, 0, 0, none⟩
def PRT_CROFT_assigned : Fld := ⟨PRT_CROFT, 0, 1⟩
def PRT_CROFT_partition : Fld := ⟨PRT_CROFT, 1, 4⟩
def PRT_CROFT_gen : Fld := ⟨PRT_CROFT, 8, 8⟩
def PRT_CROFT_span : Fld := ⟨PRT_CROFT, 16, 16⟩

/-- PRT_PART_CTL (Table 16.12, R479). -/
def PRT_PART_CTL : Reg := ⟨0x8030040100, 0, 16, 0x40, 1, 0, 0, 0xffffff07, 0, 0, none⟩
def PRT_PART_CTL_state : Fld := ⟨PRT_PART_CTL, 0, 3⟩
def PRT_PART_CTL_gen : Fld := ⟨PRT_PART_CTL, 8, 8⟩
def PRT_PART_CTL_crofts : Fld := ⟨PRT_PART_CTL, 16, 16⟩
def PRT_PART_CTL_reason : Fld := ⟨PRT_PART_CTL, 32, 16⟩

/-- PRT_PART_PASID (Table 16.13, R479). -/
def PRT_PART_PASID : Reg := ⟨0x8030040108, 0, 16, 0x40, 4, 8, 0, 0x1fffff001fffff, 0, 0, none⟩
def PRT_PART_PASID_pasid_0 : Fld := ⟨PRT_PART_PASID, 0, 20⟩
def PRT_PART_PASID_valid_0 : Fld := ⟨PRT_PART_PASID, 20, 1⟩
def PRT_PART_PASID_pasid_1 : Fld := ⟨PRT_PART_PASID, 32, 20⟩
def PRT_PART_PASID_valid_1 : Fld := ⟨PRT_PART_PASID, 52, 1⟩

/-- PRT_DIRTY_BASE (Table 16.14, R479). -/
def PRT_DIRTY_BASE : Reg := ⟨0x8030040128, 0, 16, 0x40, 1, 0, 0, 0, 0x1fffffffffff000, 0, some (0x130, 0x40, 0, 0)⟩
def PRT_DIRTY_BASE_base : Fld := ⟨PRT_DIRTY_BASE, 12, 45⟩

/-- PRT_DIRTY_CTL (Table 16.14, R479). -/
def PRT_DIRTY_CTL : Reg := ⟨0x8030040130, 0, 16, 0x40, 1, 0, 8, 1, 0xfffff00, 0x10, some (0x130, 0x40, 0, 0)⟩
def PRT_DIRTY_CTL_en : Fld := ⟨PRT_DIRTY_CTL, 0, 1⟩
def PRT_DIRTY_CTL_sel : Fld := ⟨PRT_DIRTY_CTL, 1, 1⟩
def PRT_DIRTY_CTL_switch : Fld := ⟨PRT_DIRTY_CTL, 2, 1⟩
def PRT_DIRTY_CTL_done : Fld := ⟨PRT_DIRTY_CTL, 3, 1⟩
def PRT_DIRTY_CTL_overflow : Fld := ⟨PRT_DIRTY_CTL, 4, 1⟩
def PRT_DIRTY_CTL_pasid : Fld := ⟨PRT_DIRTY_CTL, 8, 20⟩
def PRT_DIRTY_CTL_reason : Fld := ⟨PRT_DIRTY_CTL, 32, 16⟩

/-- PRT_DIRTY_RANGE (Table 16.14, R479). -/
def PRT_DIRTY_RANGE : Reg := ⟨0x8030040138, 0, 16, 0x40, 1, 0, 0, 0, 0xffffffff, 0, some (0x130, 0x40, 0, 0)⟩
def PRT_DIRTY_RANGE_pages : Fld := ⟨PRT_DIRTY_RANGE, 0, 32⟩

/-- PRT_CORESUM (Table 16.15, R479). -/
def PRT_CORESUM : Reg := ⟨0x8030040600, 0, 16, 8, 1, 0, 0, 0, 0, 0, none⟩
def PRT_CORESUM_active : Fld := ⟨PRT_CORESUM, 0, 7⟩
def PRT_CORESUM_yielded : Fld := ⟨PRT_CORESUM, 8, 7⟩
def PRT_CORESUM_halted : Fld := ⟨PRT_CORESUM, 16, 7⟩
def PRT_CORESUM_returning : Fld := ⟨PRT_CORESUM, 24, 7⟩

/-- PRT_STALE (Table 16.15, R479). -/
def PRT_STALE : Reg := ⟨0x8030040680, 0, 16, 8, 1, 0, 0, 0, 0, 0, none⟩
def PRT_STALE_discarded : Fld := ⟨PRT_STALE, 0, 32⟩

/-- SEC_STAT (Table 17.15, R506). -/
def SEC_STAT : Reg := ⟨0x8030050000, 0, 1, 0, 1, 0, 0x100, 0, 0, 0, none⟩
def SEC_STAT_stage : Fld := ⟨SEC_STAT, 0, 2⟩
def SEC_STAT_copies : Fld := ⟨SEC_STAT, 2, 3⟩
def SEC_STAT_lifecycle : Fld := ⟨SEC_STAT, 8, 8⟩
def SEC_STAT_reason : Fld := ⟨SEC_STAT, 16, 16⟩
def SEC_STAT_sessions : Fld := ⟨SEC_STAT, 32, 16⟩
def SEC_STAT_pending : Fld := ⟨SEC_STAT, 48, 16⟩

/-- SEC_HBMKEY (Table 17.16, R506). -/
def SEC_HBMKEY : Reg := ⟨0x8030050100, 0, 16, 8, 1, 0, 0, 0, 0, 0, none⟩
def SEC_HBMKEY_epoch : Fld := ⟨SEC_HBMKEY, 0, 32⟩
def SEC_HBMKEY_keyed : Fld := ⟨SEC_HBMKEY, 32, 1⟩
def SEC_HBMKEY_busy : Fld := ⟨SEC_HBMKEY, 33, 1⟩
def SEC_HBMKEY_done : Fld := ⟨SEC_HBMKEY, 34, 1⟩

/-- SEC_LNKSLOT (Table 17.17, R506). -/
def SEC_LNKSLOT : Reg := ⟨0x8030051000, 0, 256, 8, 1, 0, 0, 0, 0, 0, none⟩
def SEC_LNKSLOT_loaded : Fld := ⟨SEC_LNKSLOT, 0, 1⟩
def SEC_LNKSLOT_send : Fld := ⟨SEC_LNKSLOT, 1, 1⟩
def SEC_LNKSLOT_span : Fld := ⟨SEC_LNKSLOT, 16, 16⟩
def SEC_LNKSLOT_epoch : Fld := ⟨SEC_LNKSLOT, 32, 32⟩

/-- EVR_CTL (Table 18.9, R529). -/
def EVR_CTL : Reg := ⟨0x8030060000, 0, 1, 0, 1, 0, 1, 0, 0, 0, none⟩
def EVR_CTL_en : Fld := ⟨EVR_CTL, 0, 1⟩
def EVR_CTL_reason : Fld := ⟨EVR_CTL, 16, 16⟩

/-- EVR_STAT (Table 18.9, R529). -/
def EVR_STAT : Reg := ⟨0x8030060008, 0, 1, 0, 1, 0, 0x100000001, 0, 0, 0, none⟩
def EVR_STAT_next_seq : Fld := ⟨EVR_STAT, 0, 32⟩
def EVR_STAT_oldest : Fld := ⟨EVR_STAT, 32, 32⟩

/-- EVR_CNT (Table 18.10, R529). -/
def EVR_CNT : Reg := ⟨0x8030060010, 0, 1, 0, 1, 0, 0, 0, 0, 0, none⟩
def EVR_CNT_overwritten : Fld := ⟨EVR_CNT, 0, 32⟩
def EVR_CNT_suppressed : Fld := ⟨EVR_CNT, 32, 32⟩

/-- EVR_NONCE (Table 18.10, R529). -/
def EVR_NONCE : Reg := ⟨0x8030060018, 0, 1, 0, 1, 0, 0, 0, 0, 0, none⟩
def EVR_NONCE_nonce : Fld := ⟨EVR_NONCE, 0, 64⟩

/-- EVR_KEYID (Table 18.10, R529). -/
def EVR_KEYID : Reg := ⟨0x8030060020, 0, 1, 0, 1, 0, 0, 0, 0, 0, none⟩
def EVR_KEYID_keyid : Fld := ⟨EVR_KEYID, 0, 64⟩

/-- EVR_CODE (Table 18.11, R529). -/
def EVR_CODE : Reg := ⟨0x8030060100, 0, 64, 8, 1, 0, 0, 0, 0, 0, none⟩
def EVR_CODE_code : Fld := ⟨EVR_CODE, 0, 16⟩
def EVR_CODE_valid : Fld := ⟨EVR_CODE, 16, 1⟩
def EVR_CODE_rate : Fld := ⟨EVR_CODE, 24, 8⟩
def EVR_CODE_depth : Fld := ⟨EVR_CODE, 32, 8⟩

/-- EVR_SNAP (Table 18.12, R529). -/
def EVR_SNAP : Reg := ⟨0x8030061000, 0, 256, 0x80, 16, 8, 0, 0xffff3ffffffffffb, 0, 0, none⟩
def EVR_SNAP_valid : Fld := ⟨EVR_SNAP, 0, 1⟩
def EVR_SNAP_absolute : Fld := ⟨EVR_SNAP, 1, 1⟩
def EVR_SNAP_off : Fld := ⟨EVR_SNAP, 3, 43⟩
def EVR_SNAP_code : Fld := ⟨EVR_SNAP, 48, 16⟩

/-- PWR_CTL (Table 19.13, R554). -/
def PWR_CTL : Reg := ⟨0x8030070000, 0, 1, 0, 1, 0, 1, 1, 0, 0, none⟩
def PWR_CTL_en : Fld := ⟨PWR_CTL, 0, 1⟩
def PWR_CTL_reason : Fld := ⟨PWR_CTL, 16, 16⟩

/-- PWR_CAP (Table 19.14, R554). -/
def PWR_CAP : Reg := ⟨0x8030070008, 0, 1, 0, 1, 0, 0x645a005f12c0, 0x1fff, 0xffff007f0000, 0, some (0, 0, 0, 0)⟩
def PWR_CAP_cap_w : Fld := ⟨PWR_CAP, 0, 13⟩
def PWR_CAP_soft_pct : Fld := ⟨PWR_CAP, 16, 7⟩
def PWR_CAP_t_soft : Fld := ⟨PWR_CAP, 32, 8⟩
def PWR_CAP_t_hard : Fld := ⟨PWR_CAP, 40, 8⟩

/-- PWR_MEAS (Table 19.15, R554). -/
def PWR_MEAS : Reg := ⟨0x8030070010, 0, 1, 0, 1, 0, 0, 0, 0, 0, none⟩
def PWR_MEAS_vin_mv : Fld := ⟨PWR_MEAS, 0, 16⟩
def PWR_MEAS_iin : Fld := ⟨PWR_MEAS, 16, 16⟩
def PWR_MEAS_pavg_w : Fld := ⟨PWR_MEAS, 32, 13⟩

/-- PWR_TEMP (Table 19.16, R554). -/
def PWR_TEMP : Reg := ⟨0x8030070018, 0, 1, 0, 1, 0, 0, 0, 0, 0, none⟩
def PWR_TEMP_die_max : Fld := ⟨PWR_TEMP, 0, 8⟩
def PWR_TEMP_hbm_max : Fld := ⟨PWR_TEMP, 8, 8⟩
def PWR_TEMP_inlet : Fld := ⟨PWR_TEMP, 16, 8⟩
def PWR_TEMP_outlet : Fld := ⟨PWR_TEMP, 24, 8⟩
def PWR_TEMP_die_id : Fld := ⟨PWR_TEMP, 32, 4⟩

/-- PWR_HOLD (Table 19.17, R554). -/
def PWR_HOLD : Reg := ⟨0x8030070020, 0, 1, 0, 1, 0, 0, 0, 0, 0, none⟩
def PWR_HOLD_be_held : Fld := ⟨PWR_HOLD, 0, 1⟩
def PWR_HOLD_lc_held : Fld := ⟨PWR_HOLD, 1, 1⟩
def PWR_HOLD_delays : Fld := ⟨PWR_HOLD, 16, 16⟩
def PWR_HOLD_delay_us : Fld := ⟨PWR_HOLD, 32, 32⟩

/-- PWR_STATE (Table 19.18, R554). -/
def PWR_STATE : Reg := ⟨0x8030070028, 0, 1, 0, 1, 0, 0, 0, 0, 0, none⟩
def PWR_STATE_standby : Fld := ⟨PWR_STATE, 0, 1⟩
def PWR_STATE_croft_idle : Fld := ⟨PWR_STATE, 16, 16⟩
def PWR_STATE_cause : Fld := ⟨PWR_STATE, 32, 8⟩

/-- Every register of the spec's tables that a write can name, by block. -/
def regsPart0 : List Reg := [CLU_ID, CLU_ALIAS_CTL, CLU_ALIAS_MAP, CLU_SPAN, CLU_DITHER_SEED, CLU_DITHER_STEP, CLU_CORE_CTL, CLU_CORE_PC, CLU_CORE_SAVE, CLU_IMEM_LOAD, CLU_DRAW_CFG, CLU_PART, CLU_SCRUB, CLU_CLEAR, CLU_BORROW_CFG, CLU_SPILL_BASE, CLU_RETURN, CLU_BSLOT, MEM_ECC_CNT, MEM_ECC_ADDR, MEM_SCRUB_STAT, MEM_BORROW_STAT, MEM_STAMP, ADP_CTL]
def regsPart1 : List Reg := [ADP_STAT, ADP_SR, VEC_CTL, VEC_STAT, VEC_SR, SUM_CTL, SUM_STAT, SUM_SR, CNV_CTL, CNV_STAT, CNV_SR, GTH_CTL, GTH_STAT, VEC_SCALAR, VEC_THRESH, VEC_THRESH_FRAC, VEC_OP, SUM_OP, CNV_OP, GTH_OP, ADP_CFG, ADP_BASE, ADP_CNT, ADP_OP]
def regsPart2 : List Reg := [CTL_SK_CTL, CTL_SKQ_PUSH, CTL_SKQ_STAT, CTL_CQ_POP, CTL_SEM_ADD, CTL_SEM, CTL_DRAW, CTL_KSTAT, CTL_SUMM_TAG, CTL_SUMM_MAX, CTL_SUMM_IDX, CTL_SUMM_SUM, CTL_SUMM_ABOVE, CTL_SUMM_COUNT, MAT_CTL, MAT_STAT, MAT_CTX_CTL, MAT_SR, MAT_PWL_CFG, MAT_STALL, MAT_OPA, MAT_OPB, MAT_OVEC_SCALE, MAT_OVEC_BIAS]
def regsPart3 : List Reg := [MAT_PWL_SEG, STR_CTL, STR_STAT, STR_QCFG, STR_QRATE, STR_QSTAT, STR_QPOS, STR_QADDR, STR_QCMD, STR_QCNT, STR_QACC, HBM_CTL, HBM_PAGE_CMD, HBM_ECC_CNT, HBM_ECC_ADDR, HBM_FAULT_CNT, HBM_PSTATE, UPD_CTL, UPD_TABLE, UPD_CMD, UPD_JOB_CFG, UPD_JOB_STEP, UPD_JOB_RET, UPD_JOB_STAT]
def regsPart4 : List Reg := [UPD_JOB_ROOT, LNK_CTL, LNK_STAT, LNK_ERR_CNT, LNK_DROP_CNT, LNK_RSV, LNK_SLOTS, LNK_MODULE, LNK_TIMEOUT, LNK_INRSV, LNK_ROUTE, LNK_GROUP, CHN_SQ_DB, CHN_CQ_DB, CHN_CTL, CHN_SQ_BASE, CHN_CQ_BASE, CHN_SQ_STAT, CHN_CQ_STAT, CHN_CNT, CHN_REASON, PCI_LINK_STAT, PCI_ERR_CNT, PCI_DROP_CNT]
def regsPart5 : List Reg := [PCI_POOL, PCI_REG_WIN, PCI_CHRATE, MBX_DB, MBX_STAT, MBX_IRQ, PRT_CROFT, PRT_PART_CTL, PRT_PART_PASID, PRT_DIRTY_BASE, PRT_DIRTY_CTL, PRT_DIRTY_RANGE, PRT_CORESUM, PRT_STALE, SEC_STAT, SEC_HBMKEY, SEC_LNKSLOT, EVR_CTL, EVR_STAT, EVR_CNT, EVR_NONCE, EVR_KEYID, EVR_CODE, EVR_SNAP]
def regsPart6 : List Reg := [PWR_CTL, PWR_CAP, PWR_MEAS, PWR_TEMP, PWR_HOLD, PWR_STATE]
def allRegs : List Reg := regsPart0 ++ regsPart1 ++ regsPart2 ++ regsPart3 ++ regsPart4 ++ regsPart5 ++ regsPart6

/-- The units a block is repeated for, by its block distance and base (Tables 2.4 and 14.2). -/
def Reg.units (r : Reg) : Nat :=
  if r.base < 0x8010000000 then 1600 else if r.base < 0x8020000000 then 128 else if r.base < 0x8030000000 then 24
  else if r.unit = 0x1000 then 1024 else if r.unit = 0x10000 then 18 else 1

/-- The (unit, i, j) at which a register lies at an address, if it does. -/
def Reg.find (r : Reg) (a : Nat) : Option (Nat × Nat × Nat) :=
  if a < r.base then none
  else
    let d := a - r.base
    let u := if r.unit = 0 then 0 else d / r.unit
    let d1 := if r.unit = 0 then d else d % r.unit
    let i := if r.s1 = 0 then 0 else if r.s2 ≤ r.s1 then Nat.min (d1 / r.s1) (r.n1 - 1) else 0
    let d2 := d1 - i * r.s1
    let j := if r.s2 = 0 then 0 else Nat.min (d2 / r.s2) (r.n2 - 1)
    if u < r.units ∧ r.addr u i j = a then some (u, i, j) else none

/-- The register at an address, with its unit and repetition indices. -/
def regAt (a : Nat) : Option (Reg × Nat × Nat × Nat) :=
  allRegs.findSome? fun r => (r.find a).map fun x => (r, x)

/-- Reset value of a register: Table 12.16 gives reservation 0 its valid bit, Table 12.17 gives the reset slots. -/
def Reg.reset (r : Reg) (i : Nat) : Nat :=
  if r.base = LNK_RSV.base then (if i = 0 then 1 else 0)
  else if r.base = LNK_SLOTS.base then (if i = 0 then 0xFFFFFFFFFFFF00FE else if i = 8 then 0xFFFFFFFFFFFFFFFE else 0xFFFFFFFFFFFFFFFF)
  else r.rst

end Sys2Proof.Machine
end

