-- ==== Sys2Proof/Config.lean ====
section
/-!
DEFINITION. What one module fixes at manufacture and the values the spec leaves open, as opaque constants: nothing can
prove which value any of them has, so a claim holds for every value. Each is named in the assumption log.
-/
namespace Sys2Proof

/-- A fresh value of the true random generator: the k-th draw since manufacture (R484, R528, R552). (Log 136 DESIGN CHOICE) -/
opaque Config.trng : Nat → Nat

/-- Module serial number, fused (R485). (Log 136 DESIGN CHOICE) -/
opaque Config.serial : Nat

/-- The 32-byte unique secret fused in the module, from which the root of trust derives its keys (R485). (Log 136 DESIGN CHOICE) -/
opaque Config.fusedSecret : List Byte

/-- Bytes 0 to 7 of the digest of the fused clear key, zero when none is fused (R526). (Log 136 DESIGN CHOICE) -/
opaque Config.evrKeyId : Nat

/-- The clear public key fused at manufacture; none when the buyer named none (R526). (Log 136 DESIGN CHOICE) -/
opaque Config.clearKey : Option (List Byte)

/-- The Fykiori public keys in ROM: 0 the firmware key (R483), 1 the debug key (R553). (Log 136 DESIGN CHOICE) -/
opaque Config.fusedKey : Nat → List Byte

/-- SHA-512 of the ROM, fixed at manufacture (R482). (Log 136 DESIGN CHOICE) -/
opaque Config.romDigest : List Byte

/-- The identity certificate, as manufactured (R486). (Log 136 DESIGN CHOICE) -/
opaque Config.idCert : List Byte

/-- The manufacturing certificate, as manufactured (R486). (Log 136 DESIGN CHOICE) -/
opaque Config.mfgCert : List Byte

/-- Does an identity certificate chain to the Fykiori root key, through a manufacturing certificate whose layout the spec does not give. (Log 137 DESIGN CHOICE) -/
opaque Config.chainOk : List Byte → Bool

/-- Ed25519 public key of a private seed. (Log 135 DESIGN CHOICE) -/
opaque Config.edPub : List Byte → List Byte

/-- What a byte of HBM3 reads as before anything was written to it under the current key: by key epoch and offset (R203). (Log 19 DESIGN CHOICE) -/
opaque Config.hbmFree : Nat → Nat → Byte

/-- The check-symbol difference such an unwritten word reads with. (Log 19 DESIGN CHOICE) -/
opaque Config.hbmFreeEcc : Nat → Nat → BitVec 16

/-- Does a read of a word inside a range that is being cleared find it cleared (R185): by offset and a counter. (Log 20 DESIGN CHOICE) -/
opaque Config.clearSeen : Nat → Nat → Bool

/-- Which of two writers of one block in one cycle lands last (R53): by a counter. -/
opaque Config.writeOrder : Nat → Bool

/-- A value the spec leaves open, by the point's number, a counter and two operands. (Log 3 DESIGN CHOICE, 66 DESIGN CHOICE, 76 DESIGN CHOICE, 88 DESIGN CHOICE, 110 DESIGN CHOICE, 126 DEDUCED, 158 DESIGN CHOICE, 186 DESIGN CHOICE, 205 DESIGN CHOICE, 206 DESIGN CHOICE) -/
opaque Config.free : Nat → Nat → Nat → Nat → Nat

/-- Payload of a TELEMETRY response, whose layout the spec does not give: by mailbox and a counter. (Log 114 DESIGN CHOICE) -/
opaque Config.telemetry : Nat → Nat → List Byte

/-- Did an HBM3 channel train at power-on (R227). (Log 149 DEDUCED) -/
opaque Config.trainOk : Nat → Bool

/-- SHA-512 of a byte string. (Log 135 DESIGN CHOICE) -/
opaque Config.sha512 : List Byte → List Byte

/-- Ed25519 verification: public key, message, signature. (Log 135 DESIGN CHOICE) -/
opaque Config.edVerify : List Byte → List Byte → List Byte → Bool

/-- Ed25519 signature: secret, message. (Log 135 DESIGN CHOICE) -/
opaque Config.edSign : List Byte → List Byte → List Byte

/-- X25519: scalar, point. (Log 135 DESIGN CHOICE) -/
opaque Config.x25519 : List Byte → List Byte → List Byte

/-- HKDF: secret, salt, info, length. (Log 135 DESIGN CHOICE) -/
opaque Config.hkdf : List Byte → List Byte → List Byte → Nat → List Byte

/-- AES-256-GCM sealing: key, nonce, additional data, plaintext; ciphertext and tag. (Log 135 DESIGN CHOICE) -/
opaque Config.gcmSeal : List Byte → List Byte → List Byte → List Byte → List Byte × List Byte

/-- AES-256-GCM opening: key, nonce, additional data, ciphertext, tag; the plaintext when the tag verifies. (Log 135 DESIGN CHOICE) -/
opaque Config.gcmOpen : List Byte → List Byte → List Byte → List Byte → List Byte → Option (List Byte)

/-- Firmware images in the boot flash as manufactured: copy and stage. (Log 136 DESIGN CHOICE) -/
opaque Config.flashImage : Nat → Nat → List Byte

/-- Place of a trained parameter's weight (R285): position in the job's adapter list and byte in that adapter's plaintext, none for a
parameter that no adapter holds; the compiler lays it out, and no message gives it. (Log 189 DESIGN CHOICE) -/
opaque Config.paramPlace : List Byte → Nat → Option (Nat × Nat)

/-- Register of the host interface (offset in BAR0) that stands at an offset of the I/O die's register blocks; the map gives the blocks but
not the places in them. (Log 180 DESIGN CHOICE) -/
opaque Config.ioPlace : Nat → Option Nat

end Sys2Proof
end

