-- ==== Sys2Proof/Machine/Types.lean ====
section
/-!
DEFINITION. The plain data types of a cluster's parts: tiles, skeins, stations, the control core, the stream queues, and
the requests that travel between blocks.
-/
namespace Sys2Proof.Machine

/-- A tile on a port, with its tag (R56, R57, Table 3.2) and, in ply-4, its companion exponent tile. -/
structure Tile where
  fmt : Nat
  mask : Nat
  idx : Nat
  last : Bool
  poison : Bool
  data : List Byte
  comp : List Byte
  deriving DecidableEq, Repr

/-- One of the two accumulator buffers of a matrix station (R88, R95): its elements as ACC40 bit patterns (row-major,
none listed: zero), the live map of logical rows, and its poison flag. Whether it is free, accumulating, draining or held
stands in MAT_STAT. -/
structure AccBuf where
  acc : Tab Nat
  live : Nat
  poison : Bool
  deriving DecidableEq, Repr

/-- What a matrix station keeps between skeins (R88, R96, R115, R117): the two buffers, the mul, feed and group of the op that holds
a buffer, and the buffer that its next accumulation uses. (Log 160 DESIGN CHOICE) -/
structure MatStn where
  b0 : AccBuf
  b1 : AccBuf
  heldMul : Nat
  heldFeed : Nat
  heldGroup : Nat
  next : Nat              -- buffer of the next accumulation: the other of the last one's
  deriving DecidableEq, Repr

/-- The progress of a skein through a matrix station (R87 to R104). -/
structure MatRun where
  opA : Nat
  opB : Nat
  sets : List Tile        -- stationary tiles loaded in register sets and not finished with, oldest first (R91)
  used : Nat              -- passes or accumulations the oldest set has served
  passTiles : Nat         -- moving tiles (ply-4 pairs) taken in the current pass
  pair : Option Tile      -- first tile of a ply-4 pair
  passes : Nat            -- passes of the current accumulation
  accs : Nat              -- accumulations begun
  drained : Nat           -- accumulations drained
  cur : Option Nat        -- buffer accumulating now
  draining : List Nat     -- buffers waiting to drain, oldest first
  go : Bool               -- the oldest of them has had its drain time: its tiles leave as the output stage has room (R95)
  part : Nat              -- its tiles built so far
  stopped : Bool          -- no accumulation begins any more: the skein has ended at a mismatch of its counts (R104)
  seq : List Tile         -- moving tiles of slide mode that are still read
  seqBase : Nat           -- index of the first of them
  half : Option Tile      -- 8-bit output tile with rows 0 to 3 filled (R110)
  kept : Option Tile      -- completed output tile held back under R115
  deriving DecidableEq, Repr

/-- The progress of a skein through one stage (R66, and the station's own chapter). -/
structure Stage where
  stn : Nat               -- station code (Table 3.3)
  port : Nat              -- input port of the main input
  op : Nat                -- op index
  p0 : List Tile          -- tiles of port 0 that the station has not consumed, oldest first
  p1 : List Tile          -- tiles of port 1 that the station has not consumed
  occ0 : Nat              -- slots of port 0 whose credit has not returned (R66)
  occ1 : Nat              -- slots of port 1 whose credit has not returned
  p1n : Nat               -- port-1 tiles taken
  p1end : Bool            -- the port-1 tile tagged last has been taken
  n : Nat                 -- main tiles taken
  blk : Nat               -- blocks, groups or units formed
  grp : List Tile         -- tiles collected for the next block or group
  idx : List Nat          -- indices taken from port 1 and not used (GTH, ADP)
  acc : List Nat          -- running values (prefix, partial reductions), ACC40 bit patterns
  accP : List Bool        -- poison of each running value; in a scatter, of each index waiting (R70)
  res : List Nat          -- reduction results waiting to fill an output block
  resP : List Bool        -- poison of each of them
  outq : List Tile        -- emitted tiles waiting for a credit of the next port or for the sink
  emitted : Nat           -- tiles emitted
  inEnd : Bool            -- the main tile tagged last has been taken
  mat : Option MatRun
  deriving DecidableEq, Repr

/-- The summary record of Table 6.2 while VEC forms it, values as ACC40 bit patterns. -/
structure Summ where
  max : Nat
  nan : Bool
  argmax : Nat
  sum : Nat
  nonfinite : Nat
  cross : Nat
  above : Nat
  sumAbove : Nat
  live : Nat
  poisoned : Bool
  deriving DecidableEq, Repr

/-- A running skein (R71 to R77). -/
structure Skein where
  no : Nat                -- push number
  w : List Nat            -- the eight words of the descriptor
  seed : Nat              -- CLU_DITHER_SEED, _STEP, VEC_SCALAR, VEC_THRESH, VEC_THRESH_FRAC and STR_QACC as sampled at start
  step : Nat
  scalar : Nat
  thresh : Nat
  frac : Nat
  qacc : Nat
  stages : List Stage
  srcIss : Nat            -- source tiles issued
  srcArr : Nat            -- source tiles entered into the port
  sideIss : Nat
  sideArr : Nat
  srcLocal : Bool         -- served by the local operand path (R60), decided at push
  sideLocal : Bool
  dstLocal : Bool
  sinkN : Nat             -- tiles the sink took
  tilesOut : Nat          -- of those, the tiles of which it wrote or sent anything (Table 3.13)
  sinkOut : Nat           -- sink transfers not yet acknowledged
  late : Bool
  starving : List (Nat × Nat)   -- ports that are starved now: stage and port
  poisoned : Bool
  cancelled : Bool
  reason : Nat
  closing : Bool          -- a matrix station has ended it: it feeds nothing more, and what is complete is still emitted (R104)
  ended : Bool            -- it feeds and emits nothing more
  held : Bool             -- it has completed but the completion queue was full (R75)
  summ : Option Summ
  deriving DecidableEq, Repr

/-- A descriptor in the launch queue. -/
structure Launch where
  no : Nat
  w : List Nat
  srcLocal : Bool
  sideLocal : Bool
  dstLocal : Bool
  deriving DecidableEq, Repr

/-- A completion entry (Table 3.13). -/
structure CqEntry where
  id : Nat
  reason : Nat
  late : Bool
  poisoned : Bool
  cancelled : Bool
  tiles : Nat
  deriving DecidableEq, Repr

/-- What the control core waits for. -/
inductive CoreWait where
  | none
  | wsem (sem n : Nat)
  | fence
  | kend
  | saving                -- the yield's save-area writes are not yet acknowledged (R169)
  deriving DecidableEq, Repr

/-- A load issued and not returned (R167). -/
structure Load where
  id : Nat
  d : Nat
  addr : Nat              -- as issued
  size : Nat
  dropped : Bool          -- the core was stopped; the load's data is dropped (R170)
  deriving DecidableEq, Repr

/-- A store not yet acknowledged (R167): its number and its address as issued. -/
structure Store where
  id : Nat
  addr : Nat
  deriving DecidableEq, Repr

/-- The control core of a cluster (R166 to R171). -/
structure Core where
  g : Tab Word            -- g1 to g31; g0 reads as zero
  pc : Nat
  imem : Tab Word         -- instruction words by index, 0 to 4,095
  marks : Tab Bool        -- poisoned 16-byte words of the instruction store (R561)
  copying : Bool          -- an instruction copy is in progress
  loads : List Load
  stores : List Store
  nextId : Nat
  wait : CoreWait
  deriving DecidableEq, Repr

/-- The skein engine of a cluster (R65 to R80). -/
structure Engine where
  launch : List Launch
  slots : List Skein      -- running skeins, in start order
  cq : List CqEntry
  pushNo : Nat
  stopped : Bool
  disabling : Bool
  starve : Nat
  heldQ : List Nat        -- push numbers of the skeins held for a full completion queue, in the order they finished (R75)
  deriving DecidableEq, Repr

/-- A transfer of a stream queue (R211). -/
structure Xfer where
  id : Nat
  tile : Nat              -- tile index within the stream
  write : Option Tile
  n : Nat                 -- blocks
  done : List (Nat × List Byte × Bool)   -- blocks answered: number, data, poison
  bad : Nat               -- blocks refused
  dropped : Bool          -- issued before a halt or a cancel; dropped when it arrives
  redo : Option Nat       -- a sink's tile to be written again after a halt: from this block on (R219)
  deriving DecidableEq, Repr

/-- A stream queue (R211 to R224); its configuration, saved position and counts stand in its registers. -/
structure StrQ where
  bound : Option Nat      -- push number of the skein that holds it
  role : Nat              -- 0 source, 1 side operand, 2 sink
  tokens : Nat            -- token bucket in 1/65,536 of a block, as of `stamp`
  stamp : Nat             -- memory cycle of `tokens`
  next : Nat              -- next tile index to issue
  xfers : List Xfer
  nextId : Nat
  halted : Bool
  haltAt : Nat            -- tick of the halt
  retrying : Bool         -- a retry is outstanding
  prs : Bool              -- a Page Request awaits its response
  deriving DecidableEq, Repr

/-- A return or refill in progress (R196). -/
structure RetCmd where
  no : Nat                -- its number: answers to the writes of an earlier, halted one are not its own
  refill : Bool
  left : List (Nat × Nat) -- slots whose line is being copied, with the blocks not yet answered
  halted : Bool
  deriving DecidableEq, Repr

/-- One entry of the adapter station's entry memory (R259). -/
structure AdpEntry where
  home : Nat
  copy : Nat
  rank : Nat
  flags : Nat
  scale : Nat
  tag : Nat
  deriving DecidableEq, Repr

/-- A cluster, but for its registers and memory. -/
structure Cluster where
  core : Core
  eng : Engine
  mats : Tab MatStn
  cache : Tab Byte        -- VEC operand cache, 64 KiB (R149)
  cachePoison : Tab Bool  -- poison flag of each KiB (R150)
  adp : Tab AdpEntry      -- ADP entry memory
  adpPend : List (Nat × Nat × Nat)   -- tiles of ADP half-records to be read: queue, run's first row, address
  adpBuf : List (Nat × List Byte × Bool × Nat)   -- half-records in the ADP weight buffer: first row, bytes so far, poison, tiles due
  strq : Tab StrQ         -- by 32 × unit + queue
  rr : List Nat           -- round-robin pointers of STR0 and STR1
  ret : Option RetCmd
  pasid : Option Nat      -- PASID bound to the context (R48)
  writeback : List Nat    -- 16-byte words the scrubber has read and not yet written back (R184)
  faulted : Nat           -- reason of the context's fault, 0 for none
  inst : Option Nat       -- handle of the bale instance that runs here
  clr : Option (Nat × Nat)   -- a clear that is busy: first granule and count (R185)
  lateWr : List Nat       -- 16-byte words written into the range of the busy clear
  cls : Nat               -- class of the core's scalar accesses: that of its instance's priority class (R333, R455)
  deriving DecidableEq, Repr

/-- Who asked for an access, so that its answer finds its way back. -/
inductive Who where
  | str (c u q id blk : Nat)
  | retry (c u q : Nat)
  | load (c id : Nat)
  | store (c id : Nat)
  | adp (c key : Nat)
  | spill (c no slot blk : Nat)
  | chan (ch slot : Nat)
  | ref (ch cseq i : Nat)
  | dirty (p word : Nat)
  | cpl (ch qseq : Nat)
  | pull (die stream seq : Nat)
  | shard (die n : Nat)
  | aselo (n : Nat)
  | repair (p a : Nat)
  | fix (h home ch pos : Nat)
  deriving DecidableEq, Repr

/-- What an access does. -/
inductive MOp where
  | read (len : Nat)
  | write (data : List Byte) (be : Nat) (poison : Bool)   -- byte enables as a mask of len bits
  | accum (opfield : Nat) (data : List Byte) (poison : Bool)
  | mcast (data : List Byte) (poison : Bool)
  deriving DecidableEq, Repr

/-- A request in a channel's queue (R207). -/
structure HReq where
  who : Who
  cls : Nat
  addr : Nat
  op : MOp
  part : Nat              -- partition, 16 for the module's own
  gen : Nat
  stamp : Nat             -- tick at which it entered the queue (R207)
  deriving DecidableEq, Repr

/-- The answer to an access: reason 0 is success. -/
structure Reply where
  data : List Byte
  poison : Bool
  reason : Nat
  deriving DecidableEq, Repr

/-- An event on its way to the recorder, and in the recorder's queue and ring (R518, Table 18.4). -/
structure Event where
  code : Nat
  reason : Nat
  part : Nat              -- 0 to 15, or 0xFF
  gen : Nat
  src : Nat               -- kind of the unit: 2 cluster, 6 HBM3 channel, 7 link, 8 command channel (R518, R523)
  unit : Nat
  sub : Nat
  tag : Nat               -- bytes 32 to 33 of the entry
  span : Nat
  oseq : Nat
  stream : Nat
  tflags : Nat
  detail : Nat            -- the 16 bytes of detail as one little-endian number
  tick : Nat              -- local tick at intake
  suppressed : Nat        -- events of the code suppressed since its previous written entry
  snaps : Option (List Nat)   -- snapshot values, once read (R523)
  inc : Nat               -- incarnation at intake
  deriving DecidableEq, Repr

/-- The event recorder (R518 to R529); next_seq, oldest and the counts stand in its registers. -/
structure Recorder where
  raised : List Event            -- raised, not yet taken by the intake
  queue : List Event             -- the intake queue
  ring : List (Nat × Event)      -- sequence number and event; oldest first
  buckets : Tab Nat              -- missing tokens of an event code's bucket (R519)
  suppressed : Tab Nat           -- suppressed count of an event code
  draws : Nat                    -- which draw of the generator EVR_NONCE shows
  aselo : List (Nat × Nat × Nat) -- notices of 0x05F1 and 0x06F1 to Aselo: code, unit, detail (R519)
  deriving DecidableEq, Repr

end Sys2Proof.Machine
end

