-- ==== Sys2Proof/Machine/TypesLink.lean ====
section
/-!
DEFINITION. The plain data types of the Lokel fabric and of the host attachment: flits, messages, streams, multicast, key
slots; translations, host reads and queued TLPs, command channels.
-/
namespace Sys2Proof.Machine

open Sys2Proof

/-! ### Lokel -/

/-- A flit of a message (R316): type, class, header bits [127:40], data words with their poison, reservation, resends. -/
structure Flit where
  ftype : Nat
  cls : Nat
  hdr : Nat
  words : List (List Byte × Bool)
  rsv : Nat
  lseq : Nat
  resent : Nat
  ok : Bool               -- the header's reserved bits are zero (R6, R338)
  deriving DecidableEq, Repr

/-- A message put together at a link's receive buffer (R335): class, header bits [127:40], words, the reservation whose
buffer it holds, its flits, and how many of its blocks have been performed (R341). -/
structure RxMsg where
  cls : Nat
  hdr : Nat
  words : List (List Byte × Bool)
  rsv : Nat
  flits : Nat
  okSeq : Bool            -- the sequence of flit types was valid
  passed : Bool           -- it has passed its checks and waits for the inbound regulator
  done : Nat
  cut : Nat               -- flits of it already forwarded (R332), and their way: link, reservation and distance
  way : Nat × Nat × Nat
  deriving DecidableEq, Repr

/-- A link (R313 to R329). -/
structure Link where
  ready : List Flit       -- flits that wait for a credit, for room in the replay buffer or for the end of training
  replay : List Flit      -- sent and not acknowledged, oldest first
  nextSeq : Nat
  ackSeq : Option Nat     -- last lseq accepted from the peer
  nack : Bool             -- replay is asked of the peer
  sent : Tab Nat          -- flits sent in each reservation since the link came up
  peerFreed : Tab Nat     -- flits of each reservation that the peer has reported freed
  freed : Tab Nat         -- flits of each reservation freed here since the link came up
  part : Tab (List Flit)  -- flits of a message that is not complete, by reservation
  rx : List RxMsg         -- complete messages, in the order of arrival
  first : Bool            -- the first training since the enable
  joinDue : List (Nat × Nat)   -- join notices to be sent when the link comes up (R352)
  ctl : List Byte         -- payload of the last control flit sent (R322)
  cuts : Tab (Nat × Nat × Nat × Nat)   -- by reservation, flits forwarded of the message that is not complete, and their way (R332)
  wire : List (List Byte) -- the last flits sent that are not idle, 272 bytes each, oldest first (R316)
  deriving DecidableEq, Repr

/-- A message that a source wants to send. -/
structure Send where
  cls : Nat
  span : Nat
  dst : Nat               -- module, or group for a multicast write
  opcode : Nat
  gen : Nat
  part : Nat              -- sending partition, 16 for Aselo
  addr : Nat
  opf : Nat
  blocks : List (List Byte)
  poison : List Bool      -- poison of each block
  b : Nat                 -- blocks named (a read carries none)
  who : Option Who
  ttag : Option Nat       -- of the request, for a response
  oseq : Option Nat       -- of the request, for a response
  deriving DecidableEq, Repr

/-- A source entry of a stream (R342): destination (4,096 + group for a multicast), span and class as key. -/
structure SrcStream where
  dst : Nat
  span : Nat
  cls : Nat
  next : Nat              -- oseq of the next message
  broken : Bool
  held : List Send        -- messages issued while it is broken and something of it is outstanding (R344)
  deriving DecidableEq, Repr

/-- A target entry of a stream (R343). (Log 99 DEDUCED) -/
structure TgtStream where
  src : Nat
  dst : Nat               -- the own module, or 4,096 + group for a multicast
  span : Nat
  cls : Nat
  expect : Nat
  gen : Nat
  broken : Bool
  ackDue : Option Nat     -- highest oseq performed and not yet acknowledged to the source
  ackTtag : Nat
  ackDie : Nat            -- I/O die of the croft that the newest performed message named, and its address
  ackAddr : Nat
  deriving DecidableEq, Repr

/-- A request message outstanding at its source (R351). -/
structure Out where
  ttag : Nat
  who : Option Who
  dst : Nat
  span : Nat
  cls : Nat
  oseq : Nat
  opcode : Nat
  gen : Nat
  part : Nat
  addr : Nat
  b : Nat
  deriving DecidableEq, Repr

/-- A multicast stream at its root (R346 to R350). -/
structure McRoot where
  id : Nat                -- stream identifier
  ttag : Nat
  group : Nat
  cls : Nat
  span : Nat
  gen : Nat
  part : Nat
  origin : Option (Nat × Nat)   -- cluster and push number of the skein; none for an engine stream
  chan : Nat              -- channel of a return stream; 128 for a base distribution
  job : Nat
  w4 : Nat                -- words 4 and 5 of the descriptor, or the fields of Table 13.6
  w5 : Nat
  ready : List (Nat × List Byte × Bool)   -- blocks formed and not sent: landing offset, bytes, poison
  sent : Nat              -- blocks sent
  final : Option Nat      -- count of blocks, once the last is formed
  marks : List (Nat × Nat × Who)   -- transfers: acknowledged once every receiver has this count of blocks; their own blocks
  acks : List (Nat × Nat) -- acknowledged mseq of the unpruned receivers, the root included
  pruned : List (Nat × Bool)   -- pruned receivers, and whether their pull is done
  landed : Nat            -- blocks landed at the root
  ended : Bool            -- the end notices have been sent (R349)
  code : Nat              -- 0x0725 or 0x0742 of a receiver lost to an engine stream (R376)
  deriving DecidableEq, Repr

/-- A multicast stream at a receiver (R347, R349). -/
structure McRecv where
  root : Nat
  id : Nat
  group : Nat
  cls : Nat
  span : Nat
  gen : Nat
  landed : Nat            -- acknowledged mseq
  acked : Nat             -- last acknowledged mseq sent to the root
  buf : List (Nat × Nat × List Byte × Bool)   -- blocks in the landing buffer: mseq, offset, bytes, poison
  pruned : Bool
  w4 : Nat
  w5 : Nat
  final : Option Nat
  pulled : Nat            -- next mseq to be pulled
  got : Nat               -- next pulled mseq to be written
  ackDie : Nat            -- I/O die of the croft in which the newest message landed, its ttag and its oseq (R330, R342)
  ackTtag : Nat
  ackSeq : Nat
  deriving DecidableEq, Repr

/-- The die-wide Lokel state of an I/O die. (Log 162 DEDUCED) -/
structure LokDie where
  src : List SrcStream
  tgt : List TgtStream
  outs : List Out
  nextTtag : Nat
  mctr : Tab Nat          -- nonce counter of each key slot (R337)
  roots : List McRoot
  recvs : List McRecv
  inTok : Tab Nat         -- inbound regulator of each croft, missing tokens in 1/65,536 block
  inStamp : Tab Nat       -- memory cycle of the count
  heard : List (Who × Event)   -- tag of the message that failed an access of a core, for the event its fault raises (R524)
  deriving DecidableEq, Repr

/-- A key slot (R494, R495). -/
structure KeySlot where
  key : List Byte
  span : Nat
  epoch : Nat
  send : Bool
  made : Bool             -- created on this module
  exported : List Nat     -- serial numbers of the modules it was exported to
  deriving DecidableEq, Repr

/-! ### PCI Express -/

/-- What a host access does. -/
inductive HostOp where
  | read (len : Nat)
  | write (data : List Byte) (be : Nat) (relaxed : Bool)
  deriving DecidableEq, Repr

/-- A host access that waits for a translation. -/
structure HostAcc where
  who : Who
  part : Nat
  gen : Nat
  pasid : Nat
  iova : Nat
  op : HostOp
  deriving DecidableEq, Repr

/-- A read to host memory, queued or outstanding (R390). -/
structure HostRead where
  id : Nat
  acc : HostAcc
  deriving DecidableEq, Repr

/-- A TLP in the endpoint's queue. -/
inductive TxKind where
  | data                  -- a logged write: stream data, output reference, completion body
  | seqWord (ch qseq : Nat)
  | bitmap
  | bitmapWait (p word bit : Nat)   -- a bitmap write whose word is still being read
  | msix (vec : Nat)
  | pageReq (id : Nat)
  | invDone
  deriving DecidableEq, Repr

/-- An entry of the endpoint's queue (R216, R421, R464). -/
structure Tx where
  id : Nat
  kind : TxKind
  acc : HostAcc
  half : Nat              -- bitmap half that covers it; 2 when its partition does not log
  deriving DecidableEq, Repr

/-- A Page Request that awaits its response (R221). -/
structure PageReq where
  id : Nat
  who : Who
  pasid : Nat
  page : Nat
  wr : Bool
  dropped : Bool
  acc : Option HostAcc    -- the access of a command's reference, issued again on Success
  deriving DecidableEq, Repr

/-- An invalidation that awaits accesses (R389): host reads and queued writes by number. -/
structure Inval where
  reads : List Nat
  txs : List Nat
  deriving DecidableEq, Repr

/-- The endpoint. -/
structure Pcie where
  ats : Bool              -- ATS is enabled by the host
  pasidEn : Bool          -- PASID Enable is set in configuration space
  retraining : Bool
  perst : Bool
  atc : List (Nat × Nat × Bool × Bool)   -- translations, oldest first: PASID, page, read, write (R386)
  asked : List (Nat × Nat)               -- Translation Requests outstanding
  waits : List HostAcc
  prs : List PageReq
  prWait : List PageReq   -- halted accesses that wait for Page Request capacity (R221)
  reads : List HostRead
  tx : List Tx
  nextId : Nat
  invs : List Inval
  invSent : Nat           -- Invalidation Completions sent
  dirty : List (Nat × Nat × Nat)   -- word cache of the dirty bitmaps: partition, word, value; oldest first (R464)
  pba : Nat               -- MSI-X pending bits
  tok : Tab Nat           -- tokens missing from a partition's channel bucket, in 1/65,536 block (R401)
  tokAt : Tab Nat         -- memory cycle of that count
  deriving DecidableEq, Repr

/-! ### Command channels -/

/-- A completion of a command (Table 14.5). -/
structure Cpl where
  client : Nat
  cseq : Nat
  reason : Nat
  final : Bool
  repost : Bool
  torn : Bool
  result : Nat
  outLen : Nat
  irq : Bool              -- the command asked for an interrupt
  frees : Nat             -- command buffers that return once its sequence word is transmitted (R408)
  deriving DecidableEq, Repr

/-- An accepted command that has not posted its final completion. -/
structure Cmd where
  cseq : Nat
  opcode : Nat
  flags : Nat
  length : Nat
  client : Nat
  payload : List Byte     -- bytes 16 to 111 of the slot
  object : Nat
  handed : Bool           -- handed to its service (R409)
  taken : Bool            -- its service has begun to act on it
  asked : Nat             -- pieces of its input references whose read has been issued
  got : List (Nat × List Byte)   -- pieces of its input references that have been read, by piece number
  dups : List (Nat × Bool)   -- cseq and irq of the duplicates attached to it (R416)
  deriving DecidableEq, Repr

/-- A slot of a channel that is being read (R405, R406). -/
structure SlotRd where
  cseq : Nat
  reads : Nat             -- results of the sequence word that were not current
  again : Nat             -- re-reads issued
  current : Bool          -- a read returned the slot's own sequence number
  body : Bool             -- the body read has been issued
  deriving DecidableEq, Repr

/-- A command channel; its counters stand in its CHN_ registers. -/
structure HChan where
  slots : List SlotRd
  cmds : List Cmd
  window : List (Nat × Option Cpl)   -- client identifiers of the last commands and their finals, oldest first (R415)
  nextQ : Nat             -- qseq of the next completion to be made
  wait : List Cpl         -- completions that wait for room
  seqOut : List (Nat × Cpl)   -- sequence words sent and not acknowledged
  closing : Option Nat    -- mailbox whose CHAN_CLOSE is under way (Table 14.15)
  winSlot : Nat           -- its duplicate window (R457)
  outs : List HostAcc     -- writes of output references that wait for tokens (R401)
  deriving DecidableEq, Repr

end Sys2Proof.Machine
end

