-- ==== Sys2Proof/Machine/TypesSys.lean ====
section
/-!
DEFINITION. The plain data types of the home channels' update path and of Aselo, the root of trust and the power controller.
-/
namespace Sys2Proof.Machine

open Sys2Proof

/-! ### The update path -/

/-- A shard value staged at the norm root (R367): index, binary32 bits, reply address. -/
structure Shard where
  index : Nat
  value : Nat
  reply : Nat
  deriving DecidableEq, Repr

/-- What a home channel keeps of a job entry beside its registers and its records in memory (R291, R366, R367). -/
structure UpdEnt where
  next : Nat            -- position of the unit that the engine takes next
  recd : List Byte       -- record and step block as read when the update began; empty before
  c : Option Nat        -- clip factor received, binary32 bits
  sent : Bool           -- the shard message has been sent
  exported : Nat        -- units exported (kind 0x05)
  apply : Bool          -- the apply phase is on (kind 0x05)
  skipped : Nat         -- elements that the guard skipped in the attempt
  handed : List Nat     -- positions handed over to the return and not yet taken by it
  shards : List Shard   -- the root's shard table
  streaming : Bool      -- the return stream of the attempt has been started
  normed : Nat          -- units whose terms the shard sum holds (fused_clip)
  norm : Nat            -- shard sum of the attempt, binary32 bits
  deriving DecidableEq, Repr

/-! ### Mailboxes, partitions and pools -/

/-- A mailbox beside its registers (R424 to R429). -/
structure MbxSt where
  req : List Byte       -- the request as copied at its acceptance
  rsp : List Byte       -- the response prepared, or the last one posted
  stage : Nat           -- 0 no request, 1 accepted, 2 being carried out, 3 response prepared
  deriving DecidableEq, Repr

/-- A bale-signing key of a partition (R232). -/
structure BaleKey where
  part : Nat
  id : Nat
  key : List Byte
  deriving DecidableEq, Repr

/-- What Aselo keeps of a partition (Table 16.2) beside the PRT_ registers. (Log 66 DESIGN CHOICE) -/
structure PartInfo where
  payload : List Byte   -- the applied payload of Table 16.2; empty while the partition does not exist
  be : Option Nat       -- best-effort instance that was resumed last and has not yielded on every core
  yielding : Bool       -- yields have been requested of it
  lastBe : Nat          -- handle of the best-effort instance that ran last (R468)
  since : Nat           -- 1 + the tick at which the last serving step completed; 0 for none (R469)
  lcHeld : Nat          -- tick after the one at which the issue of its step began to be delayed (R536), zero for none
  beHeld : Nat          -- the same for the resume of best-effort work
  gapEnd : Nat          -- tick at which the reprogramming of stations ends: no step or kernel starts before it (R245)
  deriving DecidableEq, Repr

/-- A loaded (or loading) bale instance (R239 to R246, R477). -/
structure Inst where
  handle : Nat
  part : Nat
  cls : Nat             -- 1 latency-critical, 2 best-effort
  baleId : Nat
  digest : List Byte    -- the bale digest
  bale : List Byte
  pasid : Nat
  base : Nat            -- tag of the base version it references, zero for none
  box : Nat             -- mailbox that awaits the load's response
  loaded : Bool         -- phase 2 is complete
  ran : Bool            -- its cores have been started once
  done : Bool           -- a best-effort instance whose cores have all halted: it has no work (R468)
  setup : Bool          -- its setup entries wait for a gap (R245)
  hold : Nat            -- its reservation: 0 checked only, 1 being claimed (R241), 2 in effect
  fault : Nat           -- reason of a fault that tears it down while it holds no cluster, zero for none
  swOn : List (Nat × Nat)   -- what its load has switched on: cluster, and STR unit or 2 for the skein engine (R243)
  saved : List (Nat × Nat × Nat × Nat)   -- cluster, dither seed, dither step and draw configuration kept at a yield (R473)
  lent : List (Nat × Nat × Nat × Bool)   -- lines lent to it: cluster, slot, line, spilled dirty (R475)
  deriving DecidableEq, Repr

/-- A base version of a partition (R277 to R279, R377 to R381). -/
structure Ver where
  part : Nat
  tag : Nat
  gran : Nat            -- base_granule
  g : Nat               -- granules per cluster
  h : Nat               -- adp_h
  c : Nat               -- adp_c
  shard : Nat
  shards : Nat
  baseDigest : List Byte
  shardDigest : List Byte
  listOk : Bool         -- the digest list matches (R381)
  state : Nat           -- 0 filling, 1 resident, 2 retired (evictable)
  succeeds : Nat
  group : Nat
  source : Bool
  ch : Nat              -- the BASE_LOAD that awaits its completion
  cseq : Nat
  data : List Byte      -- tile data as read (source) or nothing
  drained : Bool        -- its drain deadline, set by its successor's load, is running
  due : Bool            -- the deadline has passed: it retires at the next boundary
  seen : Nat            -- at a receiver: 1 when its pull is complete, 2 when its source or its pull is lost
  olds : List (Nat × Nat)   -- streams of the group that were there before the load: root and identifier
  deriving DecidableEq, Repr

/-- A residency contract (R271, R272). -/
structure Contract where
  handle : Nat
  part : Nat
  owner : Nat
  base : Nat
  pins : Nat
  rankMax : Nat
  grans : List Nat      -- its granules, the same in every cluster
  deriving DecidableEq, Repr

/-- A directory record (Table 10.9). -/
structure Rec where
  part : Nat
  owner : Nat
  base : Nat
  rank : Nat
  state : Nat           -- 0 importing, 1 ready, 2 removing
  home : Nat            -- in KiB units
  copy : Option (Nat × Nat)   -- first granule, and state: 0 filling, 1 resident, 2 draining, 3 filling and marked draining
  copyNo : Nat          -- number of the last copy made
  drainN : Nat          -- leases that hold the draining copy (R191)
  olds : List (Nat × Nat × Nat)   -- places of copies moved or made again, not free yet: first granule, number of the copy, leases that
                        -- hold it; with none, it is named by a step's table and free at the next boundary (R192)
  h : Nat               -- H and C of its base version (R255)
  c : Nat
  contract : Option Nat
  unpin : Bool          -- an unpin waits for its last lease (R272)
  leases : Nat
  digest : List Byte
  keyId : List Byte
  key : List Byte       -- the adapter key (kept wrapped under the storage key, R501)
  policy : List (List Byte)
  baseDigest : List Byte   -- base_digest of its base version (Table 17.12)
  seals : Nat           -- seals made under the key (R503)
  deriving DecidableEq, Repr

/-! ### Serving -/

/-- A serving request (R436 to R444). -/
structure SReq where
  ch : Nat
  cseq : Nat
  base : Nat
  slot : Nat
  gen : Nat
  cls : Nat
  maxNew : Nat
  stop : Nat
  temp : Nat
  topP : Nat
  topK : Nat
  seed : Nat
  prompt : List Nat
  out : List Nat        -- tokens posted
  fed : Nat             -- tokens already in its KV
  seat : Nat            -- sequence slot while it runs
  chunks : List Nat
  leased : Bool
  spare : Nat           -- its lease does not hold the copies up to this number: they were draining when it was granted (R191)
  fail : Nat            -- reason with which it leaves at the next boundary
  cancels : List Nat    -- cseq of the CANCEL commands that name it
  order : Nat           -- order of its join
  deriving DecidableEq, Repr

/-- A row of a step: sequence slot and new tokens. -/
abbrev Row := Nat × Nat

/-- The serving loop of a partition (R434 to R443). -/
structure Loop where
  part : Nat
  inst : Nat
  seed : Nat
  maxRows : Nat
  maxTokens : Nat
  chunks : Nat
  kvBase : Nat
  kvTok : Nat
  step : Nat            -- number of the step prepared or running
  tag : Nat             -- version it serves
  phase : Nat           -- 0 nothing prepared, 1 prepared (order 7 done), 2 pending, 3 running
  rows : List Row
  run : List SReq       -- running sequences
  queue : List SReq     -- waiting requests, in order of arrival (a suspended one first)
  joins : Nat
  started : Nat         -- tick at which the step became pending
  begun : Nat           -- tick at which the step started
  stopBox : Option Nat  -- mailbox of the SERVE_STOP that waits for the boundary
  adapters : List Nat   -- directory slots in the step's table
  starve0 : Nat         -- starvation counts of the clusters' engines when the step started (R441)
  deriving DecidableEq, Repr

/-! ### Tuning -/

/-- An EXAMPLES command in progress: channel, cseq, and the micro-batch that holds its last record. -/
abbrev ExCmd := Nat × Nat × Nat

/-- A checkpoint asked for: channel, cseq and committed count. -/
abbrev CkCmd := Nat × Nat × Nat

/-- A return whose pull failed (R376): home module and channel, landing offset and units of the copy, the unit that is read next, and
whether its read is under way. -/
structure Fix where
  home : Nat
  chan : Nat
  copyOff : Nat
  units : Nat
  pos : Nat
  asked : Bool
  deriving DecidableEq, Repr

/-- A tuning job (R445 to R448). An ended job keeps its handle. -/
structure Job where
  handle : Nat
  part : Nat
  payload : List Byte   -- bytes 0 to 255 of Table 15.17
  mods : List Nat       -- module table
  adapters : List (Nat × Nat)
  txn : Nat             -- attempt, on the root and on homes and replicas
  committed : Nat
  last : Nat            -- attempt of the last committed update, zero for none (R376)
  running : Bool        -- an attempt is under way
  batches : List (List Nat)   -- micro-batches packed: word stream of each (token count, loss position, tokens, per record)
  used : Nat            -- micro-batches consumed by committed steps
  fill : Nat            -- tokens in the last micro-batch; mb_tokens closes it
  examples : List ExCmd
  checks : List CkCmd
  acks : List Nat       -- participants that have acked the void clean (R372)
  voided : Nat          -- reason of the void of the attempt, zero for none (R370)
  returned : List (Nat × Nat)   -- returned notices held: home module and attempt (R376)
  skipped : Nat         -- guarded elements of the step (R295)
  ended : Nat           -- reason with which it ended
  stop : Bool           -- a JOB_STOP waits for the step boundary
  acking : Bool         -- a clean ack of a void waits for the module's accumulates of the attempt (R371)
  kernel : Bool         -- the update kernel of the attempt has been started (R300)
  fixes : List Fix      -- copies to be repaired before the next attempt (R376)
  deriving DecidableEq, Repr

/-- A hot-set block whose peer read is under way (R514): its partition and offset, the module asked, and the request's sequence number. -/
structure Repair where
  part : Nat
  addr : Nat
  peer : Nat
  oseq : Nat
  deriving DecidableEq, Repr

/-- Aselo's own state: partitions, instances, versions, contracts, directory, loops and jobs. -/
structure Aselo where
  up : Bool             -- Aselo runs (order 6 of Table 19.8)
  gens : Tab Nat        -- generation last given to each partition number (R455)
  parts : Tab PartInfo
  keys : List BaleKey
  insts : List Inst     -- in load order
  vers : List Ver       -- oldest first
  contracts : List Contract
  dir : Tab Rec
  dirGen : Tab Nat      -- generation of each directory slot
  removals : List (Nat × Nat × List Nat)   -- ADAPTER_REMOVE commands under way: channel, cseq, slots named (Table 10.11)
  loops : List Loop
  jobs : List Job
  repairs : List Repair   -- peer reads of hot-set repairs under way
  nextHandle : Nat
  deriving DecidableEq, Repr

/-! ### The root of trust -/

/-- A seal session (R498). -/
structure Session where
  id : Nat
  part : Nat
  key : List Byte
  last : Nat            -- highest delivery counter used
  deriving DecidableEq, Repr

/-- A pending adapter key (R499). -/
structure PendKey where
  part : Nat
  keyId : List Byte
  owner : Nat
  key : List Byte
  policy : List (List Byte)
  deriving DecidableEq, Repr

/-- The root of trust (R482 to R507). -/
structure Rot where
  draws : Nat           -- draws of the true random generator so far
  digests : List (List Byte)   -- body digest of stages 1 to 3 that booted
  nonce : Nat           -- draw that gave the boot nonce (R495)
  storage : Nat         -- draw that gave the storage key
  epoch : Nat           -- last HBM3 key epoch (R491); kept by no reset but counted from power-on
  sessions : List Session
  pend : List PendKey
  report : List Byte    -- the last report
  counter : Nat         -- reports signed since boot
  flash : Tab (List Byte)   -- boot flash images written since manufacture, by 4 × copy + stage
  svnMin : Tab Nat      -- fused minimum svn of stages 1 to 3
  unlocked : Bool       -- lifecycle debug-unlocked until power-on (R487)
  deriving DecidableEq, Repr

/-! ### Power, SMBus, test access -/

/-- The power controller and the management pins beside the PWR_ registers. -/
structure Power where
  samples : List Nat    -- last 1,024 samples of input power, oldest first
  off : Bool            -- the input is below the lockout: every rail is off
  tripped : Bool
  tripSeen : Bool       -- a trip has happened since the last read of STATUS
  alert : Bool          -- SMBALERT# asserted
  therm : Bool          -- THERMTRIP# asserted
  pwrok : Bool
  degraded : Bool       -- the input lies in the degraded range
  smb : Option Nat      -- data of the last SMBus read; none when the target did not answer
  deriving DecidableEq, Repr

/-- The test access port (R552, R553). -/
structure Tap where
  ir : Nat
  dr : Nat              -- what the selected data register shifts out
  chain : Nat           -- preloaded boundary chain
  drive : Bool          -- the boundary chain drives the pins
  challenge : Option Nat   -- challenge that an UNLOCK may still answer
  deriving DecidableEq, Repr

/-- The resume record's region in BAR0 (Tables 14.11, 14.12): cause, tick, and the entries that are not zero. -/
structure Resume where
  cause : Nat
  inc : Nat
  tick : Nat
  chans : Tab (Nat × Nat × Nat × Nat × Nat)   -- consumed, posted, head, flags, partition
  deriving DecidableEq, Repr

end Sys2Proof.Machine
end

