-- ==== Sys2Proof/Machine/State.lean ====
section
/-!
DEFINITION. The state of the module: plain data, everything the spec names. Registers stand in one table under their
module-local offset (an unlisted register holds its reset value), memory bytes in one table under their module-local offset.
-/
namespace Sys2Proof.Machine

open Sys2Proof

/-- The reasons a step could stop with. No modelled command stops: the type is kept for the interface. (Log 6 DESIGN CHOICE) -/
inductive Fault where
  /-- Raised by nothing in this model; it would be safe (the machine would stop where the hardware goes on). -/
  | stuck
  deriving DecidableEq, Repr

/-- The reasons a command could be refused by the model. (Log 6 DESIGN CHOICE) -/
inductive Refusal where
  /-- Raised by a dispatch arm of a command that has no meaning yet, by its mnemonic; safe. -/
  | notModelled (mnemonic : String)
  deriving DecidableEq, Repr

/-- The state of the module. -/
structure State where
  regs : Tab Word               -- registers by module-local offset (Table 2.4), BAR0-only ones by 2^46 + BAR0 offset
  mem : List Host.Cell          -- bytes of Common, Hayloft and HBM3 by module-local offset (R33)
  ecc : Tab (BitVec 16)         -- check-symbol differences of 16-byte words (R179), by the word's offset
  clu : Tab Cluster             -- clusters by index
  hbmq : List HReq              -- requests waiting at the HBM3 channels, oldest first (R207)
  patrol : Tab Nat              -- patrol position of each channel (R206)
  replies : List (Who × Reply)  -- answers on their way to their requesters
  epochs : Tab Nat              -- key epoch of each croft's channels, 0 for none (R491)
  evr : Recorder
  links : Tab Link              -- Lokel links by number
  lok : Tab LokDie              -- die-wide Lokel state by I/O die
  keys : Tab KeySlot            -- loaded key slots (R494); both I/O dies hold the same keys
  left : List Nat               -- modules that have left and not rejoined (R352)
  notices : List (Nat × Nat × Nat)   -- leave (0) and join (1) notices received: module, incarnation (R352)
  pcie : Pcie
  bar0 : Tab Byte               -- host-writable memory of BAR0: mailbox requests, responses and buffers, the MSI-X table
  chans : Tab HChan             -- command channels
  upd : Tab UpdEnt              -- job entries of the home channels, by 16 × channel + entry
  redIn : List (Nat × List Byte)   -- reduction-control messages of the module to itself: module-local offset, block
  relays : List (Nat × List Byte)  -- Aselo relays handed to Aselo: source module, contents (R559)
  rr : Tab Nat                  -- channel served last in the round robin of each owner's intake (R408), by partition, 16 the manager
  hostOut : List Byte × Bool    -- data of the last BAR2 read and its EP bit (R395)
  resetDue : Nat                -- module reset under way: 0 none, 1 link loss, 2 warm (R418, R544)
  resume : Resume
  incarnation : Nat             -- module resets since power-on
  mbx : Tab MbxSt               -- mailboxes
  sys : Aselo
  rot : Rot
  pwr : Power
  tap : Tap
  tick : Nat                    -- local ticks since power-on
  opens : Nat                   -- the model's own counter of free choices
  pending : List Instr
  deriving DecidableEq, Repr

/-- A core after reset. (Log 15 DESIGN CHOICE) -/
def Core.init : Core := ⟨[], 0, [], [], false, [], [], 0, .none⟩

/-- A skein engine after reset. -/
def Engine.init : Engine := ⟨[], [], [], 0, false, false, 0, []⟩

/-- An empty accumulator buffer. -/
def AccBuf.init : AccBuf := ⟨[], 0, false⟩

/-- A matrix station after reset. (Log 16 DESIGN CHOICE) -/
def MatStn.init : MatStn := ⟨AccBuf.init, AccBuf.init, 0, 0, 0, 0⟩

/-- A stream queue after reset. -/
def StrQ.init : StrQ := ⟨none, 0, 0, 0, 0, [], 0, false, 0, false, false⟩

/-- A cluster after reset. (Log 16 DESIGN CHOICE) -/
def Cluster.init : Cluster := ⟨Core.init, Engine.init, [], [], [], [], [], [], [], [0, 0], none, none, [], 0, none, none, [], 3⟩

/-- The recorder after power-on. -/
def Recorder.init : Recorder := ⟨[], [], [], [], [], 0, []⟩

/-- A link after reset. -/
def Link.init : Link := ⟨[], [], 0, none, false, [], [], [], [], [], false, [], [], [], []⟩

/-- The Lokel state of an I/O die after reset. -/
def LokDie.init : LokDie := ⟨[], [], [], 0, [], [], [], [], [], []⟩

/-- The endpoint after reset (ATS and PASID are taken as enabled by the host). (Log 53 DESIGN CHOICE) -/
def Pcie.init : Pcie := ⟨true, true, false, false, [], [], [], [], [], [], [], 0, [], 0, [], 0, [], []⟩

/-- A channel that was never opened. -/
def HChan.init : HChan := ⟨[], [], [], 0, [], [], none, 0, []⟩

/-- A job entry after reset. -/
def UpdEnt.init : UpdEnt := ⟨0, [], none, false, 0, false, 0, [], [], false, 0, 0⟩

/-- A mailbox after reset. -/
def MbxSt.init : MbxSt := ⟨[], [], 0⟩

/-- A partition that does not exist. -/
def PartInfo.init : PartInfo := ⟨[], none, false, 0, 0, 0, 0, 0⟩

/-- Aselo before it runs. (Log 17 DESIGN CHOICE, 133 DEDUCED) -/
def Aselo.init : Aselo := ⟨false, [], [], [], [], [], [], [], [], [], [], [], [], 1⟩

/-- The root of trust after power-on. (Log 17 DESIGN CHOICE) -/
def Rot.init : Rot := ⟨0, [], 0, 0, 0, [], [], [], 0, [], [], false⟩

/-- The power controller after power-on: the rails are up and PWROK is high (order 3 of Table 19.8). -/
def Power.init : Power := ⟨[], false, false, false, false, false, true, false, none⟩

/-- The test access port after test reset: IDCODE is selected. -/
def Tap.init : Tap := ⟨0x01, 0x1C401A0B, 0, false, none⟩

/-- The module right after reset. (Log 3 DESIGN CHOICE, 17 DESIGN CHOICE, 147 DESIGN CHOICE) -/
def State.reset : State :=
  { regs := [], mem := [], ecc := [], clu := [], hbmq := [], patrol := [], replies := [], epochs := [],
    evr := Recorder.init, links := [], lok := [], keys := [], left := [], notices := [], pcie := Pcie.init, bar0 := [],
    chans := [], upd := [], redIn := [], relays := [], rr := [], hostOut := ([], false),
    resetDue := 0, resume := ⟨0, 0, 0, []⟩, incarnation := 0, mbx := [], sys := Aselo.init, rot := Rot.init, pwr := Power.init, tap := Tap.init,
    tick := 0, opens := 0, pending := [] }

end Sys2Proof.Machine
end

