-- ==== Sys2Proof/Machine/Ops.lean ====
section
/-!
DEFINITION. The named operations over the register file, the units, the event recorder's inputs and the memory, which every
meaning uses.
-/
namespace Sys2Proof.Machine

open Sys2Proof

/-! ### Registers -/

/-- Raw value of a register (R7): the reset value when nothing has written it. (Log 8 DEDUCED) -/
def State.rreg (s : State) (r : Reg) (u : Nat) (i : Nat := 0) (j : Nat := 0) : Nat :=
  (tget (BitVec.ofNat 64 (r.reset i)) s.regs (r.addr u i j)).toNat

/-- Write a register whole. (Log 8 DEDUCED) -/
def State.wreg (s : State) (r : Reg) (u i j v : Nat) : State :=
  { s with regs := tset (BitVec.ofNat 64 (r.reset i)) s.regs (r.addr u i j) (BitVec.ofNat 64 v) }

/-- Read a register field. -/
def State.get (s : State) (f : Fld) (u : Nat) (i : Nat := 0) (j : Nat := 0) : Nat := nfld (s.rreg f.reg u i j) f.lo f.w

/-- Write a register field. -/
def State.put (s : State) (f : Fld) (u v : Nat) (i : Nat := 0) (j : Nat := 0) : State :=
  s.wreg f.reg u i j (nput (s.rreg f.reg u i j) f.lo f.w v)

/-- Add to a counter field, saturating at its width. -/
def State.bump (s : State) (f : Fld) (u : Nat) (i : Nat := 0) (j : Nat := 0) (by_ : Nat := 1) : State :=
  s.put f u (satAdd f.w (s.get f u i j) by_) i j

/-- Add to a counter field, wrapping at its width. -/
def State.wrapUp (s : State) (f : Fld) (u : Nat) (i : Nat := 0) (j : Nat := 0) : State :=
  s.put f u (s.get f u i j + 1) i j

/-- Is the enable that locks a register's RWL fields set (Table 0.5). -/
def State.lockedReg (s : State) (r : Reg) (u i j : Nat) : Bool :=
  match r.lock with
  | none => false
  | some (off, s1, s2, bit) =>
    let a := r.base - r.base % 0x10000 + off + u * r.unit + i * s1 + j * s2
    match tfind s.regs a with
    | some v => nbit v.toNat bit
    | none => off == 0x60 && r.base / 0x10000 == 0x800000 && bit == 0 || r.base == PWR_CAP.base

/-- A write to a register with the Access column's effects (R7): RW bits stored, RWL bits stored while unlocked, W1C bits
cleared where a 1 is written; RO, WO and reserved bits unchanged (R6). `mask` selects the bits of the access's bytes. -/
def State.accessWrite (s : State) (r : Reg) (u i j v mask : Nat) : State :=
  let old := s.rreg r u i j
  let wr := (r.rw ||| (if s.lockedReg r u i j then 0 else r.rwl)) &&& mask
  let clr := r.w1c &&& v &&& mask
  let kept := old - (old &&& (wr ||| clr))
  s.wreg r u i j (kept ||| (v &&& wr))

/-- Bits of a 4- or 8-byte access at an offset within its 8-byte register. -/
def accessMask (off size : Nat) : Nat :=
  if size = 8 then 2 ^ 64 - 1 else if off % 8 = 4 then (2 ^ 32 - 1) * 2 ^ 32 else 2 ^ 32 - 1

/-- Apply a write's plain fields (R247: the checks see every field as it stands after the write). -/
def State.plain (s : State) (r : Reg) (u i j : Nat) (v : Word) : State :=
  s.accessWrite r u i j v.toNat (2 ^ 64 - 1)

/-- The plain fields of a write but for the enable bit, which the checks decide (R247). -/
def State.plainBut (s : State) (en : Fld) (u i j : Nat) (v : Word) : State :=
  let keep := (2 ^ en.w - 1) * 2 ^ en.lo
  s.accessWrite en.reg u i j v.toNat (2 ^ 64 - 1 - keep)

/-- First failing check of a table of checks: (holds, code) in table order; 0 when all hold. -/
def firstFail : List (Bool × Nat) → Nat
  | [] => 0
  | c :: t => if c.1 then firstFail t else c.2

/-- Writing 1 to an enable bit (R247): nothing when it already reads 1; else the other fields of the write apply, the checks
run on what stands then, and either en reads 1 (the reason unchanged) or en stays 0 and the reason is the first failure. (Log 11 DEDUCED) -/
def State.enable (s : State) (en reason : Fld) (u i j : Nat) (v : Word) (checks : State → List (Bool × Nat)) : State :=
  if s.get en u i j = 1 then s.plainBut en u i j v
  else
    let s1 := s.plainBut en u i j v
    let code := firstFail (checks s1)
    if code = 0 then s1.put en u 1 i j else s1.put reason u code i j

/-- Does an enable write succeed: what the block does on success is done only then. (Log 11 DEDUCED) -/
def State.enables (s : State) (en : Fld) (u i j : Nat) (v : Word) (checks : State → List (Bool × Nat)) : Bool :=
  s.get en u i j == 0 && firstFail (checks (s.plainBut en u i j v)) == 0

/-! ### Units -/

/-- A cluster. -/
def State.cl (s : State) (c : Nat) : Cluster := tget Cluster.init s.clu c

/-- Replace a cluster. -/
def State.setCl (s : State) (c : Nat) (x : Cluster) : State := { s with clu := tset Cluster.init s.clu c x }

/-- Change a cluster. -/
def State.modCl (s : State) (c : Nat) (f : Cluster → Cluster) : State := s.setCl c (f (s.cl c))

/-- Change a cluster's control core. -/
def State.modCore (s : State) (c : Nat) (f : Core → Core) : State := s.modCl c fun x => { x with core := f x.core }

/-- Change a cluster's skein engine. -/
def State.modEng (s : State) (c : Nat) (f : Engine → Engine) : State := s.modCl c fun x => { x with eng := f x.eng }

/-- Change a stream queue. -/
def State.modQ (s : State) (c k : Nat) (f : StrQ → StrQ) : State :=
  s.modCl c fun x => { x with strq := tmod StrQ.init x.strq k f }

/-- A stream queue, by 32 × unit + queue. -/
def State.q (s : State) (c k : Nat) : StrQ := tget StrQ.init (s.cl c).strq k

/-- A general register of a core; g0 reads zero (R166). -/
def State.greg (s : State) (c i : Nat) : Word := if i = 0 then 0 else tget 0 (s.cl c).core.g i

/-- Write a general register; a write to g0 is discarded. -/
def State.setG (s : State) (c i : Nat) (v : Word) : State :=
  if i = 0 then s else s.modCore c fun k => { k with g := tset 0 k.g i v }

/-! ### Positions (R16, R17) -/

/-- Die, column and row of a cluster. -/
def cluDie (c : Nat) : Nat := c / 400
def cluY (c : Nat) : Nat := c % 400 / 20
def cluX (c : Nat) : Nat := c % 20
/-- Croft of a cluster (R16). -/
def cluCroft (c : Nat) : Nat := 4 * cluDie c + 2 * b2n (10 ≤ cluY c) + b2n (10 ≤ cluX c)
/-- Clusters of a croft, in index order. -/
def croftClus (k : Nat) : List Nat := (List.range 1600).filter fun c => cluCroft c == k
/-- Physical cluster of local index i of a croft (R41). -/
def croftClu (k i : Nat) : Nat :=
  400 * (k / 4) + 20 * (10 * (k % 4 / 2) + i / 10) + (10 * (k % 2) + i % 10)
/-- Local index of a cluster within its croft (R41). -/
def cluLocal (c : Nat) : Nat := 10 * (cluY c % 10) + cluX c % 10

/-! ### The module-local map (Table 2.2) -/

/-- First offset above the on-chip windows. -/
def onchipTop : Nat := 0x320000000
/-- First offset of HBM3 and the first above it. -/
def hbmBase : Nat := 0x1000000000
def hbmTop : Nat := 0x4000000000
/-- HBM3 bytes of a croft. -/
def croftBytes : Nat := 0x300000000
/-- First offset of the registers and the first above them. -/
def regBase : Nat := 0x8000000000
def regTop : Nat := 0x8030200000

/-- Is an offset in a mapped on-chip granule (Table 2.3). -/
def isOnchip (a : Nat) : Bool := decide (a < onchipTop) && decide (a % 0x800000 < 0x780000)
/-- Is an offset in HBM3. -/
def isHbm (a : Nat) : Bool := decide (hbmBase ≤ a) && decide (a < hbmTop)
/-- Is an offset in a register block of Table 2.4. -/
def isReg (a : Nat) : Bool :=
  decide (regBase ≤ a) && (decide (a < 0x8006400000) || (decide (0x8010000000 ≤ a) && decide (a < 0x8010800000)) ||
    (decide (0x8020000000 ≤ a) && decide (a < 0x8020180000)) || (decide (0x8030000000 ≤ a) && decide (a < regTop)))
/-- Croft of an HBM3 offset. -/
def hbmCroft (a : Nat) : Nat := (a - hbmBase) / croftBytes
/-- Channel of an HBM3 offset (R36). -/
def hbmChan (a : Nat) : Nat := 8 * hbmCroft a + (((a - hbmBase) % croftBytes) >>> 11) % 8
/-- Byte within the channel (R36). -/
def hbmChAddr (a : Nat) : Nat := let o := (a - hbmBase) % croftBytes; (o >>> 14) * 2 ^ 11 + o % 2 ^ 11
/-- Page of an HBM3 offset within its croft (R36). -/
def hbmPage (a : Nat) : Nat := ((a - hbmBase) % croftBytes) >>> 21
/-- Module-local offset of a channel's byte (the inverse of R36). -/
def chanOffset (ch ca : Nat) : Nat :=
  hbmBase + (ch / 8) * croftBytes + (ca >>> 11) * 2 ^ 14 + (ch % 8) * 2 ^ 11 + ca % 2 ^ 11
/-- Presence state of an HBM3 page of the channel that holds an offset: 0 present, 1 absent, 2 moving (R37). -/
def State.pageState (s : State) (a : Nat) : Nat :=
  let p := hbmPage a
  nfld (s.rreg HBM_PSTATE (hbmChan a) (p / 32)) (2 * (p % 32)) 2

/-- Croft that holds an on-chip or HBM3 offset. -/
def memCroft (a : Nat) : Nat := if a < onchipTop then cluCroft (a / 0x800000) else hbmCroft a

/-! ### Events (R518, R521) -/

/-- Local tick [51:20], the unit of stamps (R187). -/
def State.stampNow (s : State) : Nat := nfld s.tick 20 32

/-- Kind of the unit that raises an event of a code, unless a cluster does: the units of chapters 8, 11, 12 and 14 are HBM3 channels, links
and command channels. (Log 142 DEDUCED) -/
def unitKind (code : Nat) : Nat :=
  if code / 256 = 6 ∨ code / 256 = 7 ∨ code / 256 = 8 then code / 256 else if code / 256 = 0x0C then 6 else if code / 256 = 9 then 7 else 2

/-- An event without tag. -/
def Event.plain (code reason part gen unit sub detail : Nat) : Event :=
  ⟨code, reason, part, gen, unitKind code, unit, sub, 0, 0, 0, 0, 0, detail, 0, 0, none, 0⟩

/-- Raise an event towards the recorder. (Log 143 DEDUCED) -/
def State.raise (s : State) (e : Event) : State := { s with evr := { s.evr with raised := s.evr.raised ++ [e] } }

/-- The message tag of one event on another that carries none (Table 18.4). -/
def Event.tagOf (t e : Event) : Event :=
  if e.tag ≠ 0 then e else { e with tag := t.tag, span := t.span, oseq := t.oseq, stream := t.stream, tflags := t.tflags }

/-- The events raised after the first `n` carry the tag of the message behind them (R524). -/
def State.tagNew (s : State) (n : Nat) (t : Event) : State :=
  { s with evr := { s.evr with raised := s.evr.raised.take n ++ (s.evr.raised.drop n).map t.tagOf } }

/-- Partition and generation of a cluster's events: those of CLU_PART while alias translation is enabled, else none. -/
def State.cluPart (s : State) (c : Nat) : Nat × Nat :=
  if s.get CLU_ALIAS_CTL_en c = 1 then (s.get CLU_PART_partition c, s.get CLU_PART_gen c) else (0xFF, 0)

/-- Partition and generation of a croft. -/
def State.croftPart (s : State) (k : Nat) : Nat × Nat :=
  if s.get PRT_CROFT_assigned 0 k = 1 then (s.get PRT_CROFT_partition 0 k, s.get PRT_CROFT_gen 0 k) else (0xFF, 0)

/-- Raise an event of a cluster: a failure carries its code as reason, an event-only code carries none (R521). (Log 143 DEDUCED) -/
def State.cluEvent (s : State) (c code sub detail : Nat) : State :=
  let pg := s.cluPart c
  s.raise { Event.plain code (if 0xF0 ≤ code % 256 then 0 else code) pg.1 pg.2 c sub detail with src := 2 }

/-- Raise an event of another unit (0xFFFF for none) that belongs to a partition, or to none (0xFF). (Log 143 DEDUCED) -/
def State.event (s : State) (code unit part detail : Nat) : State :=
  let gen := if part < 16 then s.get PRT_PART_CTL_gen 0 part else 0
  s.raise (Event.plain code (if 0xF0 ≤ code % 256 then 0 else code) part gen unit 0 detail)

/-- Values packed little-endian in order from detail byte 0, each with its width in bytes (R521). -/
def packDetail : List (Nat × Nat) → Nat
  | [] => 0
  | p :: t => p.1 % 256 ^ p.2 + 256 ^ p.2 * packDetail t

/-! ### The symbol code (R179 to R183) -/

/-- Multiply by x in GF(2^8) modulo x^8 + x^4 + x^3 + x^2 + 1. -/
def gfX (a : Nat) : Nat := let b := 2 * a; if b < 256 then b else (b ^^^ 0x11D) % 256

/-- Product in GF(2^8), `k` bits of b from the low end. -/
def gfMulAux : Nat → Nat → Nat → Nat
  | 0, _, _ => 0
  | k + 1, a, b => (if b % 2 = 1 then a else 0) ^^^ gfMulAux k (gfX a) (b / 2)

/-- Product in GF(2^8). -/
def gfMul (a b : Nat) : Nat := gfMulAux 8 a b

/-- α^i. -/
def gfPow : Nat → Nat
  | 0 => 1
  | i + 1 => gfX (gfPow i)

/-- Class of a word (Table 7.3). -/
inductive WClass where
  | good
  | corrected (i s0 : Nat)
  | poison
  | uncorrectable
  deriving DecidableEq, Repr

/-- Class of a word by its two syndromes: the sum of its 18 symbols, and their sum weighted by powers of α (Table 7.3). -/
def classSyn (s0 s1 : Nat) : WClass :=
  if s0 = 0 ∧ s1 = 0 then .good
  else if s0 = 0 then (if s1 = gfMul 0xFF (gfPow 16 ^^^ gfPow 17) then .poison else .uncorrectable)
  else match (List.range 18).find? (fun i => gfMul s0 (gfPow i) == s1) with
    | some i => .corrected i s0
    | none => .uncorrectable

/-- Class of the difference between the stored check symbols and those of the plain codeword of the stored data. -/
def classify (d : BitVec 16) : WClass :=
  let d0 := d.toNat % 256
  let d1 := d.toNat / 256
  classSyn (d0 ^^^ d1) (gfMul d0 (gfPow 16) ^^^ gfMul d1 (gfPow 17))

/-- Class of a word of 16 data symbols followed by its check symbols (R179, R317). -/
def classWord (w : List Byte) : WClass :=
  let r := (w.take 18).zipIdx.foldl (fun (a : Nat × Nat) p => (a.1 ^^^ p.1.toNat, a.2 ^^^ gfMul p.1.toNat (gfPow p.2))) (0, 0)
  classSyn r.1 r.2

/-- Is a word of this class returned marked poisoned. -/
def WClass.bad : WClass → Bool
  | .poison => true
  | .uncorrectable => true
  | _ => false

/-- The difference that a poisoned word is stored with (R181). -/
def poisonDelta : BitVec 16 := 0xFFFF

/-! ### Memory -/

/-- What an unlisted byte reads as: zero on chip, a free value in HBM3 (what nothing wrote under the current key). (Log 18 DESIGN CHOICE) -/
def unlistedByte (epoch a : Nat) : Byte := if a < onchipTop then 0 else Config.hbmFree epoch a

/-- Key epoch of the croft that holds an HBM3 offset. -/
def State.epochOf (s : State) (a : Nat) : Nat := if a < onchipTop then 0 else tget 0 s.epochs (hbmCroft a)

/-- Stored byte of memory. (Log 18 DESIGN CHOICE) -/
def State.rawByte (s : State) (a : Nat) : Byte :=
  match tfind s.mem a with
  | some b => b
  | none => unlistedByte (s.epochOf a) a

/-- Stored check-symbol difference of the word at `w`: an HBM3 word that nothing has written reads with a free one. -/
def State.rawDelta (s : State) (w : Nat) : BitVec 16 :=
  match tfind s.ecc w with
  | some d => d
  | none => if w < onchipTop then 0 else Config.hbmFreeEcc (s.epochOf w) w

/-- Does a word lie in the range of a clear that is busy (R185). -/
def State.inClear (s : State) (w : Nat) : Bool :=
  decide (w < onchipTop) &&
  (match (s.cl (w / 0x800000)).clr with
   | some (first, count) => decide (first ≤ w % 0x800000 / 0x10000) && decide (w % 0x800000 / 0x10000 < first + count)
   | none => false)

/-- Does this read find the word cleared by a clear that is busy: not defined (R185). (Log 20 DESIGN CHOICE) -/
def State.clearedNow (s : State) (w : Nat) : Bool := s.inClear w && Config.clearSeen w s.opens

/-- Class of the word at `w`. -/
def State.wclass (s : State) (w : Nat) : WClass :=
  if s.clearedNow w then .good
  else if isHbm w && s.get HBM_CTL_failed (hbmChan w) == 1 then .poison
  else classify (s.rawDelta w)

/-- Byte of memory as a read returns it: a corrected word's symbol is corrected. -/
def State.rdByte (s : State) (a : Nat) : Byte :=
  let w := a - a % 16
  if s.clearedNow w then 0
  else match s.wclass w with
    | .corrected i s0 => if i = a % 16 then s.rawByte a ^^^ BitVec.ofNat 8 s0 else s.rawByte a
    | _ => s.rawByte a

/-- `n` bytes of memory from `a`. -/
def State.rdMem (s : State) : Nat → Nat → List Byte
  | _, 0 => []
  | a, n + 1 => s.rdByte a :: s.rdMem (a + 1) n

/-- Words of 16 bytes that a range touches. -/
def wordsOf (a n : Nat) : List Nat :=
  (List.range ((a % 16 + n + 15) / 16)).map fun i => a - a % 16 + 16 * i

/-- Words of the 64-byte blocks that a range touches. -/
def blockWords (a n : Nat) : List Nat := wordsOf (a - a % 64) ((a % 64 + n + 63) / 64 * 64)

/-- Does an offset lie in HBM3 whose channel performs no request (R227). -/
def State.chanOff (s : State) (a : Nat) : Bool := isHbm a && s.get HBM_CTL_en (hbmChan a) == 0

/-- Does a channel take a write at an offset (R209, R227); memory on chip always does. -/
def State.chanTakes (s : State) (a : Nat) : Bool := !(isHbm a) || (s.get HBM_CTL_en (hbmChan a) == 1 && s.get HBM_CTL_failed (hbmChan a) == 0)

/-- Does a range hold a word that reads marked poisoned: in HBM3 the whole 64-byte block counts (R204), and a disabled channel
returns no data (R227). -/
def State.rdPoison (s : State) (a n : Nat) : Bool :=
  if isHbm a then (blockWords a n).any fun w => (s.wclass w).bad || s.chanOff w
  else (wordsOf a n).any fun w => (s.wclass w).bad

/-- Count one word of an on-chip read and raise its event (Table 7.3). -/
def State.noteWord (s : State) (w : Nat) : State :=
  if w < onchipTop then
    let c := w / 0x800000
    let off := w % 0x800000
    match s.wclass w with
    | .good => s
    | .corrected _ _ => (s.bump MEM_ECC_CNT_corrected c).cluEvent c 0x05F0 0 off
    | .poison => (s.bump MEM_ECC_CNT_poison c).cluEvent c 0x05F1 0 off
    | .uncorrectable =>
      (((((s.bump MEM_ECC_CNT_uncorrectable c).put MEM_ECC_ADDR_offset c off).put MEM_ECC_ADDR_valid c 1).put
        MEM_ECC_ADDR_stamp c s.stampNow)).cluEvent c 0x05F1 0 off
  else if s.chanOff w then s
  else
    let ch := hbmChan w
    let part := (s.croftPart (ch / 8)).1
    let ca := hbmChAddr w
    match s.wclass w with
    | .good => s
    | .corrected _ _ => (s.bump HBM_ECC_CNT_corrected ch).event 0x06F0 ch part ca
    | .poison => (s.bump HBM_ECC_CNT_poison ch).event 0x06F1 ch part ca
    | .uncorrectable =>
      (((((s.bump HBM_ECC_CNT_uncorrectable ch).put HBM_ECC_ADDR_ch_addr ch ca).put HBM_ECC_ADDR_valid ch 1).put
        HBM_ECC_ADDR_stamp ch s.stampNow)).event 0x06F1 ch part ca

/-- The counts and events of a read of a range: of its words on chip (R180), of its whole blocks in HBM3 (R204). -/
def State.noteWords (s : State) (a n : Nat) : State := (if isHbm a then blockWords a n else wordsOf a n).foldl State.noteWord s

/-- A read of a range: its counts and events, and the next choice among the open values of a clear that is busy. -/
def State.noteRead (s : State) (a n : Nat) : State :=
  let s1 := s.noteWords a n
  { s1 with opens := s1.opens + 1 }

/-- Set the use stamp of the granules of an on-chip range (R187). -/
def State.stamp (s : State) (a n : Nat) : State :=
  if a < onchipTop then
    let c := a / 0x800000
    (List.range ((a % 0x10000 + n + 0xFFFF) / 0x10000)).foldl
      (fun t i => t.put MEM_STAMP_stamp c s.stampNow (a % 0x800000 / 0x10000 + i)) s
  else s

/-- Store one byte of memory, keeping the table canonical: an on-chip zero is not listed, an HBM3 byte always is. -/
def memPut (m : List Host.Cell) (a : Nat) (b : Byte) : List Host.Cell :=
  if a < onchipTop then tset 0 m a b else tins a b m

/-- Store bytes from an address. -/
def memPuts : List Host.Cell → Nat → List Byte → List Host.Cell
  | m, _, [] => m
  | m, a, b :: t => memPuts (memPut m a b) (a + 1) t

/-- Store a word's check-symbol difference. -/
def eccPut (e : Tab (BitVec 16)) (w : Nat) (d : BitVec 16) : Tab (BitVec 16) :=
  if w < onchipTop then tset 0 e w d else tins w d e

/-- Write one storage unit (a 16-byte word on chip, R183; a 64-byte block in HBM3, R205) with the bytes that the write
gives it; `none` keeps a byte. A unit not written whole is read, with the counts and events of a read, and merged; it stays
poisoned when it was. -/
def State.wrUnit (s : State) (u size : Nat) (bs : List (Option Byte)) (poison : Bool) : State :=
  if bs.all Option.isNone then s
  else
    let full := bs.all Option.isSome
    let bad := poison || (!full && (wordsOf u size).any fun w => (s.wclass w).bad)
    let old := if full then [] else s.rdMem u size
    let new := (List.range size).map fun i => (lget none bs i).getD (lget 0 old i)
    let t := if full then s else s.noteWords u size
    { t with mem := memPuts s.mem u new,
             ecc := (wordsOf u size).foldl (fun e w => eccPut e w (if bad then poisonDelta else 0)) s.ecc }

/-- Write a range: bytes from `a`, `none` keeping the byte that stands there. -/
def State.wrBytes (s : State) (a : Nat) (bs : List (Option Byte)) (poison : Bool) : State :=
  let size := if a < onchipTop then 16 else 64
  let lo := a - a % size
  let padded := List.replicate (a - lo) none ++ bs
  let cnt := cdiv padded.length size
  (List.range cnt).foldl
    (fun t i =>
      let part := (padded.drop (i * size)).take size
      t.wrUnit (lo + i * size) size (part ++ List.replicate (size - part.length) none) poison) s

/-- A write lands in on-chip lines: it sets the dirty bits of the borrowed ones (R193), and is late in one that a return has
begun to spill (R197). -/
def State.dirtyLines (s : State) (a n : Nat) : State :=
  if a < onchipTop ∧ n ≠ 0 then
    let c := a / 0x800000
    let l0 := a % 0x800000 / 0x4000
    let l1 := (a % 0x800000 + n - 1) / 0x4000
    (List.range 32).foldl
      (fun (t : State) sl =>
        if t.get CLU_BSLOT_valid c sl = 1 ∧ l0 ≤ t.get CLU_BSLOT_line c sl ∧ t.get CLU_BSLOT_line c sl ≤ l1 then
          let t1 := t.put CLU_BSLOT_dirty c 1 sl
          match (t.cl c).ret with
          | some r =>
            if !r.refill && r.left.any (fun x => x.1 == sl) then
              (t1.put CLU_RETURN_late_write c 1).put CLU_RETURN_reason c 0x0517
            else t1
          | none => t1
        else t) s
  else s

/-- Marks that a requester's write leaves in a cluster: those of its lines, and the scrubber's write-backs of the blocks that it
writes, which are dropped (R184). -/
def State.wrMarks (s : State) (a n : Nat) : State :=
  if a < onchipTop ∧ n ≠ 0 then
    let c := a / 0x800000
    let s1 := s.dirtyLines a n
    let s2 := if (s1.cl c).writeback.isEmpty then s1
      else s1.modCl c fun x => { x with writeback := x.writeback.filter fun w => decide (w / 64 < a / 64) || decide ((a + n - 1) / 64 < w / 64) }
    match (s2.cl c).clr with
    | none => s2
    | some _ => s2.modCl c fun x => { x with lateWr := x.lateWr ++ (wordsOf a n).filter s.inClear }
  else s

/-- A requester's write of a range (Aselo's own writes stamp nothing, R187). -/
def State.wrMem (s : State) (a : Nat) (bs : List (Option Byte)) (poison : Bool) (stamps : Bool := true) : State :=
  let s1 := (s.wrMarks a bs.length).wrBytes a bs poison
  if stamps then s1.stamp a bs.length else s1

/-- A write of whole bytes. (Log 21 DESIGN CHOICE) -/
def State.wrData (s : State) (a : Nat) (bs : List Byte) (poison : Bool := false) (stamps : Bool := true) : State :=
  s.wrMem a (bs.map some) poison stamps

/-- A write of whole bytes that leaves out those whose channel takes no write. -/
def State.wrTaken (s : State) (a : Nat) (bs : List Byte) (poison stamps : Bool) : State :=
  if (List.range ((a % 2048 + bs.length + 2047) / 2048)).all fun i => s.chanTakes (a - a % 2048 + 2048 * i) then s.wrData a bs poison stamps
  else s.wrMem a (bs.zipIdx.map fun x => if s.chanTakes (a + x.2) then some x.1 else none) poison stamps

/-- Aselo's own write: no stamp. -/
def State.aseloWrite (s : State) (a : Nat) (bs : List Byte) : State := s.wrTaken a bs false false

/-- A block's bytes with byte enables: bit i of `be` enables byte i (R340). -/
def enabled (be : Nat) (bs : List Byte) : List (Option Byte) :=
  (List.range bs.length).map fun i => if nbit be i then some (lget 0 bs i) else none

/-- Zero an on-chip or HBM3 range with plain codewords. -/
def State.zero (s : State) (a n : Nat) : State := s.aseloWrite a (List.replicate n 0)

/-- Take every byte of a range out of on-chip memory: it reads zero with its plain codeword (R185). -/
def State.wipe (s : State) (lo n : Nat) : State :=
  let out := fun a => decide (a < lo) || decide (lo + n ≤ a)
  { s with mem := s.mem.filter fun p => out p.1, ecc := s.ecc.filter fun p => out p.1 }

/-- Canonical form of the memory: rising addresses, no on-chip entry equal to what an unlisted byte reads as. -/
def memWf (m : List Host.Cell) : Bool :=
  tsorted m && m.all fun p => !(decide (p.1 < onchipTop) && p.2 == 0)

/-! ### Replies -/

/-- Send an answer to a requester. -/
def State.reply (s : State) (w : Who) (r : Reply) : State := { s with replies := s.replies ++ [(w, r)] }

/-- The answer that waits for a requester. -/
def State.replyOf (s : State) (w : Who) : Option Reply := (s.replies.find? fun p => p.1 == w).map (·.2)

/-- Take an answer. -/
def State.take (s : State) (w : Who) : State := { s with replies := lrem (fun p => p.1 == w) s.replies }

/-! ### Context faults -/

/-- States of CLU_CORE_CTL.state (Table 6.15). -/
def coreRunning : Nat := 1
def coreFaulted : Nat := 6

/-- The context of a cluster faults (R55): the core stops as faulted with the reason; the first fault's reason stays (R509).
The teardown is a command of its own. -/
def State.ctxFault (s : State) (c code : Nat) : State :=
  if (s.cl c).faulted ≠ 0 then s
  else
    ((s.modCl c fun x => { x with faulted := code, core := { x.core with wait := .none } }).put CLU_CORE_CTL_state c coreFaulted).put
      CLU_CORE_CTL_reason c code

/-- A fatal addressing fault (R55): the context faults and one event carries the code and the faulting address. -/
def State.addrFault (s : State) (c code addr : Nat) : State := (s.ctxFault c code).cluEvent c code 0 (addr % 2 ^ 64)

end Sys2Proof.Machine
end

