-- ==== Sys2Proof/Machine/Operands.lean ====
section
/-!
DEFINITION. The operand forms: the kinds of address and their resolution (chapter "One address space from cluster to hall"),
the fields of a skein descriptor, the tile formats, and which formats each station's op accepts.
-/
namespace Sys2Proof.Machine

open Sys2Proof

/-! ### Addresses -/

/-- Kinds of access of Table 2.10. -/
inductive Acc where
  | load
  | store
  | stream (write : Bool)
  | cross
  | accum
  | mcast
  deriving DecidableEq, Repr

/-- Where an address leads once resolved (R30 to R32). -/
inductive Tgt where
  | mem (a : Nat)                 -- physical module-local memory offset
  | reg (a : Nat)                 -- physical module-local register offset
  | other (m off : Nat)           -- another module
  | host (iova : Nat)
  | group (g off : Nat)           -- a multicast group
  deriving DecidableEq, Repr

/-- Result of a check: a reason code, or a value. -/
abbrev Chk (α : Type) := Except Nat α

/-- I/O die that serves a cluster (R13). -/
def cluIoDie (c : Nat) : Nat := cluDie c / 2

/-- Link block that holds the die-wide registers of an I/O die (R354). -/
def dieLink (d : Nat) : Nat := 12 * d

/-- Route entry of a module in an I/O die's table: link, distance, valid (Table 12.21). -/
def State.route (s : State) (d m : Nat) : Option (Nat × Nat) :=
  let w := s.rreg LNK_ROUTE (dieLink d) (m / 4)
  let e := nfld w (16 * (m % 4)) 16
  if s.get LNK_MODULE_route_en (dieLink d) = 1 ∧ nbit e 8 then some (nfld e 0 5, nfld e 5 3) else none

/-- The module's own identifier. -/
def State.moduleId (s : State) : Nat := s.get LNK_MODULE_id 0

/-- Crofts of a cluster's partition by alias number (R41); none while alias translation is disabled. -/
def State.aliasCrofts (s : State) (c : Nat) : List Nat :=
  if s.get CLU_ALIAS_CTL_en c = 1 then
    (List.range (s.get CLU_ALIAS_CTL_croft_count c)).map fun j => nfld (s.rreg CLU_ALIAS_MAP c) (4 * j) 4
  else []

/-- Alias number of the cluster's own croft (Table 2.6). -/
def State.ownAlias (s : State) (c : Nat) : Nat := (s.aliasCrofts c).idxOf (cluCroft c)

/-- Translate a local-alias offset (Table 2.5); `none` where it names nothing of the partition (0x0213). -/
def State.aliasOff (s : State) (c off : Nat) : Option Nat :=
  let cs := s.aliasCrofts c
  let m := cs.length
  if m = 0 then none
  else if off < onchipTop then
    let a := off / 0x800000
    if a < 100 * m then some (croftClu (lget 0 cs (a / 100)) (a % 100) * 0x800000 + off % 0x800000) else none
  else if isHbm off then
    let j := hbmCroft off
    if j < m then some (hbmBase + lget 0 cs j * croftBytes + (off - hbmBase) % croftBytes) else none
  else if isReg off then
    let a := (off - regBase) / 0x10000
    if off < 0x8006400000 ∧ a < 100 * m then
      some (regBase + croftClu (lget 0 cs (a / 100)) (a % 100) * 0x10000 + off % 0x10000)
    else none
  else some off                     -- unmapped (R33, R39), and so it stays

/-- Region of the module-local map that an offset lies in: 0 unmapped, 1 Common, 2 Hayloft, 3 HBM3, 4 registers. -/
def region (a : Nat) : Nat :=
  if isOnchip a then (if a % 0x800000 < 0x200000 then 1 else 2)
  else if isHbm a then 3 else if isReg a then 4 else 0

/-- Do two offsets lie in one unit that no access crosses (R51). -/
def sameUnit (a b : Nat) : Bool :=
  region a == region b &&
  (if region a = 1 ∨ region a = 2 then a / 0x800000 == b / 0x800000
   else if region a = 3 then hbmCroft a == hbmCroft b
   else true)

/-- Is an access kind allowed on a region of the own module (Table 2.10). -/
def Acc.allowed : Acc → Nat → Bool
  | .load, r => r != 0
  | .store, r => r != 0
  | .stream _, r => r == 1 || r == 2 || r == 3
  | .cross, r => r == 1
  | .accum, r => r == 3
  | .mcast, _ => false

/-- Is an access misaligned (R51). -/
def Acc.misaligned (k : Acc) (a len : Nat) : Bool :=
  match k with
  | .load => a % len != 0
  | .store => a % len != 0
  | _ => a % 64 != 0 || len % 64 != 0

/-- Registers that a CTL core may write (Table 2.12). -/
def ctlWritable : List Reg :=
  [CTL_SKQ_PUSH, CTL_SEM_ADD, CTL_SEM, MAT_CTX_CTL, MAT_SR, MAT_PWL_CFG, MAT_PWL_SEG, MAT_OVEC_SCALE, MAT_OVEC_BIAS,
   VEC_SR, VEC_SCALAR, VEC_THRESH, VEC_THRESH_FRAC, SUM_SR, CNV_SR, CLU_DRAW_CFG, ADP_SR, ADP_BASE]

/-- The 8-byte register that holds a register offset; use stamps are 4 B apart. -/
def regSlot (a : Nat) : Nat := a - a % 8

/-- May a core write the register at a physical offset (R40). -/
def ctlMayWrite (a : Nat) : Bool :=
  match regAt (regSlot a) with
  | some (r, _) => ctlWritable.any fun x => x.base == r.base
  | none => false

/-- Crofts that a physical offset of the own module belongs to. -/
def offCroft (a : Nat) : Option Nat :=
  if a < onchipTop then some (cluCroft (a / 0x800000))
  else if isHbm a then some (hbmCroft a)
  else if regBase ≤ a ∧ a < 0x8006400000 then some (cluCroft ((a - regBase) / 0x10000))
  else none

/-- Does a croft belong to the partition of a cluster: the alias map tells while it is enabled; while it is not, the I/O dies' table of
crofts does (R44 bars the cluster then from local aliases and remote accesses alone). -/
def State.ownCroft (s : State) (c k : Nat) : Bool :=
  if s.get CLU_ALIAS_CTL_en c = 1 then (s.aliasCrofts c).contains k
  else (s.croftPart (cluCroft c)).1 != 0xFF && (s.croftPart k).1 == (s.croftPart (cluCroft c)).1

/-- Checks of an access to the own module, once translated; the numerically smaller code of several failures (R510). (Log 12 DEDUCED) -/
def State.localCheck (s : State) (c : Nat) (k : Acc) (a len : Nat) (viaGlobal : Bool) : Chk Tgt :=
  let r := region a
  if r = 0 then .error 0x0214
  else if !(k.allowed r) then .error 0x0215
  else if viaGlobal && !(match offCroft a with | some x => s.ownCroft c x | none => false) then .error 0x0216
  else if !(sameUnit a (a + len - 1)) then .error 0x0218
  else if k.misaligned a len then .error 0x0219
  else if r = 4 then
    (if a < 0x8006400000 ∧ (len = 4 ∨ len = 8) ∧ (k = .load ∨ ctlMayWrite a) then .ok (.reg a) else .error 0x021B)
  else .ok (.mem a)

/-- Resolve an address that a cluster issues (R29 to R32, R42, R44, R46 to R48, R50 to R52). -/
def State.resolve (s : State) (c : Nat) (k : Acc) (addr len : Nat) : Chk Tgt :=
  let kind := nfld addr 62 2
  let off := addr % 2 ^ 46
  if kind = 3 then .error 0x0211
  else if kind = 2 then
    if nfld addr 57 5 ≠ 0 then .error 0x0212
    else if k = .cross ∨ k = .accum ∨ k = .mcast then .error 0x0215
    else if k.misaligned addr len then .error 0x0219
    else if (s.cl c).pasid.isNone then .error 0x021A
    else .ok (.host (addr % 2 ^ 57))
  else if nfld addr 58 4 ≠ 0 then .error 0x0212
  else if kind = 0 then
    if nfld addr 46 12 ≠ 0 then .error 0x0212
    else if s.get CLU_ALIAS_CTL_en c = 0 then .error 0x0213
    else match s.aliasOff c off with
      | none => .error 0x0213
      | some a => if k = .mcast then .error 0x0215 else s.localCheck c k a len false
  else
    let m := nfld addr 46 12
    if k = .mcast then
      if s.get CLU_ALIAS_CTL_en c = 0 then .error 0x0213
      else if region off ≠ 0 && !(sameUnit off (off + len - 1)) then .error 0x0218
      else if k.misaligned off len then .error 0x0219
      else if s.get CLU_SPAN_span_tag c = 0 then .error 0x0721
      else .ok (.group m off)
    else if m = s.moduleId then s.localCheck c k off len true
    else if s.get CLU_ALIAS_CTL_en c = 0 then .error 0x0213
    else if k = .cross then .error 0x0215
    else if (s.route (cluIoDie c) m).isNone then .error 0x0217
    else if region off ≠ 0 && !(sameUnit off (off + len - 1)) then .error 0x0218
    else if k.misaligned off len then .error 0x0219
    else if s.get CLU_SPAN_span_tag c = 0 then .error 0x0721
    else .ok (.other m off)

/-! ### Tile formats (Table 3.1) -/

/-- Rows of a tile format. -/
def fmtRows (f : Nat) : Nat := if f = 5 then 2 else 8
/-- Bytes of a row of a tile format. -/
def fmtRowBytes (f : Nat) : Nat := 1024 / fmtRows f
/-- Is a tile format code defined. -/
def fmtOk (f : Nat) : Bool := decide (f ≤ 8)
/-- Mask with every row of a format live (R62). -/
def fmtMask (f : Nat) : Nat := if f = 5 then 3 else 0xFF
/-- Is a format of 16-bit elements (R162). -/
def fmt16 (f : Nat) : Bool := f == 0 || f == 1 || f == 6 || f == 8
/-- Elements of a row for the arithmetic stations. -/
def fmtW (f : Nat) : Nat := if f = 2 ∨ f = 3 then 128 else if f = 4 then 256 else 64

/-! ### The skein descriptor (Tables 3.4 to 3.8) -/

/-- Word i of a descriptor. -/
def dw (w : List Nat) (i : Nat) : Nat := lget 0 w i
def dId (w : List Nat) : Nat := nfld (dw w 0) 0 16
def dSrcFmt (w : List Nat) : Nat := nfld (dw w 0) 16 4
def dDstFmt (w : List Nat) : Nat := nfld (dw w 0) 20 4
def dOrder (w : List Nat) : Nat := nfld (dw w 0) 24 2
def dNotify (w : List Nat) : Bool := nbit (dw w 0) 26
def dSummary (w : List Nat) : Bool := nbit (dw w 0) 27
def dCount (w : List Nat) : Nat := nfld (dw w 0) 32 16
def dMask (w : List Nat) : Nat := nfld (dw w 0) 48 8
def dMaskLast (w : List Nat) : Nat := nfld (dw w 0) 56 8
def dEntry (w : List Nat) (j : Nat) : Nat := nfld (dw w 1) (16 * j) 16
def dStation (w : List Nat) (j : Nat) : Nat := nfld (dEntry w j) 0 5
def dPort (w : List Nat) (j : Nat) : Nat := nfld (dEntry w j) 5 2
def dOp (w : List Nat) (j : Nat) : Nat := nfld (dEntry w j) 8 8
def dSrcQ (w : List Nat) : Nat := nfld (dw w 7) 0 6
def dDstQ (w : List Nat) : Nat := nfld (dw w 7) 6 6
def dSideQ (w : List Nat) : Nat := nfld (dw w 7) 12 6
def dSideFmt (w : List Nat) : Nat := nfld (dw w 7) 18 4
def dSideTiles (w : List Nat) : Nat := nfld (dw w 7) 22 8
def dWaitSem (w : List Nat) : Nat := nfld (dw w 7) 30 4
def dWaitEn (w : List Nat) : Bool := nbit (dw w 7) 34
def dPostSem (w : List Nat) : Nat := nfld (dw w 7) 35 4
def dPostEn (w : List Nat) : Bool := nbit (dw w 7) 39
def dMode (w : List Nat) : Nat := nfld (dw w 7) 40 2
def dSideStage (w : List Nat) : Nat := nfld (dw w 7) 42 2
def dExpDelta (w : List Nat) : Int := sext 20 (nfld (dw w 7) 44 20)

/-- Number of stages: entries before the first that names 0x1F. -/
def dStages (w : List Nat) : Nat := ((List.range 4).takeWhile fun j => dStation w j != 0x1F).length

/-- Does the descriptor have a side operand. -/
def dHasSide (w : List Nat) : Bool := dSideTiles w != 0

/-- An address with its offset field moved by a signed number of bytes, modulo 2^46 (R62). -/
def addrMove (base : Nat) (d : Int) : Nat := base - base % 2 ^ 46 + imod 46 ((base % 2 ^ 46 : Nat) + d)

/-- Address of tile i under a pattern word with `count` tiles (R62). -/
def patAddr (base pat count i : Nat) : Nat :=
  let inner := nfld pat 48 16
  let run := if inner = 0 then (if count = 0 then 1 else count) else inner
  addrMove base (((i % run : Nat) * sext 24 (nfld pat 0 24) + (i / run : Nat) * sext 24 (nfld pat 24 24)) * 64)

/-- Address of source tile i. -/
def srcAddr (w : List Nat) (i : Nat) : Nat := patAddr (dw w 2) (dw w 3) (dCount w) i
/-- Address of sink tile i; `n` counts the emitted tiles when inner is zero (one run of all tiles, so any count serves). -/
def sinkAddr (w : List Nat) (i : Nat) : Nat :=
  if nfld (dw w 5) 48 16 = 0 then addrMove (dw w 4) ((i : Int) * sext 24 (nfld (dw w 5) 0 24) * 64)
  else patAddr (dw w 4) (dw w 5) 1 i
/-- Address of side tile i. -/
def sideAddr (w : List Nat) (i : Nat) : Nat := addrMove (dw w 6) ((i * 1024 : Nat) : Int)
/-- Address of the companion exponent tile of ply-4 tile i of a stream whose tile 0 lies at `a0`. -/
def compAddr (w : List Nat) (a0 i : Nat) : Nat := addrMove a0 (dExpDelta w * 64 + ((i * 64 : Nat) : Int))

/-- Row mask of source tile i. -/
def srcMask (w : List Nat) (i : Nat) : Nat := if i + 1 = dCount w then dMaskLast w else dMask w

/-! ### Ops of the stations and the formats they accept (check 5 of Table 3.9) -/

/-- Base register of the op entries of a companion station; 0x10 VEC, 0x11 SUM, 0x12 CNV, 0x13 GTH, 0x14 ADP. -/
def opReg (stn : Nat) : Reg :=
  if stn = 0x10 then VEC_OP else if stn = 0x11 then SUM_OP else if stn = 0x12 then CNV_OP
  else if stn = 0x13 then GTH_OP else ADP_OP

/-- Op entry of a companion station: the register's value, zero (not valid) past index 15. -/
def State.opWord (s : State) (c stn op : Nat) : Nat := if op < 16 then s.rreg (opReg stn) c op else 0

/-- Words A and B of a matrix op. -/
def State.matOpA (s : State) (c m op : Nat) : Nat := if op < 16 then s.rreg MAT_OPA c m op else 0
def State.matOpB (s : State) (c m op : Nat) : Nat := if op < 16 then s.rreg MAT_OPB c m op else 0

/-- Format that a stage emits: its op's out_fmt (R144); a matrix station converts into the skein's dst_fmt (R105). (Log 38 DEDUCED) -/
def State.outFmt (s : State) (c : Nat) (w : List Nat) (j : Nat) : Nat :=
  let stn := dStation w j
  let o := s.opWord c stn (dOp w j)
  if stn < 16 then dDstFmt w
  else if stn = 0x10 then nfld o 8 4
  else if stn = 0x11 then nfld o 4 4
  else if stn = 0x12 then nfld o 1 4
  else if stn = 0x13 then nfld o 4 4
  else nfld o 5 4

/-- Is a format BF16, FP16 or ACC40. -/
def fmtWide (f : Nat) : Bool := f == 0 || f == 1 || f == 5

/-- Does the op of a stage accept format `f` on port `p`. -/
def State.accepts (s : State) (c : Nat) (w : List Nat) (j p f : Nat) : Bool :=
  let stn := dStation w j
  let o := s.opWord c stn (dOp w j)
  if stn < 16 then
    let a := s.matOpA c stn (dOp w j)
    let mul := nfld a 1 2
    nbit a 0 &&
    (if p = 0 then (if mul = 0 then f == 0 || f == 1 else mul != 3 && (f == 2 || f == 3))
     else (if mul = 0 then f == 0 || f == 1 else if mul = 1 then f == 2 || f == 3 else mul == 2 && f == 4))
  else if stn = 0x10 then
    nbit o 0 && (if p = 0 then (if nfld o 1 5 = 0x11 then f == 5 else fmtWide f) else fmtOk f)
  else if stn = 0x11 then nbit o 0 && p == 0 && fmtWide f
  else if stn = 0x12 then nbit o 0 && p == 0 && (fmtWide f || f == 2 || f == 3 || f == 4)
  else if stn = 0x13 then
    let fn := nfld o 1 2
    nbit o 0 && (if p = 1 then (fn == 0 || fn == 1) && f == 8
      else if fn = 0 then false else if fn = 1 then fmtOk f && f != 5 else fmt16 f)
  else if stn = 0x14 then
    let kind := nfld o 1 2
    nbit o 0 && (if p = 1 then (kind == 1 || kind == 2) && f == 8 else if kind = 0 then f == 7 else f == 0)
  else false

/-- Does a stage emit tiles: a GTH scatter and an ADP table operation emit none (R161, R259). -/
def State.emits (s : State) (c : Nat) (w : List Nat) (j : Nat) : Bool :=
  let o := s.opWord c (dStation w j) (dOp w j)
  !((dStation w j == 0x13 && nfld o 1 2 == 1) || (dStation w j == 0x14 && nfld o 1 2 == 0))

/-- Is every row of a skein's source tiles dead, so that its sink writes nothing (R58). -/
def allDead (w : List Nat) : Bool := dMaskLast w == 0 && (dCount w == 1 || dMask w == 0)

/-- Is the only accumulation of a one-stage skein held, so that it emits no tile (R115). -/
def State.onlyHeld (s : State) (c : Nat) (w : List Nat) : Bool :=
  let a := s.matOpA c (dStation w 0) (dOp w 0)
  dStages w == 1 && decide (dStation w 0 < 16) && nfld a 16 1 == 1 && nfld a 3 1 == 0 &&
    decide (dCount w ≤ nfld a 8 6 * nfld a 24 16 * (if nfld a 1 2 = 2 then 2 else 1))

/-- Has a skein a SUM stage, whose output rows live though all of its source rows are dead (R155, R156). -/
def hasSum (w : List Nat) : Bool := (List.range (dStages w)).any fun j => dStation w j == 0x11

/-- Does the sink of a skein issue any write: its last stage emits, or is a scatter, whose writes count (R78, R161), and neither are
all rows dead nor is the only accumulation held. -/
def State.writes (s : State) (c : Nat) (w : List Nat) : Bool :=
  let j := dStages w - 1
  (s.emits c w j || dStation w j == 0x13) && !(allDead w && !(hasSum w)) && !(s.onlyHeld c w)

/-- Tiles that a stage emits for `n` main tiles, as its op says (R99, R104, R110, R115, R152, R156, R157, R160, R259). -/
def State.stageTiles (s : State) (c : Nat) (w : List Nat) (j n : Nat) : Nat :=
  let stn := dStation w j
  let o := s.opWord c stn (dOp w j)
  let unit := fun (f : Nat) => if f = 5 then 4 else 1
  let fi := if j = 0 then dSrcFmt w else s.outFmt c w (j - 1)
  let fo := s.outFmt c w j
  if dPort w j = 1 ∧ stn ≠ 0x13 then 0
  else if stn < 16 then
    let a := s.matOpA c stn (dOp w j)
    let u := nfld a 8 6 * (if nfld a 1 2 = 2 then 2 else 1)
    let accs := if nbit a 3 then (if nfld a 1 2 = 0 then 8 else 16) * (n - 1)
      else if nbit a 6 then n / u
      else if nbit a 16 then cdiv n (u * nfld a 24 16) - 1 else n / (u * nfld a 24 16)
    if fo = 5 then 4 * accs else if fo = 2 ∨ fo = 3 then cdiv accs 2 else accs
  else if stn = 0x10 then (if nfld o 1 5 = 0x11 then n / (4 * nfld o 16 8) else n / unit fi) * unit fo
  else if stn = 0x11 then cdiv (n / unit fi / nfld o 16 16 * (if nbit o 3 then 64 else 8)) 512 * unit fo
  else if stn = 0x12 then
    (if fmtW fi ≤ fmtW fo then n / unit fi / (fmtW fo / fmtW fi) else n / unit fi * (fmtW fi / fmtW fo)) * unit fo
  else if stn = 0x13 then (match nfld o 1 2 with | 0 => 64 * n | 1 => 0 | _ => n)
  else (match nfld o 1 2 with
    | 1 => n / 2 ^ nfld o 3 2 * unit fo
    | 2 => n / (2 ^ nfld o 3 2 + 1) * 2 ^ nfld o 3 2
    | _ => 0)

/-- Tiles that the last stage of a skein emits to the sink. -/
def State.sinkTiles (s : State) (c : Nat) (w : List Nat) : Nat :=
  (List.range (dStages w)).foldl (fun n j => s.stageTiles c w j n) (dCount w)

/-- Does an address resolve to HBM3 of some module (R64). -/
def State.inHbm (s : State) (c addr : Nat) : Bool :=
  match nfld addr 62 2 with
  | 0 => nfld addr 46 16 == 0 && s.get CLU_ALIAS_CTL_en c == 1 && (match s.aliasOff c (addr % 2 ^ 46) with | some a => isHbm a | none => false)
  | 1 => nfld addr 58 4 == 0 && isHbm (addr % 2 ^ 46)
  | _ => false

/-- Formats that meet each port of the stage list: source to stage 0, side operand to port 1 of its stage, each stage's
output to the next, and the last output to the sink (check 5; R82, R144). (Log 171 DESIGN CHOICE) -/
def State.fmtCheck (s : State) (c : Nat) (w : List Nat) : Bool :=
  let n := dStages w
  let last := n - 1
  let defined := fmtOk (dSrcFmt w) && fmtOk (dDstFmt w) && (!dHasSide w || fmtOk (dSideFmt w))
  let masks := decide (dMask w &&& fmtMask (dSrcFmt w) = dMask w) && decide (dMaskLast w &&& fmtMask (dSrcFmt w) = dMaskLast w)
  let chain := (List.range n).all fun j =>
    let f := if j = 0 then dSrcFmt w else s.outFmt c w (j - 1)
    s.accepts c w j (dPort w j) f
  let side := !dHasSide w || !(decide (dSideStage w < n)) || s.accepts c w (dSideStage w) 1 (dSideFmt w)
  -- a 16-bit matrix op whose two ports carry different formats (R82)
  let pair := (List.range n).all fun j =>
    !(decide (dStation w j < 16) && nfld (s.matOpA c (dStation w j) (dOp w j)) 1 2 == 0 && dHasSide w && dSideStage w == j) ||
      (if j = 0 then dSrcFmt w else s.outFmt c w (j - 1)) == dSideFmt w
  let mats := (List.range n).all fun j => !(decide (dStation w j < 16)) ||
    (dDstFmt w == 0 || dDstFmt w == 1 || dDstFmt w == 2 || dDstFmt w == 3 || dDstFmt w == 5)
  let out := !(s.emits c w last) || s.outFmt c w last == dDstFmt w
  defined && masks && chain && side && pair && mats && out

/-- Does a stream address resolve to the own cluster's Common or Hayloft: the local operand path serves it (R60). Only the place
counts: a misaligned address takes the path as well and faults at issue (R51). -/
def State.isLocal (s : State) (c addr : Nat) : Bool :=
  match s.resolve c .load addr 1 with
  | .ok (.mem a) => decide (a < onchipTop) && a / 0x800000 == c
  | _ => false

/-- Is a source read by GTH itself, crosswise (R163). (Log 41 DEDUCED) -/
def State.isCross (s : State) (c : Nat) (w : List Nat) : Bool :=
  dStation w 0 == 0x13 && nfld (s.opWord c 0x13 (dOp w 0)) 1 2 == 3

/-- Is the stream queue of a 6-bit queue field enabled. -/
def State.qEnabled (s : State) (c f : Nat) : Bool := s.get STR_QCFG_en c (f / 32) (f % 32) == 1

/-- Which streams of a descriptor STR serves (R60): source, side, sink.  A group address (R64) is no address of the own cluster. (Log 172 DESIGN CHOICE) -/
def State.strServed (s : State) (c : Nat) (w : List Nat) : List Bool :=
  [!(s.isLocal c (dw w 2)) && !(s.isCross c w), dHasSide w && !(s.isLocal c (dw w 6)),
   s.emits c w (dStages w - 1) && (dMode w == 2 && nfld (dw w 4) 62 2 == 1 || !(s.isLocal c (dw w 4)))]

/-- The queue fields named by the streams that STR serves. -/
def State.queuesOf (s : State) (c : Nat) (w : List Nat) : List Nat :=
  let b := s.strServed c w
  (if lget false b 0 then [dSrcQ w] else []) ++ (if lget false b 1 then [dSideQ w] else []) ++
  (if lget false b 2 then [dDstQ w] else [])

/-- Is a list free of repeats. -/
def nodupB : List Nat → Bool
  | [] => true
  | a :: t => !(t.contains a) && nodupB t

/-- Check 10 of Table 3.9: dst_mode is not 0b11, and R64 holds: of an accumulating sink, for the address of every tile. -/
def State.modeCheck (s : State) (c : Nat) (w : List Nat) : Bool :=
  if dMode w = 3 then false
  else if dMode w = 1 then
    dDstFmt w == 0 && (List.range (Nat.max 1 (s.sinkTiles c w))).all fun i => s.inHbm c (sinkAddr w i)
  else if dMode w = 2 then nfld (dw w 4) 62 2 == 1
  else true

/-- Has a station a port (Table 3.3): a station that is no stage has none, port 1 is one that SUM and CNV lack, and ports 2 and 3
exist nowhere. -/
def hasPort (stn p : Nat) : Bool :=
  decide (stn < 0x15) && (decide (p = 0) || (decide (p = 1) && !(stn == 0x11 || stn == 0x12)))

/-- Descriptor checks of Table 3.9, in table order. (Log 32 DEDUCED) -/
def State.descChecks (s : State) (c : Nat) (w : List Nat) : List (Bool × Nat) :=
  let n := dStages w
  let b := s.strServed c w
  let qs := s.queuesOf c w
  [ (nfld (dw w 0) 28 4 == 0 && (List.range 4).all (fun j => !(nbit (dEntry w j) 7)) && dOrder w != 3, 0x023A),
    (decide (dStation w 0 < 0x15) && (List.range 4).all (fun j => decide (j ≤ n) || dEntry w j == 0x1F), 0x0231),
    (nodupB ((List.range n).map (dStation w)) && (List.range n).all (fun j => hasPort (dStation w j) (dPort w j)), 0x0232),
    (dCount w != 0, 0x0233),
    (s.fmtCheck c w, 0x0234),
    (decide ((b2n (dSrcFmt w == 4) + b2n (dHasSide w && dSideFmt w == 4) + b2n (dDstFmt w == 4)) ≤ 1), 0x0235),
    (qs.all (s.qEnabled c) && nodupB qs && (lget false b 0 || dSrcQ w == 0) && (lget false b 1 || dSideQ w == 0) &&
      (lget false b 2 || dDstQ w == 0 || !(s.emits c w (n - 1))), 0x0236),
    (!dHasSide w || (decide (dSideStage w < n) && dPort w (dSideStage w) != 1), 0x0237),
    (!dSummary w || (List.range n).any (fun j => dStation w j == 0x10), 0x0238),
    (s.modeCheck c w, 0x0239) ]

end Sys2Proof.Machine
end

