-- ==== Sys2Proof/Machine/Stations.lean ====
section
/-!
DEFINITION. What the stations compute from tiles (chapters "The matrix station" and "Vector station, control core and
companion stations", and the adapter station's arithmetic): tile elements, the matrix station's passes and output path, VEC,
SUM, CNV and GTH.
-/
namespace Sys2Proof.Machine

open Sys2Proof

/-! ### Tile elements (R56, R123, R127) -/

/-- The number format of an arithmetic tile format. -/
def fpOf (f : Nat) : FpFmt :=
  if f = 1 then fp16 else if f = 2 then e4m3 else if f = 3 then e5m2 else if f = 5 then acc40 else bf16

/-- Bytes of an element's container in a tile format. -/
def elemBytes (f : Nat) : Nat := if f = 2 ∨ f = 3 then 1 else if f = 5 then 8 else 2

/-- Bit patterns of a tile's elements, row-major; in ACC40 bits [63:40] of a container are ignored (Table 3.1). -/
def tileBits (f : Nat) (data : List Byte) : List Nat :=
  if f = 4 then (data.map fun b => [b.toNat % 16, b.toNat / 16]).flatten
  else (chunks (elemBytes f) data.length data).map fun l => leNat l % 2 ^ (fpOf f).width

/-- Exact values of the elements of a ply-4 tile: E2M1 value × 2^X, NaN in a NaN block (R127). -/
def plyVals (data comp : List Byte) : List XNum :=
  (chunks 32 data.length (tileBits 4 data)).zipIdx.flatMap fun p =>
    let x := lget 0 comp p.2
    p.1.map fun b => if x = 0x80 then XNum.nan else (e2m1.dec b).shift (sext 8 x.toNat)

/-- Exact values of a tile's elements, row-major. -/
def Tile.vals (t : Tile) : List XNum :=
  if t.fmt = 4 then plyVals t.data t.comp else (tileBits t.fmt t.data).map (fpOf t.fmt).dec

/-- Bytes of elements given as bit patterns. -/
def bitsBytes (f : Nat) (bits : List Nat) : List Byte := bits.flatMap fun b => leBytes (elemBytes f) b

/-- A list padded with a value to a length. -/
def padTo {α : Type} (d : α) (n : Nat) (l : List α) : List α := (l ++ List.replicate (n - l.length) d).take n

/-- Dither bits [15:0] of an element (R130), for stochastic rounding; none for nearest-even. -/
def Skein.mode (k : Skein) (stoch : Bool) (tensor elem : Nat) : Option Nat :=
  if stoch then some (dither k.seed k.step tensor (elem % 2 ^ 32) % 65536) else none

/-- Row mask of an 8-row block as the masks of its four ACC40 tiles. -/
def accMask (mask j : Nat) : Nat := nfld mask (2 * j) 2

/-- Tiles of an 8 × 64 block of bit patterns in a format: one tile, or four in ACC40 (chapter 6). `idx0` numbers the first. -/
def blockTiles (f mask idx0 : Nat) (last poison : Bool) (bits : List Nat) : List Tile :=
  if f = 5 then
    (List.range 4).map fun j =>
      ⟨5, accMask mask j, (idx0 + j) % 65536, last && j == 3, poison, bitsBytes 5 ((bits.drop (128 * j)).take 128), []⟩
  else [⟨f, mask, idx0 % 65536, last, poison, bitsBytes f bits, []⟩]

/-- Row mask of a block from its tiles. -/
def blockMask : List Tile → Nat
  | [] => 0
  | t :: r => if t.fmt = 5 then ((t :: r).zipIdx.foldl (fun a p => a + (p.1.mask % 4) * 4 ^ p.2) 0) else t.mask

/-- Tiles of a unit of a format (Table 3.1: four in ACC40). -/
def unitTiles (f : Nat) : Nat := if f = 5 then 4 else 1

/-! ### The matrix station -/

/-- Group size of a group code (R83). -/
def matG (code : Nat) : Nat := if code = 0 then 4 else if code = 1 then 8 else 16
/-- Products per cell and cycle (Table 4.1). -/
def matP (mul : Nat) : Nat := if mul = 0 then 1 else 2
/-- K span of a stationary tile (Table 4.2). -/
def matK (mul g : Nat) : Nat := if mul = 0 then 8 * g else if mul = 1 then 16 * g else 32 * g

/-- One level of the adder tree (R86, R139). -/
def pairSums : List XNum → List XNum
  | a :: b :: t => rne40 (a.add b) :: pairSums t
  | l => l

/-- The adder tree: levels until one sum remains. -/
def treeSum : Nat → List XNum → XNum
  | 0, l => lget XNum.zero l 0
  | n + 1, l => match l with
    | [] => XNum.zero
    | [x] => x
    | _ => treeSum n (pairSums l)

/-- One accumulator element after the group sums of a row (R87, R139). -/
def accRow (leaves : Nat) (acc : XNum) (w x : List XNum) : XNum :=
  let prods := List.zipWith XNum.mul w x
  (chunks leaves prods.length prods).foldl (fun a l => rne40 (a.add (treeSum 6 l))) acc

/-- Fields of words A and B of a matrix op (Tables 4.13, 4.14). -/
def opMul (a : Nat) : Nat := nfld a 1 2
def opFeed (a : Nat) : Nat := nfld a 3 1
def opGroup (a : Nat) : Nat := nfld a 4 2
def opHide (a : Nat) : Nat := nfld a 6 1
def opMt (a : Nat) : Nat := nfld a 8 6
def opInit (a : Nat) : Nat := nfld a 14 2
def opEndHold (a : Nat) : Nat := nfld a 16 1
def opCount (a : Nat) : Nat := nfld a 24 16

/-- Logical moving row ρ of a tile is live (R101). -/
def rowLive (g mask r : Nat) : Bool := nbit mask (if g = 4 then r / 2 else if g = 8 then r else 2 * r)

/-- Entry v of an output vector register array of a matrix station. -/
def State.ovec (s : State) (r : Reg) (c m v : Nat) : Nat := nfld (s.rreg r c m (v / 4)) (16 * (v % 4)) 16

/-- Initial buffer of an accumulation (R87, R139): zero or the bias entries. The later accumulations of a skein whose op has
init = resume start at zero. (Log 168 DESIGN CHOICE) -/
def State.matInit (s : State) (c m : Nat) (opA opB : Nat) : AccBuf :=
  if opInit opA = 1 then
    let g := matG (opGroup opA)
    let one := fun l =>
      let v := if nbit opB 4 then l / (8 * g) else l % (8 * g)
      (l, acc40.enc none (bf16.dec (s.ovec MAT_OVEC_BIAS c m v)))
    ⟨((List.range 512).map one).filter (fun p => p.2 != 0), 0, false⟩
  else ⟨[], 0, false⟩

/-- Add the group sums of one moving tile (or ply-4 pair) to a buffer: rows ρ of tile t of the pass (R85, R87, R102). -/
def matTile (opA : Nat) (stat : Tile) (mov : List Tile) (t : Nat) (b : AccBuf) : AccBuf :=
  let g := matG (opGroup opA)
  let mul := opMul opA
  let ks := matK mul g
  let span := if mul = 2 then ks / 2 else ks
  let leaves := matP mul * g
  let wv := stat.vals
  let mask := match mov with
    | [] => 0
    | x :: _ => x.mask
  let mv := mov.map Tile.vals
  (List.range (64 / g)).foldl (fun (b : AccBuf) r =>
    if rowLive g mask r then
      let x := mv.flatMap fun v => (v.drop (r * span)).take span
      let m := t * (64 / g) + r
      (List.range (64 / g)).foldl (fun (b : AccBuf) f =>
        let l := 8 * g * f + m
        let a := accRow leaves (acc40.dec (tget 0 b.acc l)) ((wv.drop (f * ks)).take ks) x
        { b with acc := tset 0 b.acc l (acc40.enc none a) }) { b with live := b.live ||| 2 ^ m }
    else b) { b with poison := b.poison || stat.poison || mov.any (·.poison) }

/-- Accumulation a of slide mode from the joined moving values (R99). -/
def matSlide (opA : Nat) (stat : Tile) (x : List XNum) (b : AccBuf) : AccBuf :=
  let mul := opMul opA
  let ks := matK mul 8
  let leaves := matP mul * 8
  let wv := stat.vals
  (List.range 64).foldl (fun (b : AccBuf) m =>
    let xs := (x.drop m).take ks
    (List.range 8).foldl (fun (b : AccBuf) f =>
      let l := 64 * f + m
      let a := accRow leaves (acc40.dec (tget 0 b.acc l)) ((wv.drop (f * ks)).take ks) xs
      { b with acc := tset 0 b.acc l (acc40.enc none a) }) b) { b with live := 2 ^ 64 - 1, poison := b.poison || stat.poison }

/-- The piecewise-linear activation (R108). -/
def State.pwl (s : State) (c m : Nat) (x : XNum) : XNum :=
  let lo := bf16.dec (s.get MAT_PWL_CFG_lo c m)
  let wexp := sext 8 (s.get MAT_PWL_CFG_wexp c m)
  let idx : Option Nat := match x, lo with
    | .nan, _ => none
    | _, .nan => none
    | .inf n, _ => some (if n then 0 else 63)
    | _, .inf n => some (if n then 63 else 0)
    | x, lo => match (x.add lo.neg).shift (-wexp) with
      | .fin neg mm e _ =>
        let fl : Int :=
          let v : Int := if 0 ≤ e then ((mm * 2 ^ e.toNat : Nat) : Int) else ((mm / 2 ^ (-e).toNat : Nat) : Int)
          let exact := decide (0 ≤ e) || mm % 2 ^ (-e).toNat == 0
          if neg then (if exact then -v else -v - 1) else v
        some (if fl < 0 then 0 else if 63 < fl then 63 else fl.toNat)
      | _ => some 0
  match idx with
  | none => .nan
  | some i =>
    let seg := s.rreg MAT_PWL_SEG c m (i / 2)
    let slope := bf16.dec (nfld seg (32 * (i % 2)) 16)
    let icpt := bf16.dec (nfld seg (32 * (i % 2) + 16) 16)
    (slope.mul x).add icpt

/-- ReLU (R107): +0 below zero and for −0. -/
def XNum.relu (x : XNum) : XNum := if x.isNan then .nan else if x.sgn then XNum.zero else x

/-- The output path of one element (R105 to R109). -/
def State.outPath (s : State) (c m : Nat) (k : Skein) (opB g a l bits : Nat) (f : Nat) : Nat :=
  let vm := l % (8 * g)
  let vf := l / (8 * g)
  let x := acc40.dec bits
  let x := match nfld opB 0 2 with
    | 1 => rne40 (x.mul (bf16.dec (nfld opB 16 16)))
    | 2 => rne40 (x.mul (bf16.dec (s.ovec MAT_OVEC_SCALE c m (if nbit opB 2 then vf else vm))))
    | _ => x
  let x := if nbit opB 3 then rne40 (x.add (bf16.dec (s.ovec MAT_OVEC_BIAS c m (if nbit opB 4 then vf else vm)))) else x
  let x := match nfld opB 5 3 with
    | 1 => x.relu
    | 2 => x.silu
    | 3 => x.gelu
    | 4 => s.pwl c m x
    | _ => x
  (fpOf f).enc (k.mode (nbit opB 8) (s.get MAT_SR_tensor_id c m) (s.get MAT_SR_elem_base c m + 512 * a + l)) x

/-- Row mask of `rows` physical rows of `w` elements from the first element `l0` of a buffer: a row is cleared only when
every element of it is dead (R103). Elements of logical rows that no pass has (m at or beyond mt × 64/g) count as dead. (Log 170 DESIGN CHOICE) -/
def liveRows (g live l0 rows w : Nat) : Nat :=
  (List.range rows).foldl (fun a r =>
    a + (if (List.range w).any (fun i => nbit live ((l0 + r * w + i) % (8 * g))) then 2 ^ r else 0)) 0

/-- Tile j of a drained buffer (R105, R110): of four in ACC40, the one in BF16 or FP16, and half of one in the 8-bit formats,
given with its rows in the low half. (Log 38 DEDUCED) -/
def State.drainTile (s : State) (c m : Nat) (k : Skein) (opA opB a : Nat) (b : AccBuf) (f j : Nat) : Tile :=
  let g := matG (opGroup opA)
  if f = 5 then
    ⟨5, liveRows g b.live (128 * j) 2 64, 0, false, b.poison, bitsBytes 5 ((List.range 128).map fun i => tget 0 b.acc (128 * j + i)), []⟩
  else
    let out := (List.range 512).map fun l => s.outPath c m k opB g a l (tget 0 b.acc l) f
    if elemBytes f = 1 then ⟨f, liveRows g b.live 0 4 128, 0, false, b.poison, bitsBytes f out, []⟩
    else ⟨f, liveRows g b.live 0 8 64, 0, false, b.poison, bitsBytes f out, []⟩

/-- Join the two halves of an 8-bit output tile (R110). -/
def joinHalves (lo hi : Tile) : Tile :=
  { lo with mask := lo.mask + hi.mask * 16, poison := lo.poison || hi.poison, data := padTo 0 512 lo.data ++ hi.data }

/-- An 8-bit output tile whose upper half stays unwritten (R110). -/
def loneHalf (lo : Tile) : Tile := { lo with data := padTo 0 1024 lo.data }

/-! ### The vector station (R144 to R154) -/

/-- Does a VEC function need a broadcast operand (Table 6.1). -/
def vecNeedsB (fn : Nat) : Bool := [1, 2, 3, 4, 5, 6, 9, 0x0E, 0x10].contains fn

/-- mask(x, b) of Table 6.1. -/
def vecMask (x b : XNum) : XNum := if x.isNan || b.isNan then .nan else if x.ge b then x else XNum.zero

/-- The elementwise functions of Table 6.1. -/
def vecFn (fn : Nat) (x b : XNum) : XNum :=
  match fn with
  | 0x00 => x
  | 0x01 => x.add b
  | 0x02 => x.add b.neg
  | 0x03 => x.mul b
  | 0x04 => x.div b
  | 0x05 => x.max b
  | 0x06 => x.min b
  | 0x07 => x.abs
  | 0x08 => x.mul x
  | 0x09 => (x.add b.neg).exp
  | 0x0A => (XNum.mk false 1 0).div x
  | 0x0B => if x.isZero then .inf false else if x.isNeg then .nan else
      match x with
      | .inf _ => XNum.zero
      | _ => ((XNum.mk false 1 0).div x).sqrt
  | 0x0C => x.silu
  | 0x0D => x.gelu
  | 0x0E => vecMask x b
  | 0x0F => x
  | 0x10 => vecMask x b
  | _ => x

/-- Byte of the operand cache. -/
def Cluster.cacheByte (x : Cluster) (a : Nat) : Byte := tget 0 x.cache a

/-- BF16 value in the operand cache. -/
def Cluster.cacheBf (x : Cluster) (a : Nat) : XNum := bf16.dec ((x.cacheByte a).toNat + 256 * (x.cacheByte (a + 1)).toNat)

/-- Vector size of a bcast code: 128 B for row, 16 B for column (R149). -/
def vecSize (bcast : Nat) : Nat := if bcast = 1 then 128 else 16

/-- Cache byte offset of the vector of block i (R149). -/
def vecOff (o i : Nat) : Nat :=
  let vnum := if nfld o 44 12 = 0 then 4096 else nfld o 44 12
  let brep := if nfld o 24 8 = 0 then 1 else nfld o 24 8
  (nfld o 32 12 + (i / brep) % vnum) * vecSize (nfld o 6 2)

/-- Broadcast operand of element (row, col) of block i. -/
def State.vecB (s : State) (c : Nat) (k : Skein) (o i row col : Nat) : XNum :=
  match nfld o 6 2 with
  | 1 => (s.cl c).cacheBf (vecOff o i + 2 * col)
  | 2 => (s.cl c).cacheBf (vecOff o i + 2 * row)
  | 3 => acc40.dec k.scalar
  | _ => XNum.zero

/-- Does block i broadcast from a poisoned KiB of the cache (R150). -/
def State.vecBPoison (s : State) (c : Nat) (o i : Nat) : Bool :=
  if nfld o 6 2 = 1 ∨ nfld o 6 2 = 2 then tget false (s.cl c).cachePoison (vecOff o i / 1024) else false

/-- The threshold of a skein's summaries (R153). -/
def Skein.tau (k : Skein) (o : Nat) : XNum :=
  if nbit o 13 then rne40 (((acc40.dec k.thresh).mul (XNum.mk false k.frac 0)).shift (-32)) else acc40.dec k.thresh

/-- The summary record before any element (Table 6.2). -/
def Summ.init : Summ := ⟨0xFF80000000, false, 0xFFFFFFFF, 0, 0, 0xFFFFFFFF, 0, 0, 0, false⟩

/-- Take one live emitted element into the record: its ACC40 value and position (R153). Of values that compare equal, +0 and −0
among them, the first seen stays the maximum. (Log 175 DESIGN CHOICE) -/
def Summ.take (r : Summ) (tau v : XNum) (e : Nat) : Summ :=
  let isMax := if r.nan then false else v.isNan || r.argmax == 0xFFFFFFFF || (acc40.dec r.max).lt v
  let abv := v.ge tau
  { r with
    max := if isMax then acc40.enc none v else r.max
    nan := r.nan || v.isNan
    argmax := if isMax then e else r.argmax
    sum := acc40.enc none ((acc40.dec r.sum).add v)
    nonfinite := r.nonfinite + b2n v.nonfinite
    cross := if abv && r.cross == 0xFFFFFFFF then e else r.cross
    above := r.above + b2n abv
    sumAbove := if abv then acc40.enc none ((acc40.dec r.sumAbove).add v) else r.sumAbove
    live := r.live + 1 }

/-- Result of one VEC block: bit patterns, the prefix after it, the record after it. -/
structure VecOut where
  bits : List Nat
  pre : Nat
  summ : Option Summ

/-- One block through VEC: live elements in increasing E (R147, R151, R153). -/
def State.vecBlock (s : State) (c : Nat) (k : Skein) (o i mask : Nat) (xs : List XNum) (pre : Nat) (summ : Option Summ) :
    VecOut :=
  let fn := nfld o 1 5
  let f := fpOf (nfld o 8 4)
  let stoch := nbit o 12
  let tensor := s.get VEC_SR_tensor_id c
  let base := s.get VEC_SR_elem_base c
  let tau := k.tau o
  let scan := fn == 0x0F || fn == 0x10
  xs.zipIdx.foldl (fun (r : VecOut) p =>
    let row := p.2 / 64
    let col := p.2 % 64
    let e := 512 * i + p.2
    if nbit mask row then
      let y := vecFn fn p.1 (s.vecB c k o i row col)
      let pre := if scan then acc40.enc none ((acc40.dec r.pre).add y) else r.pre
      let y := if scan then acc40.dec pre else y
      let bits := f.enc (k.mode stoch tensor (base + e)) y
      let seen := if scan then y else f.dec bits
      ⟨bits :: r.bits, pre, r.summ.map fun m => m.take tau seen e⟩
    else ⟨0 :: r.bits, r.pre, r.summ⟩) ⟨[], pre, summ⟩

/-- Partials of one element combined in partial order (R140, R152). -/
def combineElem : List XNum → XNum
  | [] => XNum.zero
  | x :: t => t.foldl (fun a y => rne40 (a.add y)) x

/-! ### The reduction station (R155, R156) -/

/-- Starting value of a reduction. -/
def sumStart (fn : Nat) : Nat := if fn = 2 then 0xFF80000000 else 0

/-- One element into a running reduction (R155). The larger of +0 and −0 is +0, as Table 6.1 has it for VEC. (Log 176 DESIGN CHOICE) -/
def sumStep (fn : Nat) (acc : Nat) (x : XNum) : Nat :=
  let a := acc40.dec acc
  acc40.enc none (match fn with
    | 0 => a.add x
    | 1 => a.add (x.mul x)
    | 2 => a.max x
    | _ => a.max x.abs)

/-- One block into the running reductions of an axis: 8 rows or 64 columns (R155). -/
def sumBlock (fn axis mask : Nat) (xs : List XNum) (acc : List Nat) : List Nat :=
  let v := xs.zipIdx
  (List.range (if axis = 0 then 8 else 64)).map fun j =>
    let mine := v.filter fun p => (if axis = 0 then p.2 / 64 == j else p.2 % 64 == j) && nbit mask (p.2 / 64)
    mine.foldl (fun a p => sumStep fn a p.1) (lget (sumStart fn) acc j)

/-! ### The convert station (R157, R158) -/

/-- Pack 32 values into a ply-4 block: exponent byte and nibbles (R134); `modes` gives each value's rounding. -/
def plyPack (vals : List XNum) (modes : List (Option Nat)) : Nat × List Nat :=
  if vals.any XNum.nonfinite then (0x80, List.replicate 32 0)
  else
    let lg := vals.filterMap fun v => match v with
      | .fin _ m e _ => if m = 0 then none else some ((Nat.log2 m : Int) + e)
      | _ => none
    let x : Int := match lg with
      | [] => 0
      | a :: t => (t.foldl (fun a b => if a < b then b else a) a) - 2
    let x := if x < -127 then -127 else if 127 < x then 127 else x
    (imod 8 x, (vals.zip modes).map fun p => e2m1.enc p.2 (p.1.shift (-x)))

/-- Rows of a unit's values: 8 rows of W values. -/
def unitRows (w : Nat) (vals : List XNum) : List (List XNum) := (List.range 8).map fun r => (vals.drop (r * w)).take w

/-- Give a unit's tiles the poison of the input tiles they depend on (R70): tile by tile. -/
def poisonTiles (ts : List Tile) (p : Nat → Bool) : List Tile := ts.zipIdx.map fun q => { q.1 with poison := p q.2 }

/-- One output unit of CNV from its rows of values: bytes and companion (R158). -/
def State.cnvUnit (s : State) (c : Nat) (k : Skein) (o u mask : Nat) (rows : List (List XNum)) (last poison : Bool) (idx0 : Nat) :
    List Tile :=
  let f := nfld o 1 4
  let w := fmtW f
  let tensor := s.get CNV_SR_tensor_id c
  let base := s.get CNV_SR_elem_base c
  let mode := fun (r col : Nat) => k.mode (nbit o 5) tensor (base + u * w * 8 + w * r + col)
  if f = 4 then
    let blocks := rows.zipIdx.flatMap fun p =>
      (chunks 32 8 p.1).zipIdx.map fun q => plyPack q.1 ((List.range 32).map fun i => mode p.2 (32 * q.2 + i))
    let nib := blocks.flatMap (·.2)
    let data := (chunks 2 nib.length nib).map fun l => BitVec.ofNat 8 (lget 0 l 0 + 16 * lget 0 l 1)
    [⟨4, mask, idx0 % 65536, last, poison, data, blocks.map fun b => BitVec.ofNat 8 b.1⟩]
  else
    let bits := rows.zipIdx.flatMap fun p => p.1.zipIdx.map fun q => (fpOf f).enc (mode p.2 q.2) q.1
    if f = 5 then blockTiles 5 mask idx0 last poison bits
    else [⟨f, mask, idx0 % 65536, last, poison, bitsBytes f bits, []⟩]

/-! ### The gather station (R160 to R163) -/

/-- Elements of a U16 index tile with the deadness of their rows: a dead row's elements name no row (R160). -/
def indexElems (t : Tile) : List Nat :=
  (tileBits 8 t.data).zipIdx.map fun p => if nbit t.mask (p.2 / 64) then p.1 else 0xFFFF

/-- First window byte of row i of the GTH table, as a module-local offset. -/
def gthRow (c o i : Nat) : Nat := c * 0x800000 + nfld o 8 17 * 64 + i * 128

/-- Output tile j of a transposed group of 8 tiles (R162). Every output tile depends on all 8 input tiles (R70); a crosswise output
is marked in the same way, though its strips are narrower. (Log 41 DEDUCED, 174 DESIGN CHOICE) -/
def transposeTile (f : Nat) (grp : List Tile) (j idx : Nat) (last : Bool) : Tile :=
  let rows := grp.flatMap fun t => chunks 128 8 t.data
  let data := (List.range 8).flatMap fun r => rows.flatMap fun row => slice row (2 * (8 * j + r)) 2
  ⟨f, 0xFF, idx % 65536, last, grp.any (·.poison), data, []⟩

/-! ### The adapter station's arithmetic (R261) -/

/-- Partial k of a down operation: D[k][c] × h[c] over the slice in groups of 8 (R261). -/
def adpDown (w k : Nat) (down : List Byte) (h : List XNum) : XNum :=
  let d := (List.range w).map fun c => bf16.dec (leAt down (2 * (k * w + c)) 2)
  accRow 8 XNum.zero d h

/-- Element c of an up operation: h[c] + s × Σ U[c][k] × a[k] (R261). -/
def adpUp (r c : Nat) (scale : XNum) (up : List Byte) (a : List XNum) (h : XNum) : XNum :=
  let u := (List.range r).map fun k => bf16.dec (leAt up (2 * (c * r + k)) 2)
  let sum := accRow (Nat.min 8 r) XNum.zero u a
  rne40 (h.add (rne40 (scale.mul sum)))

end Sys2Proof.Machine
end

