-- ==== Sys2Proof/Machine/Skein.lean ====
section
/-!
DEFINITION. The skein engine (chapter "Skeins, tiles and stations"): push, start, the flow of tiles through a skein's stages,
completion, cancel, semaphores; and the commands of its registers.
-/
namespace Sys2Proof.Machine

open Sys2Proof

/-! ### Access to a running skein -/

/-- The running skein with a push number. -/
def State.sk (s : State) (c no : Nat) : Option Skein := (s.cl c).eng.slots.find? fun k => k.no == no

/-- Change a running skein. -/
def State.modSk (s : State) (c no : Nat) (f : Skein → Skein) : State :=
  s.modEng c fun e => { e with slots := e.slots.map fun k => if k.no == no then f k else k }

/-- Change a stage of a running skein. -/
def State.modStage (s : State) (c no j : Nat) (f : Stage → Stage) : State :=
  s.modSk c no fun k => { k with stages := k.stages.zipIdx.map fun p => if p.2 == j then f p.1 else p.1 }

/-- Control, status and reason fields of a companion station by code (Tables 6.5, 6.6; R267). -/
def stnEn (stn : Nat) : Fld :=
  if stn = 0x10 then VEC_CTL_en else if stn = 0x11 then SUM_CTL_en else if stn = 0x12 then CNV_CTL_en
  else if stn = 0x13 then GTH_CTL_en else ADP_CTL_en
def stnReason (stn : Nat) : Fld :=
  if stn = 0x10 then VEC_CTL_reason else if stn = 0x11 then SUM_CTL_reason else if stn = 0x12 then CNV_CTL_reason
  else if stn = 0x13 then GTH_CTL_reason else ADP_CTL_reason
def stnRunning (stn : Nat) : Fld :=
  if stn = 0x10 then VEC_STAT_running else if stn = 0x11 then SUM_STAT_running else if stn = 0x12 then CNV_STAT_running
  else if stn = 0x13 then GTH_STAT_running else ADP_STAT_running
def stnTilesOut (stn : Nat) : Fld :=
  if stn = 0x10 then VEC_STAT_tiles_out else if stn = 0x11 then SUM_STAT_tiles_out else if stn = 0x12 then CNV_STAT_tiles_out
  else if stn = 0x13 then GTH_STAT_tiles_out else ADP_STAT_tiles_out

/-- Buffer fields of a matrix station's status. -/
def bufFld (b : Nat) : Fld := if b = 0 then MAT_STAT_buf0 else MAT_STAT_buf1

/-- State of an accumulator buffer: 0 free, 1 accumulating, 2 draining, 3 held. -/
def State.bufSt (s : State) (c m b : Nat) : Nat := s.get (bufFld b) c m

/-- A matrix station's kept state. -/
def State.mat (s : State) (c m : Nat) : MatStn := tget MatStn.init (s.cl c).mats m
def State.modMat (s : State) (c m : Nat) (f : MatStn → MatStn) : State :=
  s.modCl c fun x => { x with mats := tmod MatStn.init x.mats m f }

/-- A buffer of a matrix station. -/
def MatStn.buf (x : MatStn) (b : Nat) : AccBuf := if b = 0 then x.b0 else x.b1
def MatStn.setBuf (x : MatStn) (b : Nat) (v : AccBuf) : MatStn := if b = 0 then { x with b0 := v } else { x with b1 := v }

/-- The buffer that is held, if one is. -/
def State.heldBuf (s : State) (c m : Nat) : Option Nat :=
  if s.bufSt c m 0 = 3 then some 0 else if s.bufSt c m 1 = 3 then some 1 else none

/-- The buffer of the next accumulation, once it is free: the other of the last one's (R96). (Log 160 DESIGN CHOICE) -/
def State.freeBuf (s : State) (c m : Nat) : Option Nat :=
  if s.bufSt c m (s.mat c m).next = 0 then some (s.mat c m).next else none

/-- Free the accumulating and draining buffers of a matrix station; a held buffer stays held (R118). -/
def State.matDiscard (s : State) (c m : Nat) : State :=
  [0, 1].foldl (fun (s : State) b =>
    if s.bufSt c m b = 1 ∨ s.bufSt c m b = 2 then
      (s.put (bufFld b) c 0 m).modMat c m fun x => x.setBuf b AccBuf.init
    else s) s

/-- A skein feeds and emits nothing more: its tiles are discarded (R104, R118). -/
def Skein.stop (k : Skein) : Skein :=
  { k with ended := true, starving := [],
           stages := k.stages.map fun st => { st with p0 := [], p1 := [], occ0 := 0, occ1 := 0, outq := [], grp := [], mat := none } }

/-- A skein still takes tiles of its source and its side operand. -/
def Skein.takes (k : Skein) : Bool := !(k.ended || k.closing || k.cancelled)

/-- Is a transfer over: every block has been answered or refused. -/
def Xfer.settled (t : Xfer) : Bool := decide (t.n ≤ t.done.length + t.bad)

/-- A queue whose skein feeds and emits nothing more (R215): no longer halted, nothing to be written again; reads are dropped,
and writes already issued are awaited. -/
def StrQ.quit (q : StrQ) : StrQ :=
  { q with halted := false, retrying := false,
           xfers := (q.xfers.filter fun t => !(t.settled && t.write.isSome)).map fun t => { t with dropped := true } }

/-- Sink transfers outstanding in a queue. -/
def StrQ.writes (q : StrQ) : Nat := (q.xfers.filter fun t => t.write.isSome).length

/-- A skein ends with a reason (the first one stays, R509); its matrix stations discard what is not complete, and its queues
stop (R215). -/
def State.endSk (s : State) (c no code : Nat) : State :=
  match s.sk c no with
  | none => s
  | some k =>
    if k.ended then s
    else
      let s1 := k.stages.foldl (fun (s : State) st => if st.stn < 16 then s.matDiscard c st.stn else s) s
      let quit := fun (q : StrQ) => if q.bound == some no then q.quit else q
      let s2 := s1.modCl c fun x => { x with strq := x.strq.map fun p => (p.1, quit p.2) }
      let out := (s2.q c (dDstQ k.w)).writes
      s2.modSk c no fun k =>
        { k.stop with reason := if k.reason = 0 then code else k.reason, sinkOut := if k.dstLocal then 0 else out }

/-- A station ends its skein: the reason stands in its control register, and the context faults (R122, R172). -/
def State.stnFail (s : State) (c no stn code : Nat) : State :=
  let s1 := s.endSk c no code
  let s2 := if stn < 16 then s1.put MAT_CTL_reason c code stn else s1.put (stnReason stn) c code
  s2.ctxFault c code

/-- The last tile of a list marked as the last of its stream. -/
def markLast : List Tile → List Tile
  | [] => []
  | [t] => [{ t with last := true }]
  | a :: b :: t => a :: markLast (b :: t)

/-- Tiles that a matrix station's output stage holds back and emits at the end of its stream (R110, R115): the kept one, and an
8-bit tile whose upper half stays unwritten. -/
def MatRun.rest (r : MatRun) : List Tile :=
  (match r.kept with | some t => [t] | none => []) ++ (match r.half with | some h => [loneHalf h] | none => [])

/-! ### Semaphores (R73) -/

/-- The engine stops launching with a reason, and the context faults (R65). -/
def State.skStop (s : State) (c code : Nat) : State :=
  ((s.modEng c fun e => { e with stopped := true }).put CTL_SK_CTL_reason c code).ctxFault c code

/-- Increment a semaphore; past 65,535 it stays there, the engine stops and the context faults with 0x023B (R73, R65). (Log 36 DEDUCED) -/
def State.semAdd (s : State) (c sem amount : Nat) : State :=
  let v := s.get CTL_SEM_value c sem + amount
  if v ≤ 65535 then s.put CTL_SEM_value c v sem else (s.put CTL_SEM_value c 65535 sem).skStop c 0x023B

/-! ### Tiles from and to memory -/

/-- Companion bytes of a tile of a format. -/
def compLen (f : Nat) : Nat := if f = 4 then 64 else 0

/-- Read a tile (and its companion at `ca`) from the own module's memory, with the counts, events and stamps of the read. -/
def State.readTile (s : State) (a ca f : Nat) : State × List Byte × List Byte × Bool :=
  let n := compLen f
  let p := s.rdPoison a 1024 || (n != 0 && s.rdPoison ca n)
  let s1 := (s.noteRead a 1024).stamp a 1024
  let s2 := if n = 0 then s1 else (s1.noteRead ca n).stamp ca n
  (s2, s.rdMem a 1024, (if n = 0 then [] else s.rdMem ca n), p)

/-- The bytes of a tile that a sink writes: rows whose mask bit is clear keep their contents (R58). -/
def sinkBytes (t : Tile) : List (Option Byte) :=
  let rb := fmtRowBytes t.fmt
  (List.range 1024).map fun i => if nbit t.mask (i / rb) then some (lget 0 t.data i) else none

/-- The bytes of a ply-4 companion that a sink writes in dst_mode 0b00: 8 B of each live row (R58). -/
def sinkComp (t : Tile) : List (Option Byte) :=
  (List.range 64).map fun i => if nbit t.mask (i / 8) then some (lget 0 t.comp i) else none

/-- The first tile address of the stream that carries ply-4, whose companions stand beside it. -/
def sinkComp0 (w : List Nat) : Nat := sinkAddr w 0

/-- Physical offset of a local stream's address, which must lie in the own cluster's window (R60); else 0x0218, or the
resolution's own reason. -/
def State.localAddr (s : State) (c : Nat) (k : Acc) (addr len : Nat) : Chk Nat :=
  match s.resolve c k addr len with
  | .ok (.mem a) => if a < onchipTop ∧ (k = .cross ∨ a / 0x800000 = c) then .ok a else .error 0x0218
  | .ok _ => .error 0x0218
  | .error e => .error e

/-- The sink takes one tile through the local operand path: it is written and acknowledged (R60, R74). -/
def State.sinkLocal (s : State) (c no : Nat) (k : Skein) (t : Tile) : State :=
  let addr := sinkAddr k.w k.sinkN
  let ca := compAddr k.w (sinkComp0 k.w) k.sinkN
  match s.localAddr c (.stream true) addr 1024,
        (if t.fmt = 4 then s.localAddr c (.stream true) ca 64 else .ok 0) with
  | .ok a, .ok pa =>
    let s1 := if t.mask = 0 then s else s.wrMem a (sinkBytes t) t.poison
    let s2 := if t.fmt = 4 ∧ t.mask ≠ 0 then s1.wrMem pa (sinkComp t) t.poison else s1
    s2.modSk c no fun k =>
      { k with sinkN := k.sinkN + 1, tilesOut := k.tilesOut + (if t.mask = 0 then 0 else 1), poisoned := k.poisoned || t.poison }
  | .error e, _ => ((s.endSk c no e).addrFault c e addr)
  | _, .error e => ((s.endSk c no e).addrFault c e ca)

/-! ### The flow of tiles -/

/-- Depth of a station's port in tiles (Table 3.3). -/
def portDepth (p : Nat) : Nat := if p = 0 then 4 else 2

/-- A port of a stage has a free slot. -/
def Stage.room (st : Stage) (p : Nat) : Bool := decide ((if p = 0 then st.occ0 else st.occ1) < portDepth p)

/-- A tile enters a port. (Log 31 DEDUCED) -/
def Stage.enter (st : Stage) (p : Nat) (t : Tile) : Stage :=
  if p = 0 then { st with p0 := st.p0 ++ [t], occ0 := st.occ0 + 1 } else { st with p1 := st.p1 ++ [t], occ1 := st.occ1 + 1 }

/-- Is port 1 of a stage fed by the side operand. -/
def sideFed (w : List Nat) (j : Nat) : Bool := dHasSide w && dSideStage w == j

/-- Emit tiles: they wait in the stage's output until the next port or the sink takes them. -/
def Stage.emit (st : Stage) (ts : List Tile) : Stage :=
  { st with outq := st.outq ++ ts, emitted := st.emitted + ts.length }

/-- Emit tiles numbered on from those emitted before (R57). -/
def Stage.emitN (st : Stage) (ts : List Tile) : Stage :=
  st.emit (ts.zipIdx.map fun p => { p.1 with idx := (st.emitted + p.2) % 65536 })

/-- Count emitted tiles in the station's status. -/
def State.countOut (s : State) (c stn n : Nat) : State := if stn < 16 then s else s.bump (stnTilesOut stn) c 0 0 n

/-- A stage before the matrix station that ends its skein: what it holds is discarded (R104). -/
def Stage.emptied (st : Stage) : Stage := { st with p0 := [], p1 := [], occ0 := 0, occ1 := 0, outq := [], grp := [], mat := none }

/-- The matrix station that ends its skein (R104): what it has not completed is discarded, and what it has completed leaves. -/
def Stage.closed (st : Stage) : Stage :=
  let st1 := { st with p0 := [], p1 := [], occ0 := 0, occ1 := 0, inEnd := true }
  match st.mat with
  | none => st1
  | some r =>
    let r1 := { r with sets := [], pair := none, cur := none, seq := [], stopped := true }
    if r.draining.isEmpty then { (st1.emitN (markLast r.rest)) with mat := some { r1 with half := none, kept := none } }
    else { st1 with mat := some r1 }

/-- A matrix station ends its skein while it runs (R100, R104): the accumulation under way is discarded, nothing more is fed, the
complete ones are drained and emitted, and the context faults. (Log 179 DEDUCED) -/
def State.matFail (s : State) (c no j m code : Nat) : State :=
  let s1 := [0, 1].foldl (fun (s : State) b =>
    if s.bufSt c m b = 1 then (s.put (bufFld b) c 0 m).modMat c m fun x => x.setBuf b AccBuf.init else s) s
  let quit := fun (q : StrQ) => if q.bound == some no && decide (q.role < 2) then q.quit else q
  let s2 := s1.modCl c fun x => { x with strq := x.strq.map fun p => (p.1, quit p.2) }
  let s3 := s2.modSk c no fun k =>
    { k with reason := if k.reason = 0 then code else k.reason, closing := true, starving := [],
             stages := k.stages.zipIdx.map fun p => if p.2 < j then p.1.emptied else if p.2 = j then p.1.closed else p.1 }
  (s3.put MAT_CTL_reason c code m).ctxFault c code

/-- The head of a stage's output goes to the next stage's port, or to a local sink. -/
def State.flush1 (s : State) (c no j : Nat) (k : Skein) (st : Stage) : Option State :=
  match st.outq with
  | [] => none
  | t :: rest =>
    if j + 1 < k.stages.length then
      match k.stages[j + 1]? with
      | none => none
      | some nx =>
        let p := nx.port
        if nx.room p then
          some ((s.modStage c no j fun x => { x with outq := rest }).modStage c no (j + 1) fun x => x.enter p t)
        else none
    else if k.dstLocal then
      some ((s.modStage c no j fun x => { x with outq := rest }).sinkLocal c no k t)
    else none

/-- A port-1 tile into the VEC operand cache (R150). (Log 39 DEDUCED) -/
def State.vecCache (s : State) (c no j : Nat) (o : Nat) (st : Stage) (t : Tile) : State :=
  let at_ := nfld o 56 6 + st.p1n
  if 64 ≤ at_ then s.stnFail c no 0x10 0x0423
  else
    let s1 := s.modCl c fun x =>
      { x with cache := t.data.zipIdx.foldl (fun m p => tset 0 m (at_ * 1024 + p.2) p.1) x.cache,
               cachePoison := tset false x.cachePoison at_ t.poison }
    s1.modStage c no j fun x => { x with p1n := x.p1n + 1, p1end := x.p1end || t.last }

/-- Write the summary record into the CTL registers (R154, Table 6.17). -/
def State.putSumm (s : State) (c id : Nat) (m : Summ) : State :=
  let s1 := s.wreg CTL_SUMM_TAG c 0 0 (id + 2 ^ 16 + b2n m.poisoned * 2 ^ 17 + (m.nonfinite % 2 ^ 32) * 2 ^ 32)
  let s2 := s1.wreg CTL_SUMM_MAX c 0 0 m.max
  let s3 := s2.wreg CTL_SUMM_IDX c 0 0 (m.argmax % 2 ^ 32 + (m.cross % 2 ^ 32) * 2 ^ 32)
  let s4 := s3.wreg CTL_SUMM_SUM c 0 0 m.sum
  let s5 := s4.wreg CTL_SUMM_ABOVE c 0 0 m.sumAbove
  s5.wreg CTL_SUMM_COUNT c 0 0 (m.above % 2 ^ 32 + (m.live % 2 ^ 32) * 2 ^ 32)

/-- A main tile into VEC: blocks form from one tile, or from four in ACC40; combine takes pcount blocks (R147, R151, R152). -/
def State.vecMain (s : State) (c no j : Nat) (k : Skein) (o : Nat) (st : Stage) (t : Tile) : State :=
  let fn := nfld o 1 5
  let grp := st.grp ++ [t]
  let unit := unitTiles t.fmt
  let need := if fn = 0x11 then 4 * nfld o 16 8 else unit
  if grp.length < need then
    if t.last then s.stnFail c no 0x10 0x0421
    else s.modStage c no j fun x => { x with grp := grp, n := x.n + 1 }
  else
    let f := nfld o 8 4
    let out : Option (VecOut × Nat) :=
      if fn = 0x11 then
        let blocks := chunks 4 grp.length grp
        let masks := blocks.map blockMask
        match masks with
        | [] => none
        | m0 :: _ =>
          if masks.all (· == m0) then
            let vals := blocks.map fun b => b.flatMap Tile.vals
            let xs := (List.range 512).map fun i => combineElem (vals.map fun v => lget XNum.zero v i)
            some (s.vecBlock c k o st.blk m0 xs 0 k.summ, m0)
          else none
      else
        let m := blockMask grp
        some (s.vecBlock c k o st.blk m (grp.flatMap Tile.vals) (lget 0 st.acc 0) k.summ, m)
    match out with
    | none => s.stnFail c no 0x10 0x0422
    | some (r, m) =>
      let scan := fn == 0x0F || fn == 0x10
      let bp := s.vecBPoison c o st.blk
      let any := grp.any (·.poison)
      -- an ACC40 tile formed from ACC40 tiles depends on those of its own rows; in a scan, on all before it as well (R70)
      let carried := lget false st.accP 0
      let dep := fun (q : Nat) =>
        if f = 5 ∧ unit = 4 then
          (if scan then carried || (grp.take (q + 1)).any (·.poison) else grp.zipIdx.any fun p => p.2 % 4 == q && p.1.poison)
        else carried || any
      let tiles := poisonTiles (blockTiles f m st.emitted t.last false r.bits.reverse) fun q => dep q || bp
      let s1 := s.modStage c no j fun x =>
        { (x.emit tiles) with grp := [], n := x.n + 1, blk := x.blk + 1, acc := [r.pre], inEnd := x.inEnd || t.last,
                              accP := [carried || (scan && (any || bp))] }
      let summ := r.summ.map fun m => { m with poisoned := m.poisoned || tiles.any (·.poison) }
      let s2 := (s1.modSk c no fun k => { k with summ := summ }).countOut c 0x10 tiles.length
      -- the record stands in the registers once the final tile has been emitted (R154)
      match summ with
      | some y => if t.last then s2.putSumm c (dId k.w) y else s2
      | none => s2

/-- Output blocks of SUM from its waiting results (R156): whole blocks, and the last one padded. -/
def sumEmit (f : Nat) (st : Stage) (final : Bool) : Stage :=
  -- the results that an output tile holds decide on its poison (R70)
  let dep := fun (q : Nat) => ((st.resP.drop (128 * q)).take (if f = 5 then 128 else 512)).any id
  if 512 ≤ st.res.length then
    let tiles := poisonTiles (blockTiles f 0xFF st.emitted (final && st.res.length == 512) false (st.res.take 512)) dep
    { (st.emit tiles) with res := st.res.drop 512, resP := st.resP.drop 512 }
  else if final && !st.res.isEmpty then
    let rows := cdiv st.res.length 64
    let tiles := poisonTiles (blockTiles f (2 ^ rows - 1) st.emitted true false (padTo 0 512 st.res)) dep
    { (st.emit tiles) with res := [], resP := [] }
  else st

/-- A main tile into SUM (R155, R156). -/
def State.sumMain (s : State) (c no j : Nat) (k : Skein) (o : Nat) (st : Stage) (t : Tile) : State :=
  let grp := st.grp ++ [t]
  if grp.length < unitTiles t.fmt then
    if t.last then s.stnFail c no 0x11 0x0461 else s.modStage c no j fun x => { x with grp := grp, n := x.n + 1 }
  else
    let fn := nfld o 1 2
    let axis := nfld o 3 1
    let f := nfld o 4 4
    let span := nfld o 16 16
    let acc := sumBlock fn axis (blockMask grp) (grp.flatMap Tile.vals) st.acc
    let done := st.blk % span + 1 == span
    if t.last && !done then s.stnFail c no 0x11 0x0461
    else
      let first := st.blk / span * acc.length
      let mode := fun i => k.mode (nbit o 8) (s.get SUM_SR_tensor_id c) (s.get SUM_SR_elem_base c + first + i)
      let res := if done then st.res ++ acc.zipIdx.map (fun p => (fpOf f).enc (mode p.2) (acc40.dec p.1)) else st.res
      -- along the row axis a reduction depends on the tile that holds its row (R70)
      let hit := fun (i : Nat) => if t.fmt = 5 ∧ axis = 0 then (lget t grp (i / 2)).poison else grp.any (·.poison)
      let accP := (List.range acc.length).map fun i => lget false st.accP i || hit i
      let st1 := { st with grp := [], n := st.n + 1, blk := st.blk + 1, acc := if done then [] else acc, res := res,
                           inEnd := st.inEnd || t.last, accP := if done then [] else accP,
                           resP := if done then st.resP ++ accP else st.resP }
      let st2 := sumEmit f st1 t.last
      (s.modStage c no j fun _ => st2).countOut c 0x11 (st2.emitted - st.emitted)

/-- A main tile into CNV (R157, R158). -/
def State.cnvMain (s : State) (c no j : Nat) (k : Skein) (o : Nat) (st : Stage) (t : Tile) : State :=
  let wi := fmtW t.fmt
  let fo := nfld o 1 4
  let wo := fmtW fo
  let unit := unitTiles t.fmt
  let need := if wi ≤ wo then wo / wi * unit else unit
  let grp := st.grp ++ [t]
  if grp.length < need then
    if t.last then s.stnFail c no 0x12 0x04A2 else s.modStage c no j fun x => { x with grp := grp, n := x.n + 1 }
  else
    let units := chunks unit grp.length grp
    let masks := units.map blockMask
    let m0 := lget 0 masks 0
    if masks.all (· == m0) then
      let rows := units.map fun u => unitRows wi (u.flatMap Tile.vals)
      let p := grp.any (·.poison)
      let outs := if wi ≤ wo then [(List.range 8).map fun r => rows.flatMap fun u => lget [] u r]
        else (List.range (wi / wo)).map fun q => (lget [] rows 0).map fun row => (row.drop (q * wo)).take wo
      let st1 := outs.zipIdx.foldl (fun (x : Stage) u =>
        let ts := s.cnvUnit c k o x.blk m0 u.1 (t.last && u.2 + 1 == outs.length) p x.emitted
        let ts := if t.fmt = 5 ∧ fo = 5 then poisonTiles ts fun q => (lget t grp q).poison else ts   -- tile by tile (R70)
        { (x.emit ts) with blk := x.blk + 1 }) { st with grp := [], n := st.n + 1, inEnd := st.inEnd || t.last }
      (s.modStage c no j fun _ => st1).countOut c 0x12 (st1.emitted - st.emitted)
    else s.stnFail c no 0x12 0x04A1

/-- Gather one output tile: rows 8u to 8u + 7 named by eight indices (R160). (Log 40 DEDUCED) -/
def State.gatherTile (s : State) (c o : Nat) (ix : List Nat) (idx : Nat) (last poison : Bool) : State × Tile :=
  let r := ix.zipIdx.foldl (fun (a : State × List Byte × Nat × Bool) p =>
    if p.1 = 0xFFFF then (a.1, a.2.1 ++ List.replicate 128 0, a.2.2.1, a.2.2.2)
    else
      let addr := gthRow c o p.1
      ((a.1.noteRead addr 128).stamp addr 128,
        a.2.1 ++ a.1.rdMem addr 128, a.2.2.1 + 2 ^ p.2, a.2.2.2 || a.1.rdPoison addr 128)) (s, [], 0, poison)
  (r.1, ⟨nfld o 4 4, r.2.2.1, idx % 65536, last, r.2.2.2, r.2.1, []⟩)

/-- Gather the 64 output tiles of an index tile, up to the first index out of range (R160). -/
def State.gatherAll (s : State) (c o : Nat) (ix : List (List Nat)) (emitted : Nat) (last poison : Bool) : State × List Tile × Bool :=
  ix.zipIdx.foldl (fun (a : State × List Tile × Bool) p =>
    if a.2.2 then a
    else if p.1.any (fun i => i != 0xFFFF && !(decide (i < nfld o 32 16))) then (a.1, a.2.1, true)
    else
      let g := a.1.gatherTile c o p.1 (emitted + p.2) (last && p.2 + 1 == ix.length) poison
      (g.1, a.2.1 ++ [g.2], false)) (s, [], false)

/-- Scatter the rows of a data tile to the table rows their indices name, up to the first index out of range (R160, R161); an index
comes with its poison, which marks the row it names (R70). (Log 40 DEDUCED) -/
def State.scatterRows (s : State) (c o : Nat) (t : Tile) (ix : List (Nat × Bool)) : State × Nat × Bool :=
  ix.zipIdx.foldl (fun (a : State × Nat × Bool) p =>
    if a.2.2 || p.1.1 == 0xFFFF then a
    else if nfld o 32 16 ≤ p.1.1 then (a.1, a.2.1, true)
    else if !(nbit t.mask p.2) then a
    else (a.1.wrData (gthRow c o p.1.1) (slice t.data (128 * p.2) 128) (t.poison || p.1.2), a.2.1 + 1, false)) (s, 0, false)

/-- A main tile into GTH (R160 to R163). A data row of a scatter for which no index is left names no row. (Log 173 DESIGN CHOICE) -/
def State.gthMain (s : State) (c no j : Nat) (o : Nat) (st : Stage) (t : Tile) : State :=
  match nfld o 1 2 with
  | 0 =>
    let r := s.gatherAll c o (chunks 8 64 (indexElems t)) st.emitted t.last t.poison
    let s1 := (r.1.modStage c no j fun x => { (x.emit r.2.1) with n := x.n + 1, inEnd := x.inEnd || t.last }).countOut c 0x13 r.2.1.length
    if r.2.2 then s1.stnFail c no 0x13 0x04D1 else s1
  | 1 =>
    let ix := padTo (0xFFFF, false) 8 ((st.idx.zip st.accP).take 8)
    let r := s.scatterRows c o t ix
    let s1 := (r.1.modStage c no j fun x => { x with n := x.n + 1, idx := x.idx.drop 8, accP := x.accP.drop 8, inEnd := x.inEnd || t.last }).bump GTH_STAT_tiles_out c 0 0 r.2.1
    let s1 := s1.modSk c no fun k => { k with poisoned := k.poisoned || t.poison || ix.any (·.2) }
    if r.2.2 then s1.stnFail c no 0x13 0x04D1 else s1
  | _ =>
    let grp := st.grp ++ [t]
    if t.mask ≠ 0xFF ∨ (t.last ∧ grp.length < 8) then s.stnFail c no 0x13 0x04D2
    else if grp.length < 8 then s.modStage c no j fun x => { x with grp := grp, n := x.n + 1 }
    else
      let ts := (List.range 8).map fun q => transposeTile (nfld o 4 4) grp q (st.emitted + q) (t.last && q == 7)
      (s.modStage c no j fun x => { (x.emit ts) with grp := [], n := x.n + 1, inEnd := x.inEnd || t.last }).countOut c 0x13 8

/-! ### The matrix station's flow -/

/-- Stationary tiles due on port 1 of a stage in this skein, when the side operand feeds it. -/
def statDue (k : Skein) (j : Nat) : Nat := if sideFed k.w j then dSideTiles k.w else 0

/-- Begin an accumulation, if a buffer serves it (R96, R115): the held one for a resume, else the next one. -/
def State.matBegin (s : State) (c no j m : Nat) (r : MatRun) : Option (State × Nat) :=
  let resume := opInit r.opA == 2 && r.accs == 0
  match (if resume then s.heldBuf c m else s.freeBuf c m) with
  | none => none
  | some b =>
    let s1 := s.put (bufFld b) c 1 m
    let s2 := if resume then (s1.put MAT_STAT_held_poison c 0 m).modMat c m fun x => { x with next := 1 - b }
      else s1.modMat c m fun x => { x.setBuf b (s.matInit c m r.opA r.opB) with next := 1 - b }
    some (s2.modStage c no j fun x => { x with mat := x.mat.map fun r => { r with cur := some b, accs := r.accs + 1, passes := 0 } }, b)

/-- Hold the current accumulation (R115). -/
def State.matHold (s : State) (c no j m b : Nat) (opA : Nat) : State :=
  let s1 := ((s.put (bufFld b) c 3 m).put MAT_STAT_held_poison c (b2n ((s.mat c m).buf b).poison) m).modMat c m fun x =>
    { x with heldMul := opMul opA, heldFeed := opFeed opA, heldGroup := opGroup opA }
  s1.modStage c no j fun x =>
    match x.mat with
    | none => x
    | some r =>
      -- the output tile kept back, or the 8-bit half that awaited the held accumulation, leaves with last set
      if r.draining.isEmpty then { (x.emitN (markLast r.rest)) with mat := some { r with cur := none, half := none, kept := none } }
      else { x with mat := some { r with cur := none } }

/-- The end of a pass (R97, R98, R104, R115). -/
def State.matPassEnd (s : State) (c no j m b : Nat) (k : Skein) (r : MatRun) (last : Bool) : State :=
  let s1 := s.bump MAT_STAT_passes c m
  let hide := opHide r.opA == 1
  let count := opCount r.opA
  let passes := r.passes + 1
  let used := r.used + 1
  let sets := if !hide || used == count then r.sets.drop 1 else r.sets
  let used := if !hide || used == count then 0 else used
  let whole := hide || passes == count
  let upd := fun (s : State) (draining : List Nat) (cur : Option Nat) => s.modStage c no j fun x =>
    { x with inEnd := x.inEnd || last,
             mat := x.mat.map fun r => { r with sets := sets, used := used, passTiles := 0, pair := none, passes := passes,
                                                cur := cur, draining := draining } }
  if last then
    let loaded := match k.stages[j]? with | some st => st.p1n | none => 0
    let left := !((if used = 0 then sets else sets.drop 1).isEmpty) || decide (loaded < statDue k j) ||
      (match k.stages[j]? with | some st => !st.p1.isEmpty | none => false)
    let end_ := if whole then upd (s1.put (bufFld b) c 2 m) (r.draining ++ [b]) none else upd s1 r.draining (some b)
    if !whole && opEndHold r.opA = 0 then end_.matFail c no j m 0x0331
    else if left then (if opEndHold r.opA = 1 then upd s1 r.draining (some b) else end_).matFail c no j m 0x0333
    else if opEndHold r.opA = 1 then (upd s1 r.draining (some b)).matHold c no j m b r.opA
    else end_
  else if whole then upd (s1.put (bufFld b) c 2 m) (r.draining ++ [b]) none
  else upd s1 r.draining (some b)

/-- A moving tile into the array (R87, R90, R102); `none` while it must hold (R92). -/
def State.matMain (s : State) (c no j m : Nat) (k : Skein) (st : Stage) (r : MatRun) (t : Tile) (rest : List Tile) : Option State :=
  let take := fun (s : State) => s.modStage c no j fun x => { x with p0 := rest, n := x.n + 1 }
  match r.sets with
  | [] =>
    if r.passTiles = 0 ∧ r.pair.isNone ∧ statDue k j ≤ st.p1n ∧ st.p1.isEmpty then
      some ((take s).matFail c no j m 0x0332)
    else none
  | stat :: _ =>
    if opMul r.opA = 2 ∧ r.pair.isNone then
      if t.last then some ((take s).matFail c no j m 0x0331)
      else some ((take s).modStage c no j fun x => { x with mat := x.mat.map fun r => { r with pair := some t } })
    else
      let mov := match r.pair with | some p => [p, t] | none => [t]
      let begun : Option (State × Nat) := match r.cur with
        | some b => some (s, b)
        | none => s.matBegin c no j m r
      match begun with
      | none => none
      | some (s0, b) =>
        let g := matG (opGroup r.opA)
        let first := match mov with | x :: _ => x.mask | [] => 0
        let dead := ((List.range (64 / g)).filter fun q => !(rowLive g first q)).length
        let s1 := (take s0).modMat c m fun x => x.setBuf b (matTile r.opA stat mov r.passTiles (x.buf b))
        let s2 := if dead = 0 then s1 else s1.bump MAT_STALL_bubbles c m 0 (dead * (if opMul r.opA = 2 then 16 else 8))
        let r1 := match r.cur with
          | some _ => r
          | none => { r with cur := some b, accs := r.accs + 1, passes := 0 }
        if r.passTiles + 1 = opMt r.opA then some (s2.matPassEnd c no j m b k r1 t.last)
        else if t.last then some (s2.matFail c no j m 0x0331)
        else some (s2.modStage c no j fun x => { x with mat := x.mat.map fun r => { r with passTiles := r.passTiles + 1, pair := none } })

/-- Values of a slide-mode moving tile. -/
def slideV (opA : Nat) : Nat := if opMul opA = 0 then 512 else 1024

/-- Accumulations of a slide-mode skein of `n` moving tiles: (V/64)(n − 1) (R99). -/
def slideAccs (opA n : Nat) : Nat := slideV opA / 64 * (n - 1)

/-- Has a slide-mode run accumulations left, after `n` moving tiles of which the last may have come (R99). -/
def MatRun.slideMore (r : MatRun) (n : Nat) (inEnd : Bool) : Bool :=
  opFeed r.opA == 1 && !r.stopped && (!inEnd || decide (r.accs < slideAccs r.opA n))

/-- Moving tiles of a slide-mode run that no remaining accumulation reads any more: accumulation a reads on from value 64a (R100). -/
def slideDone (opA seqBase accs : Nat) : Nat := 64 * accs / slideV opA - seqBase

/-- One step of slide mode: an accumulation whose values are all present runs, or the next tile joins the sequence (R99, R100). -/
def State.matSlideStep (s : State) (c no j m : Nat) (k : Skein) (st : Stage) (r : MatRun) : Option State :=
  let v := slideV r.opA
  let have_ := (r.seqBase + r.seq.length) * v
  let more := r.slideMore st.n st.inEnd
  let ready := more && decide (64 * r.accs + 63 + matK (opMul r.opA) 8 ≤ have_)
  if ready then
    match r.sets with
    | [] => if statDue k j ≤ st.p1n ∧ st.p1.isEmpty then some (s.matFail c no j m 0x0332) else none
    | stat :: _ =>
      match s.matBegin c no j m r with
      | none => none
      | some (s0, b) =>
        let x := (r.seq.flatMap Tile.vals).drop (64 * r.accs - r.seqBase * v)
        let poison := r.seq.any (·.poison)
        let s1 := s0.modMat c m fun y =>
          let nb := matSlide r.opA stat x (y.buf b)
          y.setBuf b { nb with poison := nb.poison || poison }
        let more := { r with accs := r.accs + 1 }.slideMore st.n st.inEnd
        let drop := if more then slideDone r.opA r.seqBase (r.accs + 1) else r.seq.length
        let used := r.used + 1
        let sets := if used = opCount r.opA then r.sets.drop 1 else r.sets
        let used := if used = opCount r.opA then 0 else used
        let s2 := (s1.bump MAT_STAT_passes c m).put (bufFld b) c 2 m
        let left := !more && (!((if used = 0 then sets else sets.drop 1).isEmpty) || decide (st.p1n < statDue k j) || !st.p1.isEmpty)
        let s3 := s2.modStage c no j fun x => { x with mat := x.mat.map fun q =>
          { q with cur := none, draining := q.draining ++ [b], sets := sets, used := used,
                   seq := q.seq.drop drop, seqBase := q.seqBase + drop } }
        some (if left then s3.matFail c no j m 0x0333 else s3)
  else if !more then none
  else match st.p0 with
    | [] => none
    | t :: rest =>
      let s0 := s.modStage c no j fun x => { x with p0 := rest, n := x.n + 1, inEnd := x.inEnd || t.last }
      if t.last ∧ st.n = 0 then some (s0.matFail c no j m 0x0331)
      else if t.mask ≠ 0xFF then some (s0.matFail c no j m 0x0334)
      else some (s0.modStage c no j fun x => { x with mat := x.mat.map fun q => { q with seq := q.seq ++ [t] } })

/-- KiB of the output stage in use when the next tile begins (R95, R110): tiles that wait, and the kept one. The room of an 8-bit tile
of which half is filled was taken when it began, and the next drain fills it. -/
def MatRun.stage (r : MatRun) (st : Stage) : Nat := st.outq.length + (match r.kept with | some _ => 1 | none => 0)

/-- A stage after one tile of its oldest draining buffer has gone through the output path; `done` says that it was the buffer's last
(R95, R110, R115). -/
def Stage.drained (st : Stage) (r : MatRun) (t : Tile) (done : Bool) : Stage :=
  let eight := elemBytes t.fmt == 1
  let out : List Tile := if eight then (match r.half with | some h => [joinHalves h t] | none => []) else [t]
  let half : Option Tile := if eight then (match r.half with | some _ => none | none => some t) else none
  let r1 : MatRun := if done then { r with draining := r.draining.drop 1, drained := r.drained + 1, go := false, part := 0, half := half }
    else { r with part := r.part + 1, half := half }
  if done && st.inEnd && r1.draining.isEmpty && r.cur.isNone && !(r.slideMore st.n st.inEnd) then
    let all := (match r.kept with | some t => [t] | none => []) ++ out ++ (match half with | some h => [loneHalf h] | none => [])
    { (st.emitN (markLast all)) with mat := some { r1 with half := none, kept := none } }
  else if opEndHold r.opA == 1 then
    let all := (match r.kept with | some t => [t] | none => []) ++ out
    { (st.emitN all.dropLast) with mat := some { r1 with kept := all.getLast? } }
  else { (st.emitN out) with mat := some r1 }

/-- The next tile of the oldest draining buffer goes through the output path; after its last one the buffer is free (R95). (Log 38 DEDUCED) -/
def State.matDrain (s : State) (c no j m : Nat) (k : Skein) (r : MatRun) : Option State :=
  match r.draining with
  | [] => none
  | b :: _ =>
    let f := dDstFmt k.w
    let t := s.drainTile c m k r.opA r.opB r.drained ((s.mat c m).buf b) f r.part
    let done := f != 5 || r.part == 3
    let s1 := s.modStage c no j fun x => x.drained r t done
    some (if done then (s1.put (bufFld b) c 0 m).modMat c m fun x => x.setBuf b AccBuf.init else s1)

/-! ### The pump: what happens of itself once a tile has entered a port -/

/-- A stage consumes the head tile of a port, if it can. (Log 31 DEDUCED) -/
def State.consume (s : State) (c no j : Nat) (k : Skein) (st : Stage) : Option State :=
  let o := s.opWord c st.stn st.op
  if st.stn < 16 then
    match st.mat with
    | none => none
    | some r =>
      if r.go && decide (r.stage st < 4) then s.matDrain c no j st.stn k r
      else if s.get MAT_CTX_CTL_busy c st.stn = 1 then none
      else if opFeed r.opA = 1 then s.matSlideStep c no j st.stn k st r
      else match st.p0 with
        | [] => none
        | t :: rest => s.matMain c no j st.stn k st r t rest
  else if !st.outq.isEmpty ∨ st.stn = 0x14 then none
  else
    match st.p1 with
    | t :: rest =>
      let s1 := s.modStage c no j fun x => { x with p1 := rest }
      if st.stn = 0x10 then
        let s2 := s1.vecCache c no j o st t
        some (if st.port = 1 ∧ t.last then s2.modStage c no j fun x => { x with inEnd := true } else s2)
      else if nfld o 1 2 = 0 then some (s1.gthMain c no j o st t)
      else some (s1.modStage c no j fun x =>
        { x with idx := x.idx ++ indexElems t, accP := x.accP ++ List.replicate 512 t.poison, p1n := x.p1n + 1 })
    | [] =>
      match st.p0 with
      | [] => none
      | t :: rest =>
        let s1 := s.modStage c no j fun x => { x with p0 := rest }
        if st.stn = 0x10 then
          (if sideFed k.w j ∧ st.p1end = false then none else some (s1.vecMain c no j k o st t))
        else if st.stn = 0x11 then some (s1.sumMain c no j k o st t)
        else if st.stn = 0x12 then some (s1.cnvMain c no j k o st t)
        else if nfld o 1 2 = 1 ∧ st.idx.length < 8 ∧ (st.p1n < dSideTiles k.w) then none
        else some (s1.gthMain c no j o st t)

/-- One movement in the stages below `n`, the last stage first. -/
def State.pumpStage (s : State) (c no : Nat) (k : Skein) : Nat → Option State
  | 0 => none
  | j + 1 =>
    match k.stages[j]? with
    | none => s.pumpStage c no k j
    | some st =>
      match s.flush1 c no j k st with
      | some s1 => some s1
      | none => match s.consume c no j k st with
        | some s1 => some s1
        | none => s.pumpStage c no k j

/-- Movements of a skein's tiles until none can be made, at most `fuel`. (Log 30 DEDUCED) -/
def State.pump (c no : Nat) : Nat → State → State
  | 0, s => s
  | fuel + 1, s =>
    match s.sk c no with
    | none => s
    | some k =>
      if k.ended then s
      else match s.pumpStage c no k k.stages.length with
        | none => s
        | some s1 => State.pump c no fuel s1

/-- Movements made after one event: more than any event can set off. (Log 30 DEDUCED) -/
def pumpFuel : Nat := 400

/-- Let a skein's tiles move. (Log 30 DEDUCED) -/
def State.run (s : State) (c no : Nat) : State := State.pump c no pumpFuel s

/-- A tile of the source or of the side operand enters its port. -/
def State.feed (s : State) (c no : Nat) (k : Skein) (side : Bool) (t : Tile) : State :=
  let j := if side then dSideStage k.w else 0
  let p := if side then 1 else dPort k.w 0
  let s1 := s.modStage c no j fun x => x.enter p t
  let s2 := s1.modSk c no fun k =>
    let k := { k with starving := k.starving.filter (· != (j, p)) }
    if side then { k with sideArr := k.sideArr + 1, sideIss := Nat.max k.sideIss (k.sideArr + 1) }
    else { k with srcArr := k.srcArr + 1, srcIss := Nat.max k.srcIss (k.srcArr + 1) }
  s2.run c no

/-- Tag of the next tile of a feed (R57, R62). -/
def feedTile (k : Skein) (side : Bool) (data comp : List Byte) (poison : Bool) : Tile :=
  if side then ⟨dSideFmt k.w, fmtMask (dSideFmt k.w), k.sideArr % 65536, k.sideArr + 1 == dSideTiles k.w, poison, data, comp⟩
  else ⟨dSrcFmt k.w, srcMask k.w k.srcArr, k.srcArr % 65536, k.srcArr + 1 == dCount k.w, poison, data, comp⟩

/-- Has the port of a feed a free slot; GTH's crosswise reads need none (R163). -/
def State.feedRoom (s : State) (c : Nat) (k : Skein) (side : Bool) : Bool :=
  let j := if side then dSideStage k.w else 0
  let p := if side then 1 else dPort k.w 0
  (!side && s.isCross c k.w) || (match k.stages[j]? with | some st => st.room p | none => false)

/-- Tiles of a feed that are still due. -/
def feedDue (k : Skein) (side : Bool) : Bool :=
  if side then decide (k.sideArr < dSideTiles k.w) else decide (k.srcArr < dCount k.w)

/-- LOCAL_OPERAND_READ_DONE (R67, R163): the next tile of a local source or side operand is read and enters its port, and the
stations work on it. -/
def State.localRead (s : State) (c no : Nat) (side : Bool) : State :=
  match s.sk c no with
  | none => s
  | some k =>
    let cross := !side && s.isCross c k.w
    if !k.takes || !(if side then k.sideLocal else k.srcLocal || cross) || !(feedDue k side) || !(s.feedRoom c k side) then s
    else
      let i := if side then k.sideArr else k.srcArr
      let f := if side then dSideFmt k.w else dSrcFmt k.w
      let addr := if side then sideAddr k.w i else srcAddr k.w i
      let ca := compAddr k.w (if side then sideAddr k.w 0 else srcAddr k.w 0) i
      let kind := if cross then Acc.cross else .stream false
      match s.localAddr c kind addr 1024, (if f = 4 then s.localAddr c (.stream false) ca 64 else .ok 0) with
      | .ok a, .ok pa =>
        let r := s.readTile a pa f
        let s1 := r.1.feed c no k side (feedTile k side r.2.1 r.2.2.1 r.2.2.2)
        if cross then s1.modStage c no 0 fun x => { x with occ0 := 0, occ1 := 0 } else s1
      | .error e, _ => (s.endSk c no e).addrFault c e addr
      | _, .error e => (s.endSk c no e).addrFault c e ca

/-! ### Push (R65) -/

/-- CTL_SKQ_PUSH: copy and check a descriptor (R65, Table 3.9). -/
def State.skPush (s : State) (c : Nat) (v : Word) : State :=
  let a := c * 0x800000 + nfld v.toNat 6 15 * 64
  let e := (s.cl c).eng
  if s.get CTL_SK_CTL_en c = 0 then s.skStop c 0x023F
  else if 64 ≤ e.launch.length then s.skStop c 0x023D
  else
    let bad := s.rdPoison a 64
    let w := (List.range 8).map fun i => leNat (s.rdMem (a + 8 * i) 8)
    let s1 := (s.noteRead a 64).stamp a 64
    if bad then s1.skStop c 0x0541
    else
      let code := firstFail (s1.descChecks c w)
      if code ≠ 0 then s1.skStop c code
      else
        let b := s1.strServed c w
        s1.modEng c fun e => { e with
          launch := e.launch ++ [⟨e.pushNo, w, !(lget false b 0), !(lget false b 1), !(lget false b 2)⟩], pushNo := e.pushNo + 1 }

/-! ### Start (R71, R72) -/

/-- A station code of the descriptor is in use by a running skein. -/
def Engine.stationBusy (e : Engine) (stn : Nat) : Bool := e.slots.any fun k => k.stages.any fun st => st.stn == stn

/-- Queues that a running or queued skein names. -/
def skQueues (w : List Nat) (srcLocal sideLocal dstLocal : Bool) : List Nat :=
  (if srcLocal then [] else [dSrcQ w]) ++ (if sideLocal || !dHasSide w then [] else [dSideQ w]) ++ (if dstLocal then [] else [dDstQ w])

/-- The order condition (R78). -/
def State.orderOk (s : State) (c : Nat) (w : List Nat) : Bool :=
  match dOrder w with
  | 1 => (s.cl c).eng.slots.all fun k => !(s.writes c k.w)
  | 2 => (s.cl c).eng.slots.isEmpty
  | _ => true

/-- May the head of the launch queue start (R71): a running slot, its stations, its queues, its wait semaphore, its order. -/
def State.headOk (s : State) (c : Nat) (l : Launch) : Bool :=
  let e := (s.cl c).eng
  decide (e.slots.length < 24) &&
  (List.range (dStages l.w)).all (fun j => !(e.stationBusy (dStation l.w j))) &&
  (skQueues l.w l.srcLocal l.sideLocal l.dstLocal).all (fun f => (s.q c f).bound.isNone && (s.q c f).xfers.isEmpty) &&
  (!dWaitEn l.w || decide (0 < s.get CTL_SEM_value c (dWaitSem l.w))) &&
  s.orderOk c l.w

/-- A stage at the start of its skein. -/
def State.newStage (s : State) (c : Nat) (w : List Nat) (j : Nat) : Stage :=
  let stn := dStation w j
  let op := dOp w j
  { stn := stn, port := dPort w j, op := op, p0 := [], p1 := [], occ0 := 0, occ1 := 0, p1n := 0, p1end := false, n := 0, blk := 0,
    grp := [], idx := [], acc := [0].take (if stn = 0x10 then 1 else 0), accP := [], res := [], resP := [], outq := [], emitted := 0,
    inEnd := false,
    mat := if stn < 16 then
        some ⟨s.matOpA c stn op, s.matOpB c stn op, [], 0, 0, none, 0, 0, 0, none, [], false, 0, false, [], 0, none, none⟩ else none }

/-- A skein at its start, with the registers it samples (R64, R136, R149, R153). -/
def State.newSkein (s : State) (c : Nat) (l : Launch) : Skein :=
  { no := l.no, w := l.w, seed := s.get CLU_DITHER_SEED_seed c, step := s.get CLU_DITHER_STEP_step c,
    scalar := s.get VEC_SCALAR_value c, thresh := s.get VEC_THRESH_value c, frac := s.get VEC_THRESH_FRAC_frac c,
    qacc := s.rreg STR_QACC c (dDstQ l.w / 32) (dDstQ l.w % 32),
    stages := (List.range (dStages l.w)).map (s.newStage c l.w), srcIss := 0, srcArr := 0, sideIss := 0, sideArr := 0,
    srcLocal := l.srcLocal, sideLocal := l.sideLocal, dstLocal := l.dstLocal, sinkN := 0, tilesOut := 0, sinkOut := 0,
    late := false, starving := [], poisoned := false, cancelled := false, reason := 0, closing := false, ended := false, held := false,
    summ := if dSummary l.w then some Summ.init else none }

/-- Code with which a station refuses a start (R116, R150, R161, R259; the disabled codes of each chapter); 0 for none. -/
def State.startCode (s : State) (c : Nat) (w : List Nat) (j : Nat) : Nat :=
  let stn := dStation w j
  let o := s.opWord c stn (dOp w j)
  if stn < 16 then
    let a := s.matOpA c stn (dOp w j)
    let x := s.mat c stn
    if s.get MAT_CTL_en c stn = 0 then 0x0311
    else match s.heldBuf c stn with
      | some _ => if opInit a ≠ 2 then 0x0337
          else if x.heldMul ≠ opMul a ∨ x.heldFeed ≠ opFeed a ∨ x.heldGroup ≠ opGroup a then 0x0336 else 0
      | none => if opInit a = 2 then 0x0335 else 0
  else if s.get (stnEn stn) c = 0 then
    (if stn = 0x10 then 0x0401 else if stn = 0x11 then 0x0441 else if stn = 0x12 then 0x0481 else if stn = 0x13 then 0x04C1 else 0x0D01)
  else if stn = 0x10 then (if sideFed w j ∧ 64 < nfld o 56 6 + dSideTiles w then 0x0423 else 0)
  else if stn = 0x13 then
    (if nfld o 1 2 = 1 ∧ (j + 1 ≠ dStages w ∨ dDstQ w ≠ 0 ∨ dw w 4 ≠ 0) then 0x04D3 else 0)
  else if stn = 0x14 then
    (if nfld o 1 2 = 0 ∧ (dStages w ≠ 1 ∨ dDstQ w ≠ 0 ∨ dw w 4 ≠ 0 ∨ 64 < dCount w) then 0x0D07 else 0)
  else 0

/-- Mark a station as held by a skein (R112: a matrix station enables its rows). -/
def State.stnTake (s : State) (c stn : Nat) : State :=
  if stn < 16 then (s.put MAT_STAT_state c 3 stn).put MAT_STAT_rows_on c 8 stn else s.put (stnRunning stn) c 1

/-- A station is free again (R113: a matrix station stays ready). -/
def State.stnFree (s : State) (c stn : Nat) : State :=
  if stn < 16 then
    (if s.get MAT_CTL_en c stn = 1 then s.put MAT_STAT_state c 2 stn else (s.put MAT_STAT_state c 0 stn).put MAT_STAT_rows_on c 0 stn)
  else s.put (stnRunning stn) c 0

/-- Bind a stream queue to a skein's stream (R60). -/
def State.bindQ (s : State) (c f no role : Nat) : State :=
  ((s.modQ c f fun q => { q with bound := some no, role := role, next := 0, halted := false, retrying := false }).put
    STR_QPOS_valid c 0 (f / 32) (f % 32))

/-- Bind the adapter station's fetch and copy queues to its skein (R262); its buffer is empty. -/
def State.bindAdp (s : State) (c no : Nat) : State :=
  let s1 := (s.modCl c fun x => { x with adpPend := [], adpBuf := [] }).bindQ c (s.get ADP_CFG_fetch_q c) no 3
  if s.get ADP_CFG_copy_en c = 1 then s1.bindQ c (s.get ADP_CFG_copy_q c) no 3 else s1

/-- Start the head skein. (Log 43 DEDUCED) -/
def State.startHead (s : State) (c : Nat) (l : Launch) : State :=
  let k := s.newSkein c l
  let s1 := s.modEng c fun e => { e with launch := e.launch.drop 1, slots := e.slots ++ [k] }
  let s2 := if dWaitEn l.w then s1.put CTL_SEM_value c (s1.get CTL_SEM_value c (dWaitSem l.w) - 1) (dWaitSem l.w) else s1
  let s3 := k.stages.foldl (fun (s : State) st => s.stnTake c st.stn) s2
  let s4 := if l.srcLocal || s.isCross c l.w then s3 else s3.bindQ c (dSrcQ l.w) l.no 0
  let s5 := if l.sideLocal || !dHasSide l.w then s4 else s4.bindQ c (dSideQ l.w) l.no 1
  let s6 := if l.dstLocal then s5 else s5.bindQ c (dDstQ l.w) l.no 2
  let s7 := if (List.range (dStages l.w)).any fun j => dStation l.w j == 0x14 && nfld (s.opWord c 0x14 (dOp l.w j)) 1 2 != 0 then
      s6.bindAdp c l.no else s6
  match (List.range (dStages l.w)).find? fun j => s.startCode c l.w j != 0 with
  | some j => s7.stnFail c l.no (dStation l.w j) (s.startCode c l.w j)
  | none => s7

/-- SKEIN_START (R71, R72, R73, R116). -/
def State.skStart (s : State) (c : Nat) : State :=
  let e := (s.cl c).eng
  match e.launch with
  | [] => s
  | l :: _ => if e.stopped || e.disabling || s.get CTL_SK_CTL_en c == 0 || !(s.headOk c l) then s else s.startHead c l

/-! ### Starvation (R68, R69) -/

/-- Is a stage ready to consume from a port that is empty (R68): its output has gone, and what the station needs beside the port's tile
is there: for a matrix station's moving tiles a loaded set, a buffer and no save or restore, for its stationary ones a free set
(R91, R92, R117); for VEC's blocks a filled cache; for a scatter's rows their indices; for a row group of ADP a place in it. -/
def State.stageReady (s : State) (c : Nat) (k : Skein) (j p : Nat) (st : Stage) : Bool :=
  let o := s.opWord c st.stn st.op
  if st.stn < 16 then
    s.get MAT_CTX_CTL_busy c st.stn == 0 &&
    (match st.mat with
     | none => false
     | some r =>
       if p = 1 then decide (r.sets.length < 2)
       else !r.sets.isEmpty && (r.cur.isSome || (if opInit r.opA == 2 && r.accs == 0 then true else (s.freeBuf c st.stn).isSome)))
  else
    st.outq.isEmpty &&
    (if st.stn = 0x10 then p == 1 || !(sideFed k.w j) || st.p1end
     else if st.stn = 0x13 then p == 1 || nfld o 1 2 != 1 || decide (8 ≤ st.idx.length) || decide (dSideTiles k.w ≤ st.p1n)
     else if st.stn = 0x14 then p == 1 || decide (st.grp.length < (if nfld o 1 2 = 2 then 2 ^ nfld o 3 2 + 1 else 2 ^ nfld o 3 2))
     else true)

/-- Is a port of a stage fed by the source or the side operand, has it received a tile, is one still due, is it empty, and is the
stage ready to consume from it (R68). -/
def State.starved (s : State) (c : Nat) (k : Skein) (j p : Nat) : Bool :=
  let side := p == 1 && sideFed k.w j
  let src := j == 0 && p == dPort k.w 0 && !side
  let arr := if side then k.sideArr else k.srcArr
  (side || src) && !(s.isCross c k.w && src) && decide (0 < arr) && feedDue k side && k.takes &&
  (match k.stages[j]? with
   | some st => (if p = 0 then st.p0.isEmpty else st.p1.isEmpty) && s.stageReady c k j p st
   | none => false)

/-- Does ADP wait for weights while its fetch queue is halted (R266): the index of a row of its group is known to need them, the row
group is there, and they are not. -/
def State.adpStarved (s : State) (c : Nat) (k : Skein) (j : Nat) : Bool :=
  match k.stages[j]? with
  | none => false
  | some st =>
    let f := s.get ADP_CFG_fetch_q c
    st.stn == 0x14 && k.takes && st.outq.isEmpty && (s.q c f).halted && (s.q c f).bound == some k.no &&
      (!st.p0.isEmpty || !st.grp.isEmpty) && (s.cl c).adpBuf.any fun b => decide (b.2.1.length < 1024 * b.2.2.2)

/-- Is the queue that feeds a port of a skein halted (R69 does not count that time). -/
def State.feedHalted (s : State) (c : Nat) (k : Skein) (side : Bool) : Bool :=
  let f := if side then dSideQ k.w else dSrcQ k.w
  !(if side then k.sideLocal else k.srcLocal) && (s.q c f).halted && (s.q c f).bound == some k.no

/-- SKEIN_STARVED (R68, R92, R266): one starvation cycle is counted, at a matrix station as a hold as well when no slice can be injected
for it; the first of a skein sets its late flag and records one event. (Log 181 DESIGN CHOICE) -/
def State.skStarved (s : State) (c no j p : Nat) : State :=
  match s.sk c no with
  | none => s
  | some k =>
    let port := s.starved c k j p
    if port || s.adpStarved c k j then
      let stn := match k.stages[j]? with | some st => st.stn | none => 0
      let noSet := match k.stages[j]? with | some st => (match st.mat with | some r => r.sets.isEmpty | none => false) | none => false
      let s1 := s.modEng c fun e => { e with starve := satAdd 32 e.starve 1 }
      let s2 := if stn < 16 && (p == 0 || noSet) then s1.bump MAT_STALL_holds c stn else s1
      let s3 := if k.late then s2 else s2.cluEvent c 0x02F0 stn (packDetail [(dId k.w, 2), (stn, 1)])
      s3.modSk c no fun k =>
        { k with late := true, starving := if port && !(k.starving.contains (j, p)) then k.starving ++ [(j, p)] else k.starving }
    else s

/-- STALL_LIMIT_EXPIRY (R69): a port has been starved for too long, and not for a halt of the queue that feeds it: the skein fails with
0x023C and the context faults. -/
def State.skStall (s : State) (c no : Nat) : State :=
  match s.sk c no with
  | none => s
  | some k =>
    if k.takes && k.starving.any (fun x => !(s.feedHalted c k (x.2 == 1 && sideFed k.w x.1))) then
      ((s.endSk c no 0x023C).skStop c 0x023C).cluEvent c 0x023C 0 0
    else s

/-! ### Completion (R74, R75) -/

/-- Has a stage emitted its final tile. -/
def Stage.finished (st : Stage) : Bool :=
  st.inEnd && st.outq.isEmpty && st.grp.isEmpty &&
  (match st.mat with
   | some r => r.draining.isEmpty && r.cur.isNone && r.half.isNone && r.kept.isNone && !(r.slideMore st.n st.inEnd)
   | none => true)

/-- Has all that a closing skein completed left a stage (R104); tiles that wait for a side operand which no longer comes do not count. -/
def Stage.quiet (st : Stage) (sideMissing : Bool) : Bool :=
  st.outq.isEmpty &&
  (match st.mat with
   | some r => r.draining.isEmpty && r.half.isNone && r.kept.isNone
   | none => st.p0.isEmpty || sideMissing)

/-- Is a skein done: its last stage has emitted its final tile (or it has ended) and every sink write is acknowledged. -/
def Skein.done (k : Skein) : Bool :=
  (k.ended || k.stages.all Stage.finished ||
    (k.closing && k.stages.zipIdx.all fun p => p.1.quiet (sideFed k.w p.2 && decide (k.sideArr < dSideTiles k.w)))) && k.sinkOut == 0

/-- Is a completion entry due (R75). -/
def Skein.entryDue (k : Skein) : Bool := dNotify k.w || k.reason != 0 || k.late || k.poisoned || k.cancelled

/-- The completion entry of a skein (Table 3.13). -/
def Skein.entry (k : Skein) : CqEntry := ⟨dId k.w, k.reason, k.late, k.poisoned, k.cancelled, k.tilesOut⟩

/-- Free a stream queue from a skein; reads still outstanding are dropped as they arrive (R215). -/
def State.unbindQ (s : State) (c no : Nat) : State :=
  s.modCl c fun x =>
    let unbind := fun (q : StrQ) =>
      if q.bound == some no then
        { q.quit with bound := none }
      else q
    { x with strq := x.strq.map fun p => (p.1, unbind p.2) }

/-- Complete a skein: slot and stations freed, the post applied, the entry enqueued (R74). (Log 33 DEDUCED) -/
def State.finish (s : State) (c : Nat) (k : Skein) : State :=
  let s2 := k.stages.foldl (fun (s : State) st => s.stnFree c st.stn) s
  let s3 := s2.unbindQ c k.no
  let s4 := s3.modEng c fun e => { e with
    slots := lrem (fun x => x.no == k.no) e.slots, heldQ := lrem (fun n => n == k.no) e.heldQ,
    cq := if k.entryDue then e.cq ++ [k.entry] else e.cq }
  if dPostEn k.w && !k.cancelled then s4.semAdd c (dPostSem k.w) 1 else s4

/-- SKEIN_COMPLETE (R74, R75): a skein that completes while the queue is full keeps its slot, its stations and its post until an entry
has been read. (Log 34 DEDUCED) -/
def State.skComplete (s : State) (c no : Nat) : State :=
  match s.sk c no with
  | none => s
  | some k =>
    if k.done && !k.held then
      if 32 ≤ (s.cl c).eng.cq.length then
        (s.modSk c no fun k => { k with held := true }).modEng c fun e => { e with heldQ := e.heldQ ++ [no] }
      else s.finish c k
    else s

/-- Remove the head completion entry; the held skeins then complete, in the order in which they finished, while there is room (R75). (Log 34 DEDUCED) -/
def State.cqPop (s : State) (c : Nat) : State :=
  let s1 := s.modEng c fun e => { e with cq := e.cq.drop 1 }
  (s1.cl c).eng.heldQ.foldl (fun (s : State) no =>
    if 32 ≤ (s.cl c).eng.cq.length then s
    else match s.sk c no with
      | some k => s.finish c k
      | none => s) s1

/-- Value of CTL_CQ_POP: the head entry with valid = 1, or zero (Table 3.13). -/
def State.cqHead (s : State) (c : Nat) : Nat :=
  match (s.cl c).eng.cq with
  | [] => 0
  | x :: _ => x.id + x.reason * 2 ^ 16 + 2 ^ 32 + b2n x.late * 2 ^ 33 + b2n x.poisoned * 2 ^ 34 + b2n x.cancelled * 2 ^ 35 +
      (x.tiles % 2 ^ 24) * 2 ^ 40

/-! ### Cancel and disable (R76, R80) -/

/-- Cancel a running skein: it ends without a post, with its cancelled bit set (R76, R118, R215). -/
def State.cancelSk (s : State) (c : Nat) (k : Skein) : State :=
  (s.endSk c k.no k.reason).modSk c k.no fun k => { k with cancelled := true }

/-- Cancel every skein of the engine (R76). -/
def State.cancelAll (s : State) (c : Nat) : State :=
  let s1 := s.modEng c fun e => { e with launch := [] }
  (s1.cl c).eng.slots.foldl (fun (s : State) k => s.cancelSk c k) s1

/-- Checks of Table 3.16. -/
def skEnChecks (c : Nat) (s : State) : List (Bool × Nat) :=
  [(s.get CTL_SK_CTL_stall_us c != 0, 0x0240), (s.get CLU_ALIAS_CTL_en c == 1, 0x0242)]

/-- CTL_SK_CTL with en = 1 (R80, Table 3.16): a successful enable starts from an empty engine. It does not end a stop, which a write
of 0 clears (R65). (Log 35 DEDUCED) -/
def State.skEnable (s : State) (c : Nat) (v : Word) : State :=
  let s1 := s.enable CTL_SK_CTL_en CTL_SK_CTL_reason c 0 0 v (skEnChecks c)
  if s.enables CTL_SK_CTL_en c 0 0 v (skEnChecks c) then s1.modEng c fun e => { e with launch := [], starve := 0 } else s1

/-- CTL_SK_CTL with en = 0 (R65, R80): the stop is cleared when the write takes effect, at once on an engine that is already off. (Log 10 DEDUCED) -/
def State.skDisable (s : State) (c : Nat) (v : Word) : State :=
  let s1 := s.plainBut CTL_SK_CTL_en c 0 0 v
  if s.get CTL_SK_CTL_en c = 0 then s1.modEng c fun e => { e with stopped := false }
  else (s1.cancelAll c).modEng c fun e => { e with disabling := true }

/-! ### The commands -/

/-- CTL_SKQ_PUSH (R65). -/
def execCtlSkqPush (c : Clu) (v : Word) (s : State) : Host.Outcome State Fault Refusal := .next (s.skPush c v)

/-- SKEIN_START (R71). (Log 2 DESIGN CHOICE) -/
def execSkeinStart (c : Clu) (s : State) : Host.Outcome State Fault Refusal := .next (s.skStart c)

/-- Moving tiles of slide mode whose slots stay taken, since a remaining accumulation reads them (R100). -/
def Stage.seqLen (st : Stage) : Nat := match st.mat with | some r => r.seq.length | none => 0

/-- CREDIT_RETURN (R66): a slot of the port frees and the feed may use it; the tiles behind it move. -/
def execCreditReturn (c : Clu) (no : Nat) (stage : Fin 4) (port : Fin 2) (s : State) : Host.Outcome State Fault Refusal :=
  let due := match s.sk c no with
    | some k => (match k.stages[stage.val]? with
      | some st => if port.val = 0 then decide (st.p0.length + st.seqLen < st.occ0) else decide (st.p1.length < st.occ1) && decide (16 ≤ st.stn)
      | none => false)
    | none => false
  if due then
    .next ((s.modStage c no stage fun x => if port.val = 0 then { x with occ0 := x.occ0 - 1 } else { x with occ1 := x.occ1 - 1 }).run c no)
  else .next s

/-- SKEIN_STARVED (R68). -/
def execSkeinStarved (c : Clu) (no : Nat) (stage : Fin 4) (port : Fin 2) (s : State) : Host.Outcome State Fault Refusal :=
  .next (s.skStarved c no stage port)

/-- STALL_LIMIT_EXPIRY (R69). (Log 4 DESIGN CHOICE) -/
def execStallLimitExpiry (c : Clu) (no : Nat) (s : State) : Host.Outcome State Fault Refusal := .next (s.skStall c no)

/-- SKEIN_COMPLETE (R74). -/
def execSkeinComplete (c : Clu) (no : Nat) (s : State) : Host.Outcome State Fault Refusal := .next (s.skComplete c no)

/-- CTL_SK_CANCEL (R76): the write's other fields apply, and cancel = 1 cancels every skein. -/
def execCtlSkCancel (c : Clu) (v : Word) (s : State) : Host.Outcome State Fault Refusal :=
  let s1 := s.plainBut CTL_SK_CTL_en c 0 0 v
  .next (if nbit v.toNat 1 then s1.cancelAll c else s1)

/-- CTL_SK_EN (R80, Table 3.16): a successful enable starts from an empty engine. -/
def execCtlSkEn (c : Clu) (v : Word) (s : State) : Host.Outcome State Fault Refusal := .next (s.skEnable c v)

/-- CTL_SK_DISABLE (R80): the launch queue is discarded and running skeins are cancelled; en reads 0, and the stop ends, once the
last cancelled skein has ended. -/
def execCtlSkDisable (c : Clu) (v : Word) (s : State) : Host.Outcome State Fault Refusal :=
  .next (s.skDisable c v)

/-- SKEIN_ENGINE_DISABLE_DONE (R80). -/
def execSkeinEngineDisableDone (c : Clu) (s : State) : Host.Outcome State Fault Refusal :=
  let e := (s.cl c).eng
  if e.disabling && e.slots.isEmpty then
    .next ((s.modEng c fun e => { e with disabling := false, stopped := false }).put CTL_SK_CTL_en c 0)
  else .next s

/-- CTL_SEM_ADD (R73). -/
def execCtlSemAdd (c : Clu) (v : Word) (s : State) : Host.Outcome State Fault Refusal :=
  .next (s.semAdd c (nfld v.toNat 0 4) (nfld v.toNat 16 16))

/-- CTL_SEM_WRITE (R73): the value is set. -/
def execCtlSemWrite (c : Clu) (sem : Fin 16) (v : Word) (s : State) : Host.Outcome State Fault Refusal :=
  .next (s.put CTL_SEM_value c (nfld v.toNat 0 16) sem)

/-- CTL_CQ_POP (R75): the core's oldest outstanding 8-byte load of the register returns the head entry and removes it. -/
def execCtlCqPop (c : Clu) (s : State) : Host.Outcome State Fault Refusal :=
  let cqAddr := CTL_CQ_POP.addr c 0 0
  match (s.cl c).core.loads.find? fun l => l.size == 8 &&
      (match s.resolve c .load l.addr 8 with | .ok (.reg a) => a == cqAddr | _ => false) with
  | none => .next s
  | some l =>
    let v := s.cqHead c
    let s1 := s.modCore c fun k => { k with loads := lrem (fun x => x.id == l.id) k.loads }
    let s2 := if l.dropped then s1 else s1.setG c l.d (BitVec.ofNat 64 v)
    .next (if v = 0 then s2 else s2.cqPop c)

/-- LOCAL_OPERAND_READ_DONE (R67). -/
def execLocalOperandReadDone (c : Clu) (no : Nat) (side : Bool) (s : State) : Host.Outcome State Fault Refusal :=
  .next (s.localRead c no side)

end Sys2Proof.Machine
end

