-- ==== Sys2Proof/Machine/Mat.lean ====
section
/-!
DEFINITION. The matrix station's commands (chapter "The matrix station"): enable and disable, stationary loading, the drain of
an accumulation into output tiles, the warm time, and saving and restoring the accumulator bank.
-/
namespace Sys2Proof.Machine

open Sys2Proof

/-- Does a skein hold the station. -/
def State.stnHeld (s : State) (c stn : Nat) : Bool := (s.cl c).eng.stationBusy stn

/-- The running skein that holds a station, and the stage's index. -/
def State.stnSkein (s : State) (c stn : Nat) : Option (Skein × Nat × Stage) :=
  match (s.cl c).eng.slots.find? fun k => k.stages.any fun st => st.stn == stn with
  | none => none
  | some k => match k.stages.zipIdx.find? fun p => p.1.stn == stn with
    | none => none
    | some p => some (k, p.2, p.1)

/-! ### Enable and disable (R118, R120, R121) -/

/-- Largest mt of a group code (Table 4.2). -/
def mtLimit (code : Nat) : Nat := if code = 0 then 2 else if code = 1 then 8 else 32

/-- Checks of one valid matrix op, in the order of Table 4.18. -/
def matOpChecks (a b : Nat) : List (Bool × Nat) :=
  [ (opMul a != 3 && opGroup a != 3 && opInit a != 3 && decide (nfld b 5 3 ≤ 4) && nfld b 0 2 != 3, 0x0321),
    (opFeed a == 0 || (opGroup a == 1 && decide (opMul a ≤ 1) && opHide a == 1 && opMt a == 1), 0x0322),
    (decide (1 ≤ opMt a) && decide (opMt a ≤ mtLimit (opGroup a)), 0x0323),
    (opCount a != 0, 0x0324),
    (opHide a == 0 || (opInit a != 2 && opEndHold a == 0), 0x0325) ]

/-- Checks of Table 4.18: every op whose valid bit is 1, in op order. -/
def matEnChecks (c m : Nat) (s : State) : List (Bool × Nat) :=
  (List.range 16).flatMap fun o => if nbit (s.matOpA c m o) 0 then matOpChecks (s.matOpA c m o) (s.matOpB c m o) else []

/-- Note a write that a running skein made the station ignore (R120). -/
def State.matLost (s : State) (c m : Nat) : State := s.put MAT_STAT_wr_lost c 1 m

/-- MAT_CTL with en = 1 (R121): while a skein holds the station the write is ignored; the counts restart at an enable. -/
def State.matEnable (s : State) (c m : Nat) (v : Word) : State :=
  if s.stnHeld c m then s.matLost c m
  else
    let s1 := s.enable MAT_CTL_en MAT_CTL_reason c m 0 v (matEnChecks c m)
    if s.enables MAT_CTL_en c m 0 v (matEnChecks c m) then (s1.put MAT_STAT_passes c 0 m).wreg MAT_STALL c m 0 0 else s1

/-- MAT_CTL with en = 0 (R118): both buffers are cleared and the station is off at once. A save or restore that runs stays busy until
its own end. (Log 10 DEDUCED, 169 DESIGN CHOICE) -/
def State.matDisable (s : State) (c m : Nat) (v : Word) : State :=
  if s.stnHeld c m then s.matLost c m
  else
    let s1 := (s.plainBut MAT_CTL_en c m 0 v).put MAT_CTL_en c 0 m
    let s2 := s1.modMat c m fun _ => MatStn.init
    ((((s2.put MAT_STAT_buf0 c 0 m).put MAT_STAT_buf1 c 0 m).put MAT_STAT_held_poison c 0 m).put MAT_STAT_state c 0 m).put
      MAT_STAT_rows_on c 0 m

/-! ### Stationary loading (R91) -/

/-- The register sets that are loaded, once the tile at the head of port 1 has finished loading into a free one. -/
def State.matLoaded (s : State) (c m : Nat) : State :=
  match s.stnSkein c m with
  | none => s
  | some (k, j, st) =>
    match st.mat, st.p1 with
    | some r, t :: rest =>
      if k.ended || decide (2 ≤ r.sets.length) then s
      else
        (s.modStage c k.no j fun x =>
          { x with p1 := rest, occ1 := x.occ1 - 1, p1n := x.p1n + 1, p1end := x.p1end || t.last,
                   mat := x.mat.map fun r => { r with sets := r.sets ++ [t] } }).run c k.no
    | _, _ => s

/-! ### The drain (R95) -/

/-- MAT_ACCUMULATION_DRAINED: the oldest draining buffer has had its drain time. Its tiles enter the output stage as that has room, and
with the last of them the buffer is free. -/
def State.matDrained (s : State) (c m : Nat) : State :=
  match s.stnSkein c m with
  | none => s
  | some (k, j, st) =>
    match st.mat with
    | none => s
    | some r =>
      if k.ended || r.draining.isEmpty then s
      else (s.modStage c k.no j fun x => { x with mat := x.mat.map fun r => { r with go := true } }).run c k.no

/-! ### The warm time (R113) -/

/-- The warm time of a ready station expires and it turns off (the time of the ramp is not modelled). -/
def State.matCold (s : State) (c m : Nat) : State :=
  if s.get MAT_STAT_state c m = 2 ∧ s.stnHeld c m = false then (s.put MAT_STAT_state c 0 m).put MAT_STAT_rows_on c 0 m else s

/-! ### Saving and restoring (R117, Table 4.6) -/

/-- Module-local offset of the image that a command names. -/
def State.ctxAddr (s : State) (c m : Nat) : Nat := c * 0x800000 + s.get MAT_CTX_CTL_addr c m * 64

/-- Does the image lie within Common. -/
def State.ctxFits (s : State) (c m : Nat) : Bool := decide (s.get MAT_CTX_CTL_addr c m * 64 + 8256 ≤ 0x200000)

/-- Bytes of a buffer in an image: 512 elements in 8-byte containers. -/
def AccBuf.image (b : AccBuf) : List Byte := (List.range 512).flatMap fun l => leBytes 8 (tget 0 b.acc l)

/-- The image of a station (Table 4.6). -/
def State.ctxImage (s : State) (c m : Nat) : List Byte :=
  let x := s.mat c m
  let hb := match s.heldBuf c m with | some b => some (b, x.buf b) | none => none
  let held := match hb with | some p => p.1 + 1 | none => 0
  let poison := match hb with | some p => b2n p.2.poison | none => 0
  let mode := match hb with | some _ => x.heldMul + 4 * x.heldFeed + 8 * x.heldGroup | none => 0
  let live := match hb with | some p => p.2.live | none => 0
  let buf := fun (b : Nat) => match hb with
    | some p => if p.1 = b then p.2.image else List.replicate 4096 0
    | none => List.replicate 4096 0
  [1, BitVec.ofNat 8 held, BitVec.ofNat 8 poison, BitVec.ofNat 8 mode] ++ List.replicate 4 0 ++ leBytes 16 live ++
    List.replicate 40 0 ++ buf 0 ++ buf 1

/-- Are an image's bytes well formed (Table 4.6). -/
def ctxImageOk (i : List Byte) : Bool :=
  leAt i 0 1 == 1 && decide (leAt i 1 1 ≤ 2) && decide (leAt i 2 1 ≤ 1) && decide (leAt i 3 1 < 32) && leAt i 4 4 == 0 &&
  leAt i 24 40 == 0

/-- A buffer read from an image at a byte offset. -/
def imageBuf (i : List Byte) (off : Nat) : Tab Nat :=
  ((List.range 512).map fun l => (l, leAt i (off + 8 * l) 8 % 2 ^ 40)).filter fun p => p.2 != 0

/-- Refusals of a command on MAT_CTX_CTL that need not look at an image, in increasing order of their codes (R510). -/
def State.ctxRefuse (s : State) (c m : Nat) (image : Bool) (free : Bool) : Nat :=
  firstFail [ (s.get MAT_CTL_en c m == 1 && !(s.stnHeld c m), 0x0341), (image, 0x0342), (free, 0x0343), (s.ctxFits c m, 0x0344),
    (s.get MAT_CTX_CTL_busy c m == 0, 0x0345) ]

/-- A command starts: busy until its last access. -/
def State.ctxStart (s : State) (c m : Nat) : State := s.put MAT_CTX_CTL_busy c 1 m

/-- Save (R117). (Log 42 DEDUCED) -/
def State.matSave (s : State) (c m : Nat) (v : Word) : State :=
  let s1 := s.plain MAT_CTX_CTL c m 0 v
  let code := s1.ctxRefuse c m true true
  if code ≠ 0 then s1.put MAT_CTX_CTL_reason c code m
  else (s1.wrData (s1.ctxAddr c m) (s1.ctxImage c m)).ctxStart c m

/-- Restore (R117, R561). (Log 42 DEDUCED) -/
def State.matRestore (s : State) (c m : Nat) (v : Word) : State :=
  let s1 := s.plain MAT_CTX_CTL c m 0 v
  let a := s1.ctxAddr c m
  let fits := s1.ctxFits c m
  let i := s1.rdMem a 8256
  let good := !fits || (ctxImageOk i && !(s1.rdPoison a 8256))
  let free := s1.bufSt c m 0 == 0 && s1.bufSt c m 1 == 0
  let code := s1.ctxRefuse c m good free
  if code ≠ 0 then s1.put MAT_CTX_CTL_reason c code m
  else
    let s2 := ((s1.noteRead a 8256).stamp a 8256).ctxStart c m
    let held := leAt i 1 1
    if held = 0 then s2
    else
      let b := held - 1
      let buf : AccBuf := ⟨imageBuf i (64 + 4096 * b), leAt i 8 16, leAt i 2 1 == 1⟩
      let mode := leAt i 3 1
      ((s2.modMat c m fun x =>
        { (x.setBuf b buf) with heldMul := mode % 4, heldFeed := mode / 4 % 2, heldGroup := mode / 8 % 4 }).put
          (bufFld b) c 3 m).put MAT_STAT_held_poison c (b2n buf.poison) m

/-- The command ends: done sets, and a skein that waited proceeds. (Log 42 DEDUCED) -/
def State.ctxDone (s : State) (c m : Nat) : State :=
  if s.get MAT_CTX_CTL_busy c m = 1 then
    let s1 := (s.put MAT_CTX_CTL_busy c 0 m).put MAT_CTX_CTL_done c 1 m
    match s1.stnSkein c m with
    | some (k, _, _) => s1.run c k.no
    | none => s1
  else s

/-! ### The companion stations' enables (R165, Table 6.12) -/

/-- Does a table of rows lie wholly in Common or wholly in Hayloft of a window (Table 6.12). -/
def tableFits (base rows : Nat) : Bool :=
  decide (base * 64 + rows * 128 ≤ 0x200000) || (decide (0x200000 ≤ base * 64) && decide (base * 64 + rows * 128 ≤ 0x780000))

/-- Checks of one valid op of VEC, SUM, CNV or GTH, in the order of Table 6.12. The cache bound concerns the broadcasts that
have vectors. -/
def stnOpChecks (stn o : Nat) : List (Bool × Nat) :=
  if stn = 0x10 then
    let fn := nfld o 1 5
    let bc := nfld o 6 2
    let vec := bc == 1 || bc == 2
    let vnum := if nfld o 44 12 = 0 then 4096 else nfld o 44 12
    [ (decide (fn ≤ 0x11) && fmtWide (nfld o 8 4), 0x0411), ((bc != 0) == vecNeedsB fn, 0x0412),
      (!vec || nfld o 24 8 != 0, 0x0413), (!vec || decide ((nfld o 32 12 + vnum) * vecSize bc ≤ 65536), 0x0414),
      (fn != 0x11 || nfld o 16 8 != 0, 0x0415) ]
  else if stn = 0x11 then [ (fmtWide (nfld o 4 4), 0x0451), (nfld o 16 16 != 0, 0x0452) ]
  else if stn = 0x12 then [ (decide (nfld o 1 4 ≤ 5), 0x0491) ]
  else
    let f := nfld o 4 4
    [ (f != 5 && fmtOk f && (nbit o 2 == false || fmt16 f), 0x04C5),
      (nfld o 32 16 != 0 && tableFits (nfld o 8 17) (nfld o 32 16), 0x04C6) ]

/-- Checks of Table 6.12: every valid op, in op order. -/
def stnEnChecks (c stn : Nat) (s : State) : List (Bool × Nat) :=
  (List.range 16).flatMap fun o => if nbit (s.opWord c stn o) 0 then stnOpChecks stn (s.opWord c stn o) else []

/-- Field that notes a lost write of a companion station. -/
def stnLost (stn : Nat) : Fld :=
  if stn = 0x10 then VEC_STAT_wr_lost else if stn = 0x11 then SUM_STAT_wr_lost else if stn = 0x12 then CNV_STAT_wr_lost
  else if stn = 0x13 then GTH_STAT_wr_lost else ADP_STAT_wr_lost

/-- A companion station's control register written with en = 1 (R164, R165). -/
def State.stnEnable (s : State) (c stn : Nat) (v : Word) (checks : State → List (Bool × Nat)) : State :=
  if s.stnHeld c stn then s.put (stnLost stn) c 1
  else
    let s1 := s.enable (stnEn stn) (stnReason stn) c 0 0 v checks
    if s.enables (stnEn stn) c 0 0 v checks then s1.put (stnTilesOut stn) c 0 else s1

/-- A companion station's control register written with en = 0 (R164). -/
def State.stnDisable (s : State) (c stn : Nat) (v : Word) : State :=
  if s.stnHeld c stn then s.put (stnLost stn) c 1 else (s.plainBut (stnEn stn) c 0 0 v).put (stnEn stn) c 0

/-! ### The commands -/

/-- MAT_CTL_EN (R121). -/
def execMatCtlEn (c : Clu) (m : Mat) (v : Word) (s : State) : Host.Outcome State Fault Refusal := .next (s.matEnable c m v)

/-- MAT_CTL_DISABLE (R118). -/
def execMatCtlDisable (c : Clu) (m : Mat) (v : Word) (s : State) : Host.Outcome State Fault Refusal := .next (s.matDisable c m v)

/-- MAT_WARM_EXPIRY (R113). -/
def execMatWarmExpiry (c : Clu) (m : Mat) (s : State) : Host.Outcome State Fault Refusal := .next (s.matCold c m)

/-- MAT_STATIONARY_LOADED (R91). -/
def execMatStationaryLoaded (c : Clu) (m : Mat) (s : State) : Host.Outcome State Fault Refusal := .next (s.matLoaded c m)

/-- MAT_ACCUMULATION_DRAINED (R95). -/
def execMatAccumulationDrained (c : Clu) (m : Mat) (s : State) : Host.Outcome State Fault Refusal := .next (s.matDrained c m)

/-- MAT_CTX_SAVE (R117). -/
def execMatCtxSave (c : Clu) (m : Mat) (v : Word) (s : State) : Host.Outcome State Fault Refusal := .next (s.matSave c m v)

/-- MAT_CTX_RESTORE (R117). -/
def execMatCtxRestore (c : Clu) (m : Mat) (v : Word) (s : State) : Host.Outcome State Fault Refusal := .next (s.matRestore c m v)

/-- STATION_CTL_EN (R165). -/
def execStationCtlEn (c : Clu) (stn : Fin 4) (v : Word) (s : State) : Host.Outcome State Fault Refusal :=
  .next (s.stnEnable c (0x10 + stn.val) v (stnEnChecks c (0x10 + stn.val)))

/-- MAT_CTX_DONE (R117). -/
def execMatCtxDone (c : Clu) (m : Mat) (s : State) : Host.Outcome State Fault Refusal := .next (s.ctxDone c m)

end Sys2Proof.Machine
end

