-- ==== Sys2Proof/Machine/Pcie.lean ====
section
/-!
DEFINITION. The PCI Express endpoint's named operations (chapter "Host attachment and command channels"): host accesses and
their translations, queued TLPs, the dirty-page log, Page Requests and interrupts.
-/
namespace Sys2Proof.Machine

open Sys2Proof

/-- Change the endpoint. -/
def State.modPcie (s : State) (f : Pcie → Pcie) : State := { s with pcie := f s.pcie }

/-- PASID slots of a partition: value and valid (Table 16.13). -/
def State.pasidSlot (s : State) (p i : Nat) : Nat × Bool :=
  let w := s.rreg PRT_PART_PASID 0 p (i / 2)
  (nfld w (32 * (i % 2)) 20, nbit w (32 * (i % 2) + 20))

/-- Slot of a PASID within its partition. -/
def State.pasidIdx (s : State) (p pasid : Nat) : Nat :=
  match (List.range 8).find? fun i => s.pasidSlot p i == (pasid, true) with
  | some i => i
  | none => 0

/-! ### The dirty-page log (R463 to R466) -/

/-- Capacity of the word cache of the dirty bitmaps (R464). -/
def dirtyCap : Nat := 256

/-- Append an entry to the endpoint's queue. -/
def State.txPut (s : State) (kind : TxKind) (a : HostAcc) (half : Nat) : State :=
  s.modPcie fun x => { x with tx := x.tx ++ [⟨x.nextId, kind, a, half⟩], nextId := x.nextId + 1 }

/-- Queue a host read. -/
def State.readPut (s : State) (a : HostAcc) : State :=
  s.modPcie fun x => { x with reads := x.reads ++ [⟨x.nextId, a⟩], nextId := x.nextId + 1 }

/-- Keep a word in the cache, the oldest leaving a full one. -/
def State.dirtyPut (s : State) (p word v : Nat) : State :=
  s.modPcie fun x =>
    let d := lrem (fun e => e.1 == p && e.2.1 == word) x.dirty
    { x with dirty := (if dirtyCap ≤ d.length then d.drop 1 else d) ++ [(p, word, v)] }

/-- IOVA of a bitmap word of a partition. -/
def State.dirtyAddr (s : State) (p word : Nat) : Nat := s.get PRT_DIRTY_BASE_base 0 p * 4096 + word * 8

/-- The access that reads or writes a bitmap word. -/
def State.dirtyAcc (s : State) (p word : Nat) (op : HostOp) : HostAcc :=
  ⟨.dirty p word, 16, 0, s.get PRT_DIRTY_CTL_pasid 0 p, s.dirtyAddr p word, op⟩

/-- A bitmap word written with its bit set. -/
def State.dirtyWrite (s : State) (p word v : Nat) : State :=
  (s.txPut .bitmap (s.dirtyAcc p word (.write (leBytes 8 v) 0xFF false)) 2).dirtyPut p word v

/-- A partition's dirty log overflows for a page beyond its range (R466). -/
def State.dirtyOver (s : State) (p : Nat) : State :=
  ((s.put PRT_DIRTY_CTL_overflow 0 1 p).put PRT_DIRTY_CTL_reason 0 0x0A65 p).event 0x0A65 0xFFFF p 0

/-- Mark one page in the active half before a write to it (R464). -/
def State.logPage (s : State) (p pasid page : Nat) : State :=
  let pages := s.get PRT_DIRTY_RANGE_pages 0 p
  if pages ≤ page then s.dirtyOver p
  else
    let byte := s.get PRT_DIRTY_CTL_sel 0 p * pages + s.pasidIdx p pasid * (pages / 8) + page / 8
    let word := byte / 8
    let bit := 8 * (byte % 8) + page % 8
    match s.pcie.dirty.find? fun e => e.1 == p && e.2.1 == word with
    | some e => if nbit e.2.2 bit then s else s.dirtyWrite p word (e.2.2 + 2 ^ bit)
    | none =>
      let asked := s.pcie.tx.any fun t => match t.kind with | .bitmapWait q w _ => q == p && w == word | _ => false
      let s1 := s.txPut (.bitmapWait p word bit) (s.dirtyAcc p word (.write [] 0xFF false)) 2
      if asked then s1 else s1.readPut (s.dirtyAcc p word (.read 8))

/-- Does a partition log its host writes. -/
def State.logs (s : State) (p : Nat) : Bool := decide (p < 16) && s.get PRT_DIRTY_CTL_en 0 p == 1

/-- Log the pages that a write of `n` bytes touches. -/
def State.logWrite (s : State) (a : HostAcc) (n : Nat) : State :=
  if s.logs a.part then
    (List.range ((a.iova % 4096 + n + 4095) / 4096)).foldl (fun (s : State) i => s.logPage a.part a.pasid (a.iova / 4096 + i)) s
  else s

/-- The word of a bitmap has been read: the writes that waited for it take their place in the queue, in order. -/
def State.dirtyRead (s : State) (p word v : Nat) : State :=
  let r := s.pcie.tx.foldl (fun (a : Nat × List Tx) t => match t.kind with
    | .bitmapWait q w bit =>
      if q = p ∧ w = word then
        let v := a.1 ||| 2 ^ bit
        (v, a.2 ++ [{ t with kind := .bitmap, acc := { t.acc with op := .write (leBytes 8 v) 0xFF false } }])
      else (a.1, a.2 ++ [t])
    | _ => (a.1, a.2 ++ [t])) (v, [])
  (s.modPcie fun x => { x with tx := r.2 }).dirtyPut p word r.1

/-- A bitmap access failed (R466): overflow sets, logging ends, and the writes that waited go on unmarked. -/
def State.dirtyFail (s : State) (p : Nat) : State :=
  ((s.put PRT_DIRTY_CTL_overflow 0 1 p).put PRT_DIRTY_CTL_en 0 0 p).put PRT_DIRTY_CTL_reason 0 0x0A65 p
    |>.event 0x0A65 0xFFFF p 0 |>.modPcie fun x =>
      { x with tx := x.tx.filter fun t => match t.kind with | .bitmapWait q _ _ => q != p | _ => true }

/-! ### Issue and translation (R216, R389, R464) -/

/-- An access with its translation goes to the endpoint. A write is logged and queued; Relaxed Ordering is dropped where the
partition logs (R464). (Log 56 DEDUCED) -/
def State.hostIssue (s : State) (a : HostAcc) (kind : TxKind := .data) : State :=
  match a.op with
  | .read _ => s.readPut a
  | .write d be ro =>
    let on := s.logs a.part
    let s1 := s.logWrite a d.length
    s1.txPut kind { a with op := .write d be (ro && !on) } (if on then s.get PRT_DIRTY_CTL_sel 0 a.part else 2)

/-- Does an operation write. -/
def HostOp.isWrite : HostOp → Bool
  | .write _ _ _ => true
  | .read _ => false

/-- Does a translation grant an operation. -/
def grants (rd wr : Bool) (op : HostOp) : Bool := if op.isWrite then wr else rd

/-- The cached translation of a page. -/
def State.atcFind (s : State) (pasid page : Nat) : Option (Bool × Bool) :=
  match s.pcie.atc.find? fun e => e.1 == pasid && e.2.1 == page with
  | some e => some e.2.2
  | none => none

/-- Capacity of the translation cache (R386). -/
def atcCap : Nat := 8192

/-- Keep a translation, the oldest leaving a full cache. -/
def State.atcPut (s : State) (pasid page : Nat) (rd wr : Bool) : State :=
  s.modPcie fun x =>
    let t := x.atc.filter fun e => !(e.1 == pasid && e.2.1 == page)
    if rd || wr then { x with atc := (if atcCap ≤ t.length then t.drop 1 else t) ++ [(pasid, page, rd, wr)] } else { x with atc := t }

/-- An access waits for a translation, which is asked for unless it has been. -/
def State.hostWait (s : State) (a : HostAcc) : State :=
  let k := (a.pasid, a.iova / 4096)
  s.modPcie fun x => { x with waits := x.waits ++ [a], asked := if x.asked.contains k then x.asked else x.asked ++ [k] }

/-- A host access of a requester (R216): at once where ATS is disabled or a cached translation grants it, else it waits for a
Translation Request. -/
def State.hostAccess (s : State) (a : HostAcc) : State :=
  if !s.pcie.ats then s.hostIssue a
  else
    match s.atcFind a.pasid (a.iova / 4096) with
    | some g => if grants g.1 g.2 a.op then s.hostIssue a else s.hostWait a
    | none => s.hostWait a

/-- Send a Page Request for an access whose page lacks what it needs, within the capacity of 512 (R221). -/
def State.pageRequest (s : State) (w : Who) (pasid page : Nat) (wr : Bool) (acc : Option HostAcc := none) : State :=
  let r : PageReq := ⟨s.pcie.nextId, w, pasid, page, wr, false, acc⟩
  s.modPcie fun x =>
    if x.prs.length < 512 then { x with prs := x.prs ++ [r], nextId := x.nextId + 1 }
    else { x with prWait := x.prWait ++ [r], nextId := x.nextId + 1 }

/-- A place among the Page Requests has come free. -/
def State.prNext (s : State) : State :=
  s.modPcie fun x => match x.prWait with
    | [] => x
    | r :: t => if x.prs.length < 512 then { x with prs := x.prs ++ [r], prWait := t } else x

/-! ### Interrupts (R414) -/

/-- BAR0 offset of the MSI-X table and of a vector's control word. -/
def msixBase : Nat := 0x0800000

/-- A byte of the host-writable memory of BAR0; a vector's mask bit is set after reset. (Log 14 PRESUMED) -/
def State.bar0Byte (s : State) (a : Nat) : Byte :=
  let d : Byte := if msixBase ≤ a ∧ a < msixBase + 0x8000 ∧ a % 16 = 12 then 1 else 0
  match tfind s.bar0 a with
  | some b => b
  | none => d

/-- Bytes of that memory. -/
def State.bar0Bytes (s : State) (a n : Nat) : List Byte := (List.range n).map fun i => s.bar0Byte (a + i)

/-- Store bytes in that memory. -/
def State.bar0Put (s : State) (a : Nat) (bs : List Byte) : State :=
  { s with bar0 := bs.zipIdx.foldl (fun t p => tins (a + p.2) p.1 t) s.bar0 }

/-- Is a vector masked. (Log 14 PRESUMED) -/
def State.msixMasked (s : State) (v : Nat) : Bool := (s.bar0Byte (msixBase + 16 * v + 12)).toNat % 2 == 1

/-- Queue the message of a vector. -/
def State.msixQueue (s : State) (v : Nat) : State :=
  let addr := leNat (s.bar0Bytes (msixBase + 16 * v) 8)
  let data := s.bar0Bytes (msixBase + 16 * v + 8) 4
  s.txPut (.msix v) ⟨.aselo 0, 16, 0, 0, addr, .write data 0xF false⟩ 2

/-- Send an interrupt: a masked vector sets its pending bit (R414). -/
def State.msixSend (s : State) (v : Nat) : State :=
  if s.msixMasked v then s.modPcie fun x => { x with pba := x.pba ||| 2 ^ v } else s.msixQueue v

/-- Vectors unmasked with their pending bit set send their message. -/
def State.msixUnmask (s : State) (v : Nat) : State :=
  if nbit s.pcie.pba v && !(s.msixMasked v) then (s.modPcie fun x => { x with pba := x.pba - 2 ^ v }).msixQueue v else s

end Sys2Proof.Machine
end

