-- ==== Sys2Proof/Machine/Lokel.lean ====
section
/-!
DEFINITION. The Lokel fabric's named operations (chapter "The Lokel fabric: links, transport and ordering"): the layout of
flits and messages, reservations and credits, the replay buffer, streams at their source, and sending.
-/
namespace Sys2Proof.Machine

open Sys2Proof

/-! ### Access -/

/-- A link, and a change of it. -/
def State.link (s : State) (l : Nat) : Link := tget Link.init s.links l
def State.modLink (s : State) (l : Nat) (f : Link → Link) : State := { s with links := tset Link.init s.links l (f (s.link l)) }

/-- The Lokel state of an I/O die, and a change of it. -/
def State.lokD (s : State) (d : Nat) : LokDie := tget LokDie.init s.lok d
def State.modLok (s : State) (d : Nat) (f : LokDie → LokDie) : State := { s with lok := tset LokDie.init s.lok d (f (s.lokD d)) }

/-- I/O die of a link (R14). -/
def linkDie (l : Nat) : Nat := l / 12

/-- States of a link (Table 12.12). -/
def lnkDown : Nat := 0
def lnkTraining : Nat := 1
def lnkUp : Nat := 2
def lnkRetraining : Nat := 3
def lnkFailed : Nat := 4

/-! ### The header of a flit (Table 12.2) and of a message (Table 12.7) -/

/-- Header bits [127:40]. -/
def mkHdr (dst src opcode hops span gen ttag key : Nat) : Nat :=
  dst % 2 ^ 12 + (src % 2 ^ 12) * 2 ^ 12 + (opcode % 2 ^ 5) * 2 ^ 24 + (hops % 8) * 2 ^ 29 + (span % 2 ^ 16) * 2 ^ 32 +
  (gen % 2 ^ 8) * 2 ^ 48 + (ttag % 2 ^ 16) * 2 ^ 56 + (key % 2 ^ 8) * 2 ^ 72
def hDst (h : Nat) : Nat := nfld h 0 12
def hSrc (h : Nat) : Nat := nfld h 12 12
def hOpcode (h : Nat) : Nat := nfld h 24 5
def hHops (h : Nat) : Nat := nfld h 29 3
def hSpan (h : Nat) : Nat := nfld h 32 16
def hGen (h : Nat) : Nat := nfld h 48 8
def hTtag (h : Nat) : Nat := nfld h 56 16
def hKey (h : Nat) : Nat := nfld h 72 8

/-- The 32-byte header word of a message. -/
def mkWord (addr oseq b : Nat) (poisoned opn : Bool) (mctr opf : Nat) : List Byte :=
  leBytes 8 addr ++ leBytes 4 oseq ++ leBytes 4 (b % 64 + 64 * b2n poisoned + 128 * b2n opn) ++ leBytes 8 mctr ++ leBytes 8 opf

/-- Bytes of the words of a message. -/
def RxMsg.bytes (m : RxMsg) : List Byte := m.words.flatMap fun w => slice w.1 0 16
def RxMsg.addr (m : RxMsg) : Nat := leAt m.bytes 0 8
def RxMsg.oseq (m : RxMsg) : Nat := leAt m.bytes 8 4
def RxMsg.flags (m : RxMsg) : Nat := leAt m.bytes 12 4
def RxMsg.b (m : RxMsg) : Nat := nfld m.flags 0 6
def RxMsg.opn (m : RxMsg) : Bool := nbit m.flags 7
def RxMsg.mctr (m : RxMsg) : Nat := leAt m.bytes 16 8
def RxMsg.opf (m : RxMsg) : Nat := leAt m.bytes 24 8
def RxMsg.opcode (m : RxMsg) : Nat := hOpcode m.hdr
def RxMsg.src (m : RxMsg) : Nat := hSrc m.hdr
def RxMsg.dst (m : RxMsg) : Nat := hDst m.hdr
def RxMsg.span (m : RxMsg) : Nat := hSpan m.hdr
def RxMsg.gen (m : RxMsg) : Nat := hGen m.hdr
def RxMsg.ttag (m : RxMsg) : Nat := hTtag m.hdr
def RxMsg.key (m : RxMsg) : Nat := hKey m.hdr
/-- Data blocks that a message carries: a read request, a pull read and a close carry none. -/
def carries (opcode b : Nat) : Nat := if opcode = 1 ∨ opcode = 9 ∨ opcode = 10 then 0 else b
/-- Poison of the four words of block i of a message, and of the block. -/
def RxMsg.marks (m : RxMsg) (i : Nat) : List Bool := ((m.words.drop (2 + 4 * i)).take 4).map (·.2)
def RxMsg.poison (m : RxMsg) (i : Nat) : Bool := (m.marks i).any (· == true)

/-- Nonce of a message (R336). -/
def msgNonce (mctr key src die : Nat) : List Byte :=
  leBytes 8 mctr ++ [BitVec.ofNat 8 key, 0] ++ leBytes 2 (src + die * 2 ^ 15)

/-- Additional data of a message: the header word, then the flit header's bytes 5 to 15 with hops zero (R336). -/
def msgAad (word : List Byte) (hdr : Nat) : List Byte := word ++ leBytes 11 (hdr - hHops hdr * 2 ^ 29)

/-! ### A flit on the wire (R316) -/

/-- One byte of CRC-32C, polynomial 0x1EDC6F41 in reflected form. -/
def crcBits : Nat → Nat → Nat
  | 0, c => c
  | k + 1, c => crcBits k (if c % 2 = 1 then (c / 2) ^^^ 0x82F63B78 else c / 2)

/-- CRC-32C of a byte string. -/
def crc32c (l : List Byte) : Nat := (l.foldl (fun c b => crcBits 8 (c ^^^ b.toNat)) 0xFFFFFFFF) ^^^ 0xFFFFFFFF

/-- Inverse of α^16 + α^17, by which the second check symbol follows from the two sums. -/
def gfInv : Nat := 0xF9

/-- A data word on the wire: 16 bytes and the two check symbols of R179, both inverted in a word marked poisoned (R181, R317). -/
def wireWord (w : List Byte × Bool) : List Byte :=
  let b := slice w.1 0 16
  let a := b.zipIdx.foldl (fun (a : Nat × Nat) p => (a.1 ^^^ p.1.toNat, a.2 ^^^ gfMul p.1.toNat (gfPow p.2))) (0, 0)
  let c1 := gfMul (a.2 ^^^ gfMul a.1 (gfPow 16)) gfInv
  let flip := if w.2 then 0xFF else 0
  b ++ [BitVec.ofNat 8 ((a.1 ^^^ c1) ^^^ flip), BitVec.ofNat 8 (c1 ^^^ flip)]

/-- A flit of 272 bytes: header (Table 12.2) with the latest acknowledgement of the reverse direction, 14 data words and the CRC. -/
def Link.flitBytes (x : Link) (ftype cls lseq hdr : Nat) (words : List (List Byte × Bool)) : List Byte :=
  let h := ftype % 16 + cls % 4 * 2 ^ 4 + lseq % 4096 * 2 ^ 8 + x.ackSeq.getD 0 % 4096 * 2 ^ 20 + b2n x.ackSeq.isSome * 2 ^ 32 +
    b2n x.nack * 2 ^ 33 + hdr * 2 ^ 40
  let b := leBytes 16 h ++ (List.range 14).flatMap fun i => wireWord (lget ([], false) words i)
  b ++ leBytes 4 (crc32c b)

/-- The last flits sent that the model keeps. (Log 194 DESIGN CHOICE) -/
def wireKeep : Nat := 256

/-- Flits go out on a link. (Log 194 DESIGN CHOICE) -/
def Link.emit (x : Link) (fs : List (List Byte)) : Link := { x with wire := (x.wire ++ fs).drop (x.wire.length + fs.length - wireKeep) }

/-- A flit of a message as the wire carries it. -/
def Link.bytesOf (x : Link) (f : Flit) : List Byte := x.flitBytes f.ftype f.cls f.lseq f.hdr f.words

/-! ### Reservations, credits and the replay buffer (R318 to R327) -/

/-- The reservation of a span and class on a link; management messages use reservation 0 (R319). -/
def State.rsvOf (s : State) (l span cls : Nat) : Option Nat :=
  if cls = 0 then some 0
  else (List.range 64).find? fun i =>
    s.get LNK_RSV_valid l i == 1 && s.get LNK_RSV_class l i == cls && s.get LNK_RSV_span l i == span

/-- Owner of a slot of the transmit frame. -/
def State.slotOwner (s : State) (l slot : Nat) : Nat := nfld (s.rreg LNK_SLOTS l (slot / 8)) (8 * (slot % 8)) 8

/-- Owners of the 128 slots of the transmit frame, in order (R318). -/
def State.frame (s : State) (l : Nat) : List Nat := (List.range 128).map (s.slotOwner l)

/-- May a reservation that owns n slots of the frame send (R321): it holds a credit. -/
def Link.credit (x : Link) (rsv n : Nat) : Bool := decide (tget 0 x.sent rsv < tget 0 x.peerFreed rsv + 4 * n + 4)

/-- A slot of a reservation that owns n of them: its first ready flit goes out while it holds a credit and the replay buffer has room
(R319, R321, R327). -/
def Link.slot (n : Nat) (x : Link) (r : Nat) : Link :=
  if 256 ≤ x.replay.length ∨ x.credit r n = false then x
  else match x.ready.find? fun f => f.rsv == r with
    | none => x
    | some f =>
      let g := { f with lseq := x.nextSeq }
      { x with ready := lrem (fun y => y.rsv == r) x.ready, replay := x.replay ++ [g], nextSeq := (x.nextSeq + 1) % 4096,
               sent := tset 0 x.sent r (tget 0 x.sent r + 1) }.emit [x.bytesOf g]

/-- Frames go by while flits are ready: the slots of the frame serve their reservations in turn (R320). (Log 194 DESIGN CHOICE) -/
def Link.frames (owners : List Nat) : Nat → Link → Link
  | 0, x => x
  | n + 1, x =>
    if x.ready.isEmpty then x
    else
      let mine := owners.filter fun r => x.ready.any fun f => f.rsv == r
      Link.frames owners n (mine.foldl (fun (x : Link) r => x.slot ((owners.filter (· == r)).length) r) x)

/-- Send what can be sent, slot by slot of the transmit frame. -/
def State.linkPump (s : State) (l : Nat) : State :=
  if s.get LNK_CTL_state l ≠ lnkUp ∨ (s.link l).ready.isEmpty = true then s
  else s.modLink l fun x => x.frames (s.frame l) x.ready.length

/-- The flits of a message's words (R335): heads, bodies and a tail, or one single flit. -/
def mkFlits (cls hdr rsv : Nat) (words : List (List Byte × Bool)) : List Flit :=
  let cs := chunks 14 words.length words
  let n := cs.length
  cs.zipIdx.map fun p =>
    let t := if n = 1 then 5 else if p.2 = 0 then 2 else if p.2 + 1 = n then 4 else 3
    ⟨t, cls, hdr, p.1 ++ List.replicate (14 - p.1.length) (List.replicate 16 0, false), rsv, 0, 0, true⟩

/-- Put a message's flits on a link. -/
def State.linkPut (s : State) (l : Nat) (fs : List Flit) : State := (s.modLink l fun x => { x with ready := x.ready ++ fs }).linkPump l

/-! ### Keys (R496) -/

/-- The slot under which a span's messages are sent: slot 0 for management, else the loaded send slot of the span. (Log 100 DEDUCED) -/
def State.sendSlot (s : State) (cls span : Nat) : Option Nat :=
  if cls = 0 then (match tfind s.keys 0 with | some _ => some 0 | none => none)
  else match s.keys.find? fun p => p.1 != 0 && p.2.span == span && p.2.send with
    | some p => some p.1
    | none => none

/-- Key of a slot. -/
def State.slotKey (s : State) (k : Nat) : List Byte := match tfind s.keys k with | some x => x.key | none => []

/-! ### Sending -/

/-- Tag of an event that a message gives rise to (Table 18.4): peer, class, and whether it was sent. -/
def evTag (peer cls : Nat) (sent : Bool) : Nat := peer % 4096 + cls % 4 * 2 ^ 12 + b2n sent * 2 ^ 14 + 2 ^ 15

/-- Address of the first poisoned block of a message. -/
def poisonAddr (addr : Nat) (poison : List Bool) : Nat := addr + 64 * poison.idxOf true

/-- Encrypt one message at an I/O die and send it on links, each with its reservation (R331, R335 to R337). (Log 96 DEDUCED) -/
def State.lokEmit (s : State) (d : Nat) (ls : List (Nat × Nat)) (key : Nat) (m : Send) (hops ttag oseq : Nat) (opn : Bool) : State :=
  let src := s.moduleId
  let mctr := tget 0 (s.lokD d).mctr key
  let hdr := mkHdr m.dst src m.opcode hops m.span m.gen ttag key
  let word := mkWord m.addr oseq m.b (m.poison.any (· == true)) opn mctr m.opf
  let plain := m.blocks.flatMap fun b => slice b 0 64
  let sealed := Config.gcmSeal (s.slotKey key) (msgNonce mctr key src d) (msgAad word hdr) plain
  let ct := m.blocks.zipIdx.flatMap fun p =>
    (List.range 4).map fun q => (slice sealed.1 (64 * p.2 + 16 * q) 16, lget false m.poison p.2)
  let words := [(slice word 0 16, false), (slice word 16 16, false)] ++ ct ++ [(slice sealed.2 0 16, false)]
  let ev : Event := { Event.plain 0x07F6 0 0xFF 0 (match ls with | p :: _ => p.1 | [] => 0xFFFF) 0 (poisonAddr m.addr m.poison) with
    tag := evTag m.dst m.cls true, span := m.span, oseq := if m.opcode = 5 then m.opf % 2 ^ 32 else oseq,
    stream := if m.opcode = 5 then nfld m.opf 32 16 else 0, tflags := b2n (m.opcode == 5) + 2 * b2n opn }
  let s := if m.poison.any (· == true) then s.raise ev else s
  ls.foldl (fun (s : State) p => s.linkPut p.1 (mkFlits m.cls hdr p.2 words))
    (s.modLok d fun x => { x with mctr := tset 0 x.mctr key ((mctr + 1) % 2 ^ 64) })

/-- Why a message cannot be sent from an I/O die: the first failing code in increasing order (R510); 0 when it can. (Log 12 DEDUCED, 101 DEDUCED) -/
def State.sendCode (s : State) (d : Nat) (m : Send) (dst : Nat) : Nat :=
  match s.route d dst with
  | none => 0x0217
  | some (l, _) =>
    let st := s.get LNK_CTL_state l
    let down := st == lnkDown || st == lnkFailed || st == lnkTraining
    if s.left.contains dst then 0x0725
    else if (s.rsvOf l m.span m.cls).isNone then 0x0726
    else if (s.sendSlot m.cls m.span).isNone then 0x072A
    else if down then 0x0733 else 0

/-- Is the sending partition's generation the current one (R459). -/
def State.genOk (s : State) (part gen : Nat) : Bool := decide (16 ≤ part) || s.get PRT_PART_CTL_gen 0 part == gen

/-- Send a message that belongs to no stream: a response, an acknowledgement, a fault response or a routed notice. It is
dropped, and counted at link `at_`, when no route leads to its destination (R330). R352 refuses new issue to a module that
left, and an answer is none. A fault response for which no key of its span remains goes in reservation 0 under slot 0, as R497 has it. (Log 164 DEDUCED, 196 DEDUCED) -/
def State.lokReply (s : State) (d at_ : Nat) (m0 : Send) (key : Option Nat := none) : State :=
  let m := if m0.opcode = 7 ∧ (s.sendSlot m0.cls m0.span).isNone = true then { m0 with cls := 0, span := 0 } else m0
  match s.route d m.dst with
  | none => s.bump LNK_DROP_CNT_route at_
  | some (l, dist) =>
    if ({ s with left := [] }).sendCode d m m.dst ≠ 0 then s
    else if !(s.genOk m.part m.gen) then s.bump LNK_DROP_CNT_stale l
    else
      match s.rsvOf l m.span m.cls with
      | none => s
      | some r =>
        let k := match key with | some k => k | none => (s.sendSlot m.cls m.span).getD 0
        s.lokEmit d [(l, r)] k m dist (m.ttag.getD 0) (m.oseq.getD 0) false

/-- The source entry of a stream. -/
def LokDie.findSrc (x : LokDie) (dst span cls : Nat) : Option SrcStream :=
  x.src.find? fun e => e.dst == dst && e.span == span && e.cls == cls

/-- Change the source entry of a stream. -/
def State.modSrc (s : State) (d dst span cls : Nat) (f : SrcStream → SrcStream) : State :=
  s.modLok d fun x => { x with src := x.src.map fun e => if e.dst == dst && e.span == span && e.cls == cls then f e else e }

/-- Is something of a stream outstanding. -/
def LokDie.busy (x : LokDie) (dst span cls : Nat) : Bool := x.outs.any fun o => o.dst == dst && o.span == span && o.cls == cls

/-- Entries of a stream table (R342). -/
def streamCap : Nat := 8192

/-- Is a transaction tag that of an outstanding request or of a root's stream. -/
def LokDie.hasTag (x : LokDie) (t : Nat) : Bool := (x.outs.any fun o => o.ttag == t) || x.roots.any fun r => r.ttag == t

/-- A transaction tag for an I/O die that no outstanding request of the module has: answers are matched by tag alone (R338). -/
def State.freshTag (s : State) (d : Nat) : Nat :=
  let x := s.lokD d
  let y := s.lokD (1 - d)
  match (List.range (x.outs.length + x.roots.length + y.outs.length + y.roots.length + 1)).find? fun i =>
      !(x.hasTag ((x.nextTtag + i) % 65536)) && !(y.hasTag ((x.nextTtag + i) % 65536)) with
  | some i => (x.nextTtag + i) % 65536
  | none => x.nextTtag

/-- Send a request message of a stream on a link, recording it as outstanding when it is answered (R342, R351). -/
def State.sendStream (s : State) (d l dist rsv key : Nat) (m : Send) (e : SrcStream) : State :=
  let tag := match m.ttag with | some t => t | none => s.freshTag d
  let s1 := s.modSrc d m.dst m.span m.cls fun _ => { e with next := e.next + 1 }
  let s2 := if m.opcode = 5 ∨ m.opcode = 10 ∨ m.opcode = 16 then s1
    else s1.modLok d fun x =>
      { x with outs := x.outs ++ [⟨tag, m.who, m.dst, m.span, m.cls, e.next % 2 ^ 32, m.opcode, m.gen, m.part, m.addr, m.b⟩],
               nextTtag := (tag + 1) % 65536 }
  s2.lokEmit d [(l, rsv)] key m dist tag (e.next % 2 ^ 32) (e.next == 0)

/-- Issue a request message from an I/O die (R325, R329, R330, R342, R344, R352, R459): the code of a refusal, 0 when it is on
its way or waits for its broken stream to be empty. -/
def State.lokIssue (s : State) (d : Nat) (m : Send) (via : Option Nat := none) : State × Nat :=
  let goal := via.getD m.dst
  let code := s.sendCode d m goal
  if code ≠ 0 then (s, code)
  else
    match s.route d goal with
    | none => (s, 0x0217)
    | some (l, dist) =>
      if !(s.genOk m.part m.gen) then (s.bump LNK_DROP_CNT_stale l, 0)
      else
        match s.rsvOf l m.span m.cls, s.sendSlot m.cls m.span with
        | some r, some k =>
          match (s.lokD d).findSrc m.dst m.span m.cls with
          | none =>
            if streamCap ≤ (s.lokD d).src.length then (s, 0x0727)
            else
              let e : SrcStream := ⟨m.dst, m.span, m.cls, 0, false, []⟩
              ((s.modLok d fun x => { x with src := x.src ++ [e] }).sendStream d l dist r k m e, 0)
          | some e =>
            if e.broken then
              if (s.lokD d).busy m.dst m.span m.cls then
                (s.modSrc d m.dst m.span m.cls fun e => { e with held := e.held ++ [m] }, 0)
              else (s.sendStream d l dist r k m { e with next := 0, broken := false }, 0)
            else (s.sendStream d l dist r k m e, 0)
        | _, _ => (s, 0x0726)

/-- Messages that waited for a broken stream to be empty are sent (R344). -/
def State.lokHeld (s : State) (d dst span cls : Nat) : State :=
  match (s.lokD d).findSrc dst span cls with
  | none => s
  | some e =>
    if (s.lokD d).busy dst span cls then s
    else (s.modSrc d dst span cls fun e => { e with held := [] }) |> fun s1 => e.held.foldl (fun (s : State) m => (s.lokIssue d m).1) s1

/-- An outstanding request is over. -/
def State.outDone (s : State) (d : Nat) (o : Out) : State :=
  (s.modLok d fun x => { x with outs := lrem (fun p => p.ttag == o.ttag) x.outs }).lokHeld d o.dst o.span o.cls

end Sys2Proof.Machine
end

