-- ==== Sys2Proof/Machine/Upd.lean ====
section
/-!
DEFINITION. The home channels' update path (chapters "Tuning: split masters, the update path and pipelined stages" and
"Rank-ordered reduction, parameter return and weight distribution"): records, the home adder, the update engine, the norm
root and reduction-control messages.
-/
namespace Sys2Proof.Machine

open Sys2Proof

/-! ### Access -/

/-- A job entry of a channel, and a change of it. -/
def State.updE (s : State) (ch n : Nat) : UpdEnt := tget UpdEnt.init s.upd (16 * ch + n)
def State.modUpd (s : State) (ch n : Nat) (f : UpdEnt → UpdEnt) : State :=
  { s with upd := tset UpdEnt.init s.upd (16 * ch + n) (f (s.updE ch n)) }

/-- Bytes at a channel address, within one interleave unit. -/
def State.chRd (s : State) (ch ca n : Nat) : List Byte := s.rdMem (chanOffset ch ca) n
/-- Number at a channel address. -/
def State.chNum (s : State) (ch ca n : Nat) : Nat := leNat (s.chRd ch ca n)
/-- Does a range at a channel address read poisoned. -/
def State.chBad (s : State) (ch ca n : Nat) : Bool := s.rdPoison (chanOffset ch ca) n
/-- Write bytes at a channel address; a channel that takes no write refuses them (R209, R227). -/
def State.chWr (s : State) (ch ca : Nat) (bs : List Byte) : State :=
  if s.chanTakes (chanOffset ch ca) then s.wrBytes (chanOffset ch ca) (bs.map some) false else s
/-- The counts and events of a read at a channel address (R204). -/
def State.chNote (s : State) (ch ca n : Nat) : State := s.noteRead (chanOffset ch ca) n

/-- Are the pages of a range of a channel present (R37). (Log 191 DEDUCED) -/
def State.chHere (s : State) (ch ca n : Nat) : Bool :=
  (List.range ((ca % 2 ^ 18 + n + 2 ^ 18 - 1) / 2 ^ 18)).all fun i => s.pageState (chanOffset ch (ca + 2 ^ 18 * i)) == 0

/-- Channel indices of a channel (R36: 786,432 interleave units). -/
def chUnits : Nat := 786432

/-! ### The optimizer record (R288 to R290) -/

/-- Channel address of entry n of the record table (R357). -/
def State.recEntry (s : State) (ch n : Nat) : Nat := s.get UPD_TABLE_base ch * 2048 + 256 * n

/-- The fixed part of a record followed by the step block of an attempt. -/
def State.recBytes (s : State) (ch n txn : Nat) : List Byte :=
  s.chRd ch (s.recEntry ch n) 128 ++ s.chRd ch (s.recEntry ch n + 128 + 64 * (txn % 2)) 64

/-- Fields of a record (Tables 11.2 and 11.3; the step block follows at byte 128). -/
def rKind (r : List Byte) : Nat := leAt r 2 1
def rGuard (r : List Byte) : Bool := nbit (leAt r 3 1) 0
def rFused (r : List Byte) : Bool := nbit (leAt r 3 1) 1
def rFirst (r : List Byte) : Bool := nbit (leAt r 3 1) 2
def rJob (r : List Byte) : Nat := leAt r 4 4
def rSeed (r : List Byte) : Nat := leAt r 8 8
def rFirstUnit (r : List Byte) : Nat := leAt r 16 4
def rUnits (r : List Byte) : Nat := leAt r 20 4
def rRun (r : List Byte) : Nat := leAt r 24 4
def rExport (r : List Byte) : Nat := leAt r 28 4
/-- A binary32 field. -/
def rF (r : List Byte) (off : Nat) : XNum := bin32.dec (leAt r off 4)
def rTxn (r : List Byte) : Nat := leAt r 128 8
def rDither (r : List Byte) : Nat := leAt r 136 4

/-- Offsets of the binary32 fields that a record's kind uses (Table 11.4), grad_scale and max_norm included. -/
def rUsed (r : List Byte) : List Nat :=
  [60] ++ (if rFused r then [64] else []) ++
  (if rKind r = 1 then [52, 140] else if rKind r = 2 then [52, 56, 140]
   else if rKind r = 3 then [32, 36, 40, 44, 48, 52, 140, 144, 148]
   else if rKind r = 4 then (if rFirst r then [32, 36, 144] else []) ++ [40, 44, 48, 52, 140, 148]
   else [])

/-- Are all bytes of a range of a list zero. -/
def zeroAt (l : List Byte) (off n : Nat) : Bool := (slice l off n).all (· == 0)

/-- Do two runs of channel indices share none. -/
def disjointRuns (a n b m : Nat) : Bool := decide (a + n ≤ b) || decide (b + m ≤ a)

/-- Checks 1, 2, 3 and 5 of Table 11.5. -/
def recStatic (r : List Byte) : List (Bool × Nat) :=
  let k := rKind r
  [ (leAt r 0 2 == 1 && decide (1 ≤ k) && decide (k ≤ 5) && decide (leAt r 3 1 < 8) && zeroAt r 68 60 && zeroAt r 152 40 &&
      (!rFirst r || k == 4) && (k != 5 || (!rGuard r && !rFused r)) && (k == 5 || rExport r == 0), 0x0C42),
    (decide (1 ≤ rUnits r) && decide (rRun r + rUnits r ≤ chUnits) &&
      (k != 5 || (decide (rExport r + rUnits r ≤ chUnits) && disjointRuns (rRun r) (rUnits r) (rExport r) (rUnits r))), 0x0C43),
    (decide (rFirstUnit r + rUnits r ≤ 2 ^ 24), 0x0C44) ]

/-- Check 5 of Table 11.5. -/
def recFloats (r : List Byte) : Bool :=
  (rUsed r).all (fun o => !(rF r o).nonfinite) &&
  (!(rKind r == 3 || rKind r == 4) || XNum.zero.lt (rF r 48)) && (!rFused r || XNum.zero.lt (rF r 64))

/-- The checks of Table 11.5, in table order, against the step whose sums completed. -/
def recChecks (r : List Byte) (txn : Nat) : List (Bool × Nat) :=
  recStatic r ++ [(rTxn r % 2 ^ 32 == txn, 0x0C45), (recFloats r, 0x0C46)]

/-! ### Reduction records (R359, R362) -/

/-- Ranks of an entry. -/
def State.ranks (s : State) (ch n : Nat) : Nat := s.get UPD_JOB_CFG_rmax ch n + 1

/-- Bytes of a reduction record for K ranks. -/
def redSize (k : Nat) : Nat := 2048 * cdiv (1344 + 512 * (k - 1)) 2048

/-- Channel address of the record of a unit's position in the run. -/
def State.redRec (s : State) (ch n pos : Nat) : Nat := s.get UPD_JOB_CFG_red_base ch n * 2048 + redSize (s.ranks ch n) * pos

/-- Is a record empty: its step is not the attempt's. -/
def State.redEmpty (s : State) (ch n pos : Nat) : Bool :=
  s.chNum ch (s.redRec ch n pos) 4 != s.get UPD_JOB_STEP_txn_step ch n

/-- Next rank awaited for block b. -/
def State.redNext (s : State) (ch n pos b : Nat) : Nat :=
  if s.redEmpty ch n pos then 0 else s.chNum ch (s.redRec ch n pos + 4 + 2 * b) 2

/-- Is a contribution of a rank to block b staged. -/
def State.redStaged (s : State) (ch n pos b r : Nat) : Bool :=
  !(s.redEmpty ch n pos) && nbit (s.chNum ch (s.redRec ch n pos + 64 + 32 * b + r / 8) 1) (r % 8)

/-- Is a unit complete. -/
def State.unitComplete (s : State) (ch n pos : Nat) : Bool :=
  (List.range 8).all fun b => s.redNext ch n pos b == s.ranks ch n

/-- Does a unit hold an accepted contribution of the step without being complete. -/
def State.unitPartial (s : State) (ch n pos : Nat) : Bool := !(s.redEmpty ch n pos) && !(s.unitComplete ch n pos)

/-- Does the header of a record, or the presence of block b, read poisoned. -/
def State.redBad (s : State) (ch n pos b : Nat) : Bool :=
  let a := s.redRec ch n pos
  s.chBad ch a 20 || (!(s.redEmpty ch n pos) && s.chBad ch (a + 64 + 32 * b) 32)

/-- Do the sums of block b read poisoned. -/
def State.sumsBad (s : State) (ch n pos b : Nat) : Bool := !(s.redEmpty ch n pos) && s.chBad ch (s.redRec ch n pos + 320 + 128 * b) 128

/-- Begin a record for the attempt when it is empty: next and presence zero, sums +0. -/
def State.redOpen (s : State) (ch n pos : Nat) : State :=
  if s.redEmpty ch n pos then
    let a := s.redRec ch n pos
    ((s.chWr ch a (leBytes 4 (s.get UPD_JOB_STEP_txn_step ch n) ++ List.replicate 60 0)).chWr ch (a + 64) (List.replicate 256 0)).chWr ch
      (a + 320) (List.replicate 1024 0)
  else s

/-- The 32 sums of a block with a contribution added, each addition rounded once to binary32 (R141). -/
def addSums (sums data : List Byte) : List Byte :=
  (List.range 32).flatMap fun e =>
    leBytes 4 (bin32.enc none ((bin32.dec (leAt sums (4 * e) 4)).add (bf16.dec (leAt data (2 * e) 2))))

/-- Add a contribution to block b and await the next rank. -/
def State.redAdd (s : State) (ch n pos b : Nat) (data : List Byte) : State :=
  let a := s.redRec ch n pos
  (s.chWr ch (a + 320 + 128 * b) (addSums (s.chRd ch (a + 320 + 128 * b) 128) data)).chWr ch (a + 4 + 2 * b)
    (leBytes 2 (s.redNext ch n pos b + 1))

/-- Mark or unmark a staged contribution. -/
def State.redMark (s : State) (ch n pos b r : Nat) (v : Bool) : State :=
  let a := s.redRec ch n pos + 64 + 32 * b + r / 8
  let w := s.chNum ch a 1
  s.chWr ch a [BitVec.ofNat 8 (nput w (r % 8) 1 (b2n v))]

/-- Channel address of the staging place of a rank's block. -/
def State.redStage (s : State) (ch n pos b r : Nat) : Nat := s.redRec ch n pos + 1344 + 512 * (r - 1) + 64 * b

/-- Drain the staged contributions that follow, at most `fuel` ranks; true when one of them reads poisoned. -/
def State.redDrain (ch n pos b : Nat) : Nat → State → State × Bool
  | 0, s => (s, false)
  | fuel + 1, s =>
    let r := s.redNext ch n pos b
    if r < s.ranks ch n ∧ s.redStaged ch n pos b r = true then
      let a := s.redStage ch n pos b r
      let t := s.chNote ch a 64
      if s.chBad ch a 64 then (t, true)
      else State.redDrain ch n pos b fuel ((t.redAdd ch n pos b (s.chRd ch a 64)).redMark ch n pos b r false)
    else (s, false)

/-- The counts of the adder's reads for block b: the header and, of a record that is not empty, the presence bits. -/
def State.redNote (s : State) (ch n pos b : Nat) : State :=
  let a := s.redRec ch n pos
  if s.redEmpty ch n pos then s.chNote ch a 20 else (s.chNote ch a 20).chNote ch (a + 64 + 32 * b) 32

/-- Add or stage one block of a rank (R362); true when a read of the record is poisoned. Only an addition reads the sums. -/
def State.redBlock (s0 : State) (ch n pos b rank : Nat) (data : List Byte) : State × Bool :=
  let s := s0.redNote ch n pos b
  if s.redBad ch n pos b then (s, true)
  else if s.redNext ch n pos b < rank then
    let s1 := s.redOpen ch n pos
    ((s1.chWr ch (s1.redStage ch n pos b rank) data).redMark ch n pos b rank true, false)
  else
    let s1 := if s.redEmpty ch n pos then s else s.chNote ch (s.redRec ch n pos + 320 + 128 * b) 128
    if s.sumsBad ch n pos b then (s1, true)
    else State.redDrain ch n pos b (s.ranks ch n) ((s1.redOpen ch n pos).redAdd ch n pos b data)

/-! ### Reduction-control messages (R368, Tables 13.4 and 13.5) -/

/-- Croft, I/O die, partition, generation and span of a channel. -/
def chCroft (ch : Nat) : Nat := ch / 8
def chDie (ch : Nat) : Nat := ch / 64
def State.chPart (s : State) (ch : Nat) : Nat :=
  if s.get PRT_CROFT_assigned 0 (chCroft ch) = 1 then s.get PRT_CROFT_partition 0 (chCroft ch) else 16
def State.chGen (s : State) (ch : Nat) : Nat := s.get PRT_CROFT_gen 0 (chCroft ch)
def State.chSpan (s : State) (ch : Nat) : Nat := s.get PRT_CROFT_span 0 (chCroft ch)

/-- A reduction-control block. -/
def redMsg (job txn subtype index reason value reply : Nat) : List Byte :=
  leBytes 4 job ++ leBytes 4 txn ++ leBytes 2 subtype ++ leBytes 2 index ++ leBytes 2 reason ++ leBytes 2 0 ++ leBytes 4 value ++
    leBytes 8 reply ++ List.replicate 36 0

/-- A global address. -/
def globalAddr (m off : Nat) : Nat := 2 ^ 62 + m * 2 ^ 46 + off
def addrModule (a : Nat) : Nat := nfld a 46 12
def addrOff (a : Nat) : Nat := a % 2 ^ 46

/-- Global address of a channel's record-table entry. -/
def State.entryAddr (s : State) (ch n : Nat) : Nat := globalAddr s.moduleId (chanOffset ch (s.recEntry ch n))

/-- Send a reduction-control block of a span from an I/O die; a message to the own module is taken locally. A message that
cannot be issued records one event with the reason, which is returned. (Log 87 DEDUCED) -/
def State.redSend (s : State) (d part gen span : Nat) (who : Who) (addr : Nat) (blk : List Byte) : State × Nat :=
  if addrModule addr = s.moduleId then ({ s with redIn := s.redIn ++ [(addrOff addr, blk)] }, 0)
  else
    let r := s.lokIssue d { cls := 2, span := span, dst := addrModule addr, opcode := 0x11, gen := gen, part := part, addr := globalAddr (addrModule addr) (addrOff addr),
                            opf := 0, blocks := [blk], poison := [false], b := 1, who := some who, ttag := none, oseq := none }
    if r.2 = 0 then (r.1, 0) else (r.1.event r.2 0xFFFF part 0, r.2)

/-- Send from a home channel. -/
def State.redFrom (s : State) (ch n addr : Nat) (blk : List Byte) : State × Nat :=
  s.redSend (chDie ch) (s.chPart ch) (s.chGen ch) (s.chSpan ch) (.shard ch n) addr blk

/-- Job number of an entry, as its record holds it. -/
def State.entryJob (s : State) (ch n : Nat) : Nat := s.chNum ch (s.recEntry ch n + 4) 4

/-- Offset that a message to a module's Aselo carries: one that is no record-table entry. (Log 86 DEDUCED) -/
def aseloOff : Nat := 0

/-- Where an entry's messages to the norm root go (R366): the root's own entry needs no address. -/
def State.rootAddr (s : State) (ch n : Nat) : Nat :=
  if s.get UPD_JOB_CFG_root ch n = 1 then s.entryAddr ch n else s.get UPD_JOB_ROOT_root_addr ch n

/-- A void condition at a home channel (R369): the entry enters state void at once, and its module's Aselo sends a void report
to the root's. The first reason stays (R509). (Log 84 DEDUCED) -/
def State.updVoid (s : State) (ch n code : Nat) : State :=
  let st := s.get UPD_JOB_STAT_state ch n
  if s.get UPD_JOB_CFG_valid ch n = 0 ∨ st = 6 ∨ st = 7 then s
  else
    let s1 := (s.put UPD_JOB_STAT_state ch 6 n).put UPD_JOB_STAT_reason ch code n
    let root := globalAddr (addrModule (s1.rootAddr ch n)) aseloOff
    (s1.redSend 0 (s1.chPart ch) (s1.chGen ch) (s1.chSpan ch) (.shard ch n) root
      (redMsg (s1.entryJob ch n) (s1.get UPD_JOB_STEP_txn_step ch n) 3 0 code 0 0)).1

/-- A reduction-class stream of a span breaks at this module: every job of the span with a home channel here is void (R369). -/
def State.redBroken (s : State) (span : Nat) : State :=
  ((List.range 128).filter fun ch => s.chSpan ch == span && decide (s.chPart ch < 16)).foldl (fun (s : State) ch =>
    ((List.range 16).filter fun n => s.get UPD_JOB_CFG_valid ch n == 1).foldl (fun (s : State) n => s.updVoid ch n 0x0C63) s) s

/-- Who awaits an Aselo's message of a job: a void report is told apart, as it is not reported again (R368). -/
def aseloWho (number : Nat) (report : Bool) : Who := .aselo (number + b2n report * 2 ^ 32)

/-- A void report of a job by its module's Aselo to the root's (R369); Aselo's messages are looked up on I/O die 0 (R330). -/
def State.jobReport (s : State) (span : Nat) (j : Job) (code : Nat) : State :=
  let number := leAt j.payload 0 4
  (s.redSend 0 j.part (s.get PRT_PART_CTL_gen 0 j.part) span (aseloWho number true) (globalAddr (leAt j.payload 18 2) aseloOff)
    (redMsg number (j.txn % 2 ^ 32) 3 0 code 0 0)).1

/-- A message of a job's Aselo fails (R368): one event, and a void report unless it was one. -/
def State.aseloFailed (s : State) (n code : Nat) : State :=
  match s.sys.jobs.find? fun j => leAt j.payload 0 4 == n % 2 ^ 32 && j.ended == 0 with
  | none => s.event code 0xFFFF 0xFF 0
  | some j =>
    let s1 := s.event code 0xFFFF j.part 0
    let k := ((List.range 16).find? fun k => nbit (s.get PRT_PART_CTL_crofts 0 j.part) k).getD 0
    if n < 2 ^ 32 then s1.jobReport (s.get PRT_CROFT_span 0 k) j code else s1

/-- Fields of an accumulate's op field (Table 13.2). -/
def accTxn (o : Nat) : Nat := nfld o 0 32
def accRank (o : Nat) : Nat := nfld o 32 8
def accJob (o : Nat) : Nat := nfld o 40 4

/-- An accumulate of a cluster's tuning program fails: the replica's Aselo reports it (R369). -/
def State.accFailed (s : State) (c qacc code : Nat) : State :=
  match s.sys.jobs.find? fun j => j.part == s.get CLU_PART_partition c && leAt j.payload 56 1 == accJob qacc && j.ended == 0 with
  | none => s
  | some j => s.jobReport (s.get PRT_CROFT_span 0 (cluCroft c)) j code

/-! ### The adder's intake (R360, R361) -/

/-- Does a message of b blocks at channel address `ca` stay within the high-half plane of one unit of the entry's run. (Log 163 DEDUCED) -/
def State.accFits (s : State) (ch n ca b : Nat) : Bool :=
  let run := s.chNum ch (s.recEntry ch n + 24) 4
  let units := s.chNum ch (s.recEntry ch n + 20) 4
  decide (b ≤ 8) && decide (ca % 64 = 0) && decide (ca % 2048 + 64 * b ≤ 512) && decide (run ≤ ca / 2048) && decide (ca / 2048 < run + units)

/-- The intake of an accumulate of whole blocks at an HBM3 offset (Table 13.3): the code of a refusal, 0 when it is taken or discarded. (Log 52 DEDUCED, 191 DEDUCED) -/
def State.adderIntake (s : State) (a opf : Nat) (blocks : List (List Byte)) (poison : Bool) : State × Nat :=
  let ch := hbmChan a
  let ca := hbmChAddr a
  let n := accJob opf
  let b0 := ca % 2048 / 64
  let st := s.get UPD_JOB_STAT_state ch n
  if s.get UPD_JOB_CFG_valid ch n = 0 then (s, 0x0C22)
  else if !(s.accFits ch n ca blocks.length) then (s, 0x0C21)
  else if accTxn opf ≠ s.get UPD_JOB_STEP_txn_step ch n ∨ st = 6 ∨ st = 7 then (s.bump UPD_JOB_STEP_stale ch n 0 blocks.length, 0)
  else if poison then (s.updVoid ch n 0x0C62, 0)
  else
    let pos := ca / 2048 - s.chNum ch (s.recEntry ch n + 24) 4
    let rank := accRank opf
    let here := s.chHere ch (s.redRec ch n pos) (redSize (s.ranks ch n))
    let again := (List.range blocks.length).any fun i =>
      decide (rank < s.redNext ch n pos (b0 + i)) || s.redStaged ch n pos (b0 + i) rank
    let unread := (List.range blocks.length).find? fun i => s.redBad ch n pos (b0 + i)
    if s.ranks ch n ≤ rank then (s.updVoid ch n 0x0C64, 0)
    else if here = false then (s.bump HBM_FAULT_CNT_presence ch, 0x0227)
    else if unread.isSome then ((s.redNote ch n pos (b0 + unread.getD 0)).updVoid ch n 0x0C65, 0)
    else if again then (s.updVoid ch n 0x0C64, 0)
    else
      let r := blocks.zipIdx.foldl
        (fun (x : State × Bool) p => if x.2 then x else x.1.redBlock ch n pos (b0 + p.2) rank p.1) (s, false)
      if r.2 then (r.1.updVoid ch n 0x0C65, 0) else (r.1, 0)

/-! ### The update engine (R291 to R296, R300, R301) -/

/-- Binary32 operations, each rounded once to nearest-even (R292). -/
def f32Add (a b : XNum) : XNum := rne32 (a.add b)
def f32Sub (a b : XNum) : XNum := rne32 (a.add b.neg)
def f32Mul (a b : XNum) : XNum := rne32 (a.mul b)
def f32Div (a b : XNum) : XNum := rne32 (a.div b)
def f32Sqrt (a : XNum) : XNum := rne32 a.sqrt

/-- sr16 (R293): stochastic rounding to BF16 under the record's seed and dither step. -/
def sr16 (r : List Byte) (tensor elem : Nat) (x : XNum) : XNum :=
  bf16.dec (bf16.enc (some (dither (rSeed r) (rDither r) tensor (elem % 2 ^ 32) % 65536)) x)

/-- Dither tensors of the update engine (Table 11.6). -/
def tenM : Nat := 0xFFFFFFF1
def tenV : Nat := 0xFFFFFFF2
def tenRow : Nat := 0xFFFFFFF3
def tenCol : Nat := 0xFFFFFFF4

/-- A home unit as the engine reads it: masters as binary32 bit patterns, and the two moment planes as BF16 bit patterns. -/
structure HomeUnit where
  w : List Nat
  m : List Nat
  v : List Nat
  deriving DecidableEq, Repr

/-- The 16-bit values of a plane. -/
def plane (l : List Byte) (off : Nat) : List Nat := (List.range 256).map fun e => leAt l (off + 2 * e) 2

/-- A unit's planes. -/
def HomeUnit.of (l : List Byte) : HomeUnit :=
  { w := (List.range 256).map fun e => leAt l (2 * e) 2 * 65536 + leAt l (512 + 2 * e) 2, m := plane l 1024, v := plane l 1536 }

/-- g of every element (R292): the sum scaled, `none` where the guard skips it (R295). -/
def gradsOf (r : List Byte) (sums : List XNum) : List (Option XNum) :=
  sums.map fun x => let g := f32Mul x (rF r 60); if rGuard r && g.nonfinite then none else some g

/-- The update of one element for kinds 1 to 3: the new master and the new moments. -/
def updElem (r : List Byte) (unit e : Nat) (w g : XNum) (m v : Nat) : XNum × Nat × Nat :=
  let wd := rF r 52
  let lr := rF r 140
  let i := 256 * unit + e
  if rKind r = 1 then (f32Sub w (f32Mul lr (f32Add g (f32Mul wd w))), m, v)
  else if rKind r = 2 then
    let m1 := sr16 r tenM i (f32Add (f32Mul (rF r 56) (bf16.dec m)) (f32Add g (f32Mul wd w)))
    (f32Sub w (f32Mul lr m1), bf16.enc none m1, v)
  else
    let m1 := sr16 r tenM i (f32Add (f32Mul (rF r 32) (bf16.dec m)) (f32Mul (rF r 36) g))
    let v1 := sr16 r tenV i (f32Add (f32Mul (rF r 40) (bf16.dec v)) (f32Mul (rF r 44) (f32Mul g g)))
    let u := f32Add (f32Div (f32Mul m1 (rF r 144)) (f32Add (f32Sqrt (f32Mul v1 (rF r 148))) (rF r 48))) (f32Mul wd w)
    (f32Sub w (f32Mul lr u), bf16.enc none m1, bf16.enc none v1)

/-- Sum of 16 values from +0, in order. -/
def sum16 (l : List XNum) : XNum := l.foldl f32Add XNum.zero

/-- Sixteen. -/
def num16 : XNum := .fin false 1 4 false

/-- Mean squares of 16 values (R294). -/
def meanSq (l : List XNum) : XNum := f32Div (sum16 (l.map fun g => f32Mul g g)) num16

/-- Row and column statistics of kind 4 after the update (R294): row[i] and col[j] as BF16 bit patterns. -/
def blockStats (r : List Byte) (unit : Nat) (g : List XNum) (v : List Nat) : List Nat × List Nat :=
  let gi := fun i j => lget XNum.zero g (16 * i + j)
  let nrow := (List.range 16).map fun i =>
    bf16.enc none (sr16 r tenRow (16 * unit + i)
      (f32Add (f32Mul (rF r 40) (bf16.dec (lget 0 v i))) (f32Mul (rF r 44) (meanSq ((List.range 16).map fun j => gi i j)))))
  let ncol := (List.range 16).map fun j =>
    bf16.enc none (sr16 r tenCol (16 * unit + j)
      (f32Add (f32Mul (rF r 40) (bf16.dec (lget 0 v (16 + j)))) (f32Mul (rF r 44) (meanSq ((List.range 16).map fun i => gi i j)))))
  (nrow, ncol)

/-- The update of one element of kind 4 from the statistics. -/
def blockElem (r : List Byte) (unit e : Nat) (row col : List Nat) (w g : XNum) (m : Nat) : XNum × Nat :=
  let mr := f32Div (sum16 (row.map bf16.dec)) num16
  let vh := if mr.isZero && !mr.sgn then XNum.zero
    else f32Div (f32Mul (bf16.dec (lget 0 row (e / 16))) (bf16.dec (lget 0 col (e % 16)))) mr
  let m1 := sr16 r tenM (256 * unit + e) (f32Add (f32Mul (rF r 32) (bf16.dec m)) (f32Mul (rF r 36) g))
  let mh := if rFirst r then f32Mul m1 (rF r 144) else g
  let u := f32Add (f32Div mh (f32Add (f32Sqrt (f32Mul vh (rF r 148))) (rF r 48))) (f32Mul (rF r 52) w)
  (f32Sub w (f32Mul (rF r 140) u), if rFirst r then bf16.enc none m1 else m)

/-- Bit pattern of a new master (R128: a NaN is canonical). -/
def masterBits (w : XNum) : Nat := bin32.enc none w

/-- A unit after its update under clip factor c; a skipped element keeps its bits (R295). -/
def HomeUnit.update (x : HomeUnit) (r : List Byte) (unit : Nat) (c : XNum) (gs : List (Option XNum)) : HomeUnit :=
  let g := fun e => match lget none gs e with | some a => f32Mul a c | none => XNum.zero
  let live := fun e => match lget none gs e with | some _ => true | none => false
  let old := fun e => lget 0 x.w e
  let w := fun e => bin32.dec (old e)
  let m := fun e => lget 0 x.m e
  let v := fun e => lget 0 x.v e
  if rKind r = 4 then
    let st := blockStats r unit ((List.range 256).map g) x.v
    let out := (List.range 256).map fun e =>
      if live e then let q := blockElem r unit e st.1 st.2 (w e) (g e) (m e); (masterBits q.1, q.2) else (old e, m e)
    { w := out.map (·.1), m := out.map (·.2), v := st.1 ++ st.2 ++ x.v.drop 32 }
  else
    let out := (List.range 256).map fun e =>
      if live e then let q := updElem r unit e (w e) (g e) (m e) (v e); (masterBits q.1, q.2) else (old e, m e, v e)
    { w := out.map (·.1), m := out.map (·.2.1), v := out.map (·.2.2) }

/-- Bytes of a unit's high and tail planes (R128). -/
def HomeUnit.masters (x : HomeUnit) : List Byte :=
  (x.w.flatMap fun w => leBytes 2 (w / 65536)) ++ (x.w.flatMap fun w => leBytes 2 (w % 65536))

/-- Planes that a kind uses beyond the masters: first moment, second moment bytes (Table 11.1). -/
def usesM (r : List Byte) : Bool := rKind r == 2 || rKind r == 3 || (rKind r == 4 && rFirst r)
def secondBytes (r : List Byte) : Nat := if rKind r = 3 then 512 else if rKind r = 4 then 64 else 0

/-- Do the planes that the job uses read poisoned. -/
def State.unitBad (s : State) (ch ca : Nat) (r : List Byte) : Bool :=
  s.chBad ch ca 1024 || (usesM r && s.chBad ch (ca + 1024) 512) ||
  (secondBytes r != 0 && s.chBad ch (ca + 1536) (secondBytes r))

/-- The counts of the engine's reads of the planes that the job uses. -/
def State.unitNote (s : State) (ch ca : Nat) (r : List Byte) : State :=
  let s1 := s.chNote ch ca 1024
  let s2 := if usesM r then s1.chNote ch (ca + 1024) 512 else s1
  if secondBytes r = 0 then s2 else s2.chNote ch (ca + 1536) (secondBytes r)

/-- Write a unit's used planes. -/
def State.unitWrite (s : State) (ch ca : Nat) (r : List Byte) (x : HomeUnit) : State :=
  let s1 := s.chWr ch ca x.masters
  let s2 := if usesM r then s1.chWr ch (ca + 1024) (x.m.flatMap fun v => leBytes 2 v) else s1
  if secondBytes r = 0 then s2 else s2.chWr ch (ca + 1536) ((x.v.flatMap fun v => leBytes 2 v).take (secondBytes r))

/-- The completed sums of a unit. -/
def State.unitSums (s : State) (ch n pos : Nat) : List XNum :=
  (List.range 256).map fun e => bin32.dec (s.chNum ch (s.redRec ch n pos + 320 + 4 * e) 4)

/-- A shard sum with a unit's terms added (R298): the squares of the elements that are not skipped, in ascending e, each product and
each sum rounded once. -/
def normTerms (r : List Byte) (acc : XNum) (sums : List XNum) : XNum :=
  (gradsOf r sums).foldl (fun acc g => match g with | some g => f32Add acc (f32Mul g g) | none => acc) acc

/-- The terms of every unit that is complete, as is every unit before it in the run, enter the shard sum (R366); sums that read
poisoned void the step. (Log 163 DEDUCED) -/
def State.normAdd (ch n : Nat) (r : List Byte) : Nat → State → State
  | 0, s => s
  | fuel + 1, s =>
    let p := (s.updE ch n).normed
    if rUnits r ≤ p ∨ s.unitComplete ch n p = false then s
    else if s.chBad ch (s.redRec ch n p + 320) 1024 then (s.chNote ch (s.redRec ch n p + 320) 1024).updVoid ch n 0x0C65
    else State.normAdd ch n r fuel (s.modUpd ch n fun e =>
      { e with normed := p + 1, norm := bin32.enc none (normTerms r (bin32.dec e.norm) (s.unitSums ch n p)) })

/-- Take an accumulate (R361, R366): the code of a refusal, 0 when it is taken or discarded. (Log 52 DEDUCED) -/
def State.adderTake (s : State) (a opf : Nat) (blocks : List (List Byte)) (poison : Bool) : State × Nat :=
  let q := s.adderIntake a opf blocks poison
  let ch := hbmChan a
  let n := accJob opf
  let r := q.1.recBytes ch n (q.1.get UPD_JOB_STEP_txn_step ch n)
  if q.2 ≠ 0 ∨ q.1.get UPD_JOB_CFG_valid ch n = 0 ∨ q.1.get UPD_JOB_STAT_state ch n ≠ 1 ∨ rFused r = false then q
  else (State.normAdd ch n r (rUnits r) q.1, 0)

/-- Units of the run. -/
def State.runUnits (s : State) (ch n : Nat) : Nat := s.chNum ch (s.recEntry ch n + 20) 4

/-- Is every unit of the run complete. -/
def State.runComplete (s : State) (ch n : Nat) : Bool := (List.range (s.runUnits ch n)).all fun p => s.unitComplete ch n p

/-- State of an entry once nothing of its run is outstanding: awaiting c, updating, returning. (Log 78 DEDUCED) -/
def State.updPhase (s : State) (ch n : Nat) : State :=
  let e := s.updE ch n
  let st := s.get UPD_JOB_STAT_state ch n
  let kind := s.chNum ch (s.recEntry ch n + 2) 1
  let fused := nbit (s.chNum ch (s.recEntry ch n + 3) 1) 1
  if st = 1 ∨ st = 2 ∨ st = 3 then
    if !(s.runComplete ch n) || (kind != 5 && !e.sent) then s
    else if fused && e.c.isNone then s.put UPD_JOB_STAT_state ch 2 n
    else if s.runUnits ch n ≤ e.next then s.put UPD_JOB_STAT_state ch 4 n
    else s.put UPD_JOB_STAT_state ch 3 n
  else s

/-- The engine ends a step's update with a record check's code (R290). (Log 80 DEDUCED) -/
def State.updEnd (s : State) (ch n code : Nat) : State := (s.put UPD_JOB_STAT_state ch 7 n).put UPD_JOB_STAT_reason ch code n

/-- Export of one unit (R300): g of each element as ACC40. -/
def State.unitExport (s : State) (ch n : Nat) (r : List Byte) (pos : Nat) : State :=
  let g := (s.unitSums ch n pos).map fun x => f32Mul x (rF r 60)
  (s.chWr ch ((rExport r + pos) * 2048) (g.flatMap fun x => leBytes 8 (acc40.enc none x))).modUpd ch n
    fun e => { e with exported := pos + 1 }

/-- Apply of one unit (R301): the new master is w − δ, rounded once; poison leaves the unit untouched (R296). -/
def State.unitApply (s : State) (ch n : Nat) (r : List Byte) (pos : Nat) : State :=
  let ca := (rRun r + pos) * 2048
  let xa := (rExport r + pos) * 2048
  let s0 := ((s.chNote ch ca 1024).chNote ch xa 2048).modUpd ch n fun e => { e with next := pos + 1 }
  if s.chBad ch ca 1024 || s.chBad ch xa 2048 then s0.put UPD_JOB_STAT_reason ch 0x0C41 n
  else
    let x := HomeUnit.of (s.chRd ch ca 2048)
    let w := x.w.zipIdx.map fun p => masterBits (rne32 ((bin32.dec p.1).add (acc40.dec (s.chNum ch (xa + 8 * p.2) 8)).neg))
    let s1 := s0.chWr ch ca (HomeUnit.masters { x with w := w })
    ((s1.put UPD_JOB_STAT_committed ch 1 n).put UPD_JOB_STAT_units_done ch (s1.get UPD_JOB_STAT_units_done ch n + 1) n).modUpd ch n
      fun e => { e with handed := e.handed ++ [pos] }

/-- The optimizer's update of one unit (R291 to R296). (Log 79 DEDUCED) -/
def State.unitOpt (s : State) (ch n : Nat) (r : List Byte) (pos : Nat) : State :=
  let ca := (rRun r + pos) * 2048
  let s0 := (s.unitNote ch ca r).modUpd ch n fun e => { e with next := pos + 1 }
  if s.unitBad ch ca r then s0.put UPD_JOB_STAT_reason ch 0x0C41 n
  else
    let gs := gradsOf r (s.unitSums ch n pos)
    let c := match (s.updE ch n).c with | some b => if rFused r then bin32.dec b else .fin false 1 0 false | none => .fin false 1 0 false
    let x := (HomeUnit.of (s.chRd ch ca 2048)).update r (rFirstUnit r + pos) c gs
    let s1 := s0.unitWrite ch ca r x
    ((s1.put UPD_JOB_STAT_committed ch 1 n).put UPD_JOB_STAT_units_done ch (s1.get UPD_JOB_STAT_units_done ch n + 1) n).modUpd ch n
      fun e => { e with handed := e.handed ++ [pos], skipped := e.skipped + (gs.filter Option.isNone).length }

/-- Are the pages present that the engine accesses for a unit (R37): those of its sums, and of its planes or its export unit. (Log 191 DEDUCED) -/
def State.unitHere (s : State) (ch n : Nat) (r : List Byte) (pos : Nat) (exporting : Bool) : Bool :=
  s.chHere ch (s.redRec ch n pos + 320) 1024 && (exporting || s.chHere ch ((rRun r + pos) * 2048) 2048) &&
  (rKind r != 5 || s.chHere ch ((rExport r + pos) * 2048) 2048)

/-- The counts of the reads of a record and of a step block. -/
def State.recNote (s : State) (ch n txn : Nat) : State :=
  (s.chNote ch (s.recEntry ch n) 128).chNote ch (s.recEntry ch n + 128 + 64 * (txn % 2)) 64

/-- A unit begins: its sums are read, and it is exported, applied or updated. -/
def State.unitBegin (s : State) (ch n : Nat) (r : List Byte) (pos : Nat) (exporting : Bool) : State :=
  let t := s.chNote ch (s.redRec ch n pos + 320) 1024
  if s.chBad ch (s.redRec ch n pos + 320) 1024 then t.updVoid ch n 0x0C65
  else (if exporting then t.unitExport ch n r pos else if rKind r = 5 then t.unitApply ch n r pos else t.unitOpt ch n r pos).updPhase ch n

/-- UNIT_UPDATE: the next unit of the run, once its sums are complete and, with fused clipping, c has arrived (R291). The record is
checked before the step's first unit (R290). A unit does not begin while one of its pages is absent or moving: the presence fault is
resumable (R37). -/
def State.unitUpdate (s : State) (ch n : Nat) : State :=
  let st := s.get UPD_JOB_STAT_state ch n
  let txn := s.get UPD_JOB_STEP_txn_step ch n
  let e := s.updE ch n
  let fresh := e.recd.isEmpty
  let r := if fresh then s.recBytes ch n txn else e.recd
  let exporting := rKind r == 5 && !e.apply
  let pos := if exporting then e.exported else e.next
  if s.get UPD_CTL_en ch = 0 ∨ s.get UPD_JOB_CFG_valid ch n = 0 ∨ !(st == 1 || st == 2 || st == 3) then s
  else if (fresh = false ∧ rUnits r ≤ pos) ∨ s.unitComplete ch n pos = false then s
  else if rFused r && e.c.isNone then s
  else if fresh && !(s.chHere ch (s.recEntry ch n) 256) then s.bump HBM_FAULT_CNT_presence ch
  else
    let bad := fresh && (s.chBad ch (s.recEntry ch n) 128 || s.chBad ch (s.recEntry ch n + 128 + 64 * (txn % 2)) 64)
    let code := if bad then 0x0C42 else if fresh then firstFail (recChecks r txn) else 0
    let s0 := if fresh then s.recNote ch n txn else s
    if code ≠ 0 then s0.updEnd ch n code
    else
      let s1 := s0.modUpd ch n fun e => { e with recd := r }
      if s.unitHere ch n r pos exporting = false then s1.bump HBM_FAULT_CNT_presence ch
      else s1.unitBegin ch n r pos exporting

/-- UPD_CMD apply (R301): the apply phase begins; an entry of another kind refuses it. (Log 85 DEDUCED) -/
def State.updApply (s : State) (ch n : Nat) : State :=
  if s.get UPD_JOB_CFG_valid ch n = 0 then s
  else if s.chNum ch (s.recEntry ch n + 2) 1 ≠ 5 then s.put UPD_JOB_STAT_reason ch 0x0C47 n
  else (s.modUpd ch n fun e => { e with apply := true }).updPhase ch n

/-- UPD_CMD void (R371): no unit begins after it. The reason stays that of the first void. (Log 84 DEDUCED, 85 DEDUCED) -/
def State.updCmdVoid (s : State) (ch n : Nat) : State :=
  let st := s.get UPD_JOB_STAT_state ch n
  if s.get UPD_JOB_CFG_valid ch n = 0 ∨ st = 0 ∨ st = 7 then s else s.put UPD_JOB_STAT_state ch 6 n

/-- A write of txn_step (R371): a valid entry that has not ended returns to reducing for the new attempt. -/
def State.updStep (s : State) (ch n txn : Nat) : State :=
  let s1 := s.put UPD_JOB_STEP_txn_step ch txn n
  if s.get UPD_JOB_CFG_valid ch n = 0 ∨ s.get UPD_JOB_STAT_state ch n = 7 then s1
  else
    (((s1.put UPD_JOB_STAT_state ch 1 n).put UPD_JOB_STAT_committed ch 0 n).put UPD_JOB_STAT_units_done ch 0 n).modUpd ch n
      fun _ => UpdEnt.init

/-! ### Enables (R384) -/

/-- Checks of UPD_CTL. -/
def updCtlChecks (ch : Nat) (s : State) : List (Bool × Nat) :=
  [(s.get HBM_CTL_en ch == 1, 0x0C16), (decide (s.get UPD_TABLE_base ch + 2 ≤ chUnits), 0x0C17)]

/-- Checks of a job entry. (Log 80 DEDUCED) -/
def updJobChecks (ch n : Nat) (s : State) : List (Bool × Nat) :=
  let txn := s.get UPD_JOB_STEP_txn_step ch n
  let r := s.recBytes ch n txn
  let bad := s.chBad ch (s.recEntry ch n) 128 || s.chBad ch (s.recEntry ch n + 128 + 64 * (txn % 2)) 64
  let red := s.get UPD_JOB_CFG_red_base ch n
  let len := rUnits r * (redSize (s.ranks ch n) / 2048)
  let w := s.get UPD_JOB_CFG_wait_ms ch n
  let otherRoot := (List.range 16).any fun i => i != n && s.get UPD_JOB_CFG_valid ch i == 1 && s.get UPD_JOB_CFG_root ch i == 1
  [ (s.get UPD_CTL_en ch == 1, 0x0C11),
    (decide (1 ≤ w) && decide (w ≤ 1000), 0x0C12),
    (!bad && firstFail (recStatic r) == 0 && recFloats r, 0x0C13),
    (decide (red + len ≤ chUnits) && disjointRuns red len (rRun r) (rUnits r) &&
      (rKind r != 5 || disjointRuns red len (rExport r) (rUnits r)) && disjointRuns red len (s.get UPD_TABLE_base ch) 2, 0x0C14),
    (if s.get UPD_JOB_CFG_root ch n = 1 then
       decide (s.get UPD_JOB_CFG_shard ch n ≤ s.get UPD_JOB_CFG_shards_m1 ch n) && !otherRoot
     else s.get UPD_JOB_CFG_shards_m1 ch n == 0, 0x0C15) ]

/-- UPD_JOBn_CFG with valid = 1: an accepted entry is reducing. -/
def State.updJobEnable (s : State) (ch n : Nat) (v : Word) : State :=
  let s1 := s.enable UPD_JOB_CFG_valid UPD_JOB_STAT_reason ch n 0 v (updJobChecks ch n)
  if s.enables UPD_JOB_CFG_valid ch n 0 v (updJobChecks ch n) then
    (((s1.put UPD_JOB_STAT_state ch 1 n).put UPD_JOB_STAT_committed ch 0 n).put UPD_JOB_STAT_units_done ch 0 n).modUpd ch n fun _ => UpdEnt.init
  else s1

/-- UPD_JOBn_CFG with valid = 0: the entry is idle, and its return stream is over. -/
def State.updJobDisable (s : State) (ch n : Nat) (v : Word) : State :=
  let s1 := s.modLok (chDie ch) fun x => { x with roots := x.roots.filter fun r => !(r.origin.isNone && r.chan == ch && r.job == n) }
  (((s1.plainBut UPD_JOB_CFG_valid ch n 0 v).put UPD_JOB_CFG_valid ch 0 n).put UPD_JOB_STAT_state ch 0 n).modUpd ch n fun _ => UpdEnt.init

/-! ### Timers, shards and the clip factor (R365 to R367, R298, R299) -/

/-- The rank-wait timer expires while it runs (R365). -/
def State.rankWait (s : State) (ch n : Nat) : State :=
  if s.get UPD_JOB_CFG_valid ch n = 1 ∧ s.get UPD_JOB_STAT_state ch n = 1 ∧
      ((List.range (s.runUnits ch n)).any fun p => s.unitPartial ch n p) = true then
    (s.event 0x0C61 ch (s.chPart ch) 0).updVoid ch n 0x0C61
  else s

/-- SHARD_SEND (R366): every unit of a built-in job's run is complete; the norm root takes its own shard locally. A message that cannot
be issued voids the step (R368). -/
def State.shardSend (s : State) (ch n : Nat) : State :=
  let txn := s.get UPD_JOB_STEP_txn_step ch n
  let r := s.recBytes ch n txn
  let st := s.get UPD_JOB_STAT_state ch n
  if s.get UPD_JOB_CFG_valid ch n = 0 ∨ !(st == 1 || st == 3) || (s.updE ch n).sent || rKind r == 5 || !(s.runComplete ch n) then s
  else
    let v := if rFused r then (s.updE ch n).norm else 0
    let m := redMsg (rJob r) txn 1 (s.get UPD_JOB_CFG_shard ch n) 0 v (s.entryAddr ch n)
    let q := (s.modUpd ch n fun e => { e with sent := true }).redFrom ch n (s.rootAddr ch n) m
    if q.2 = 0 then q.1.updPhase ch n else q.1.updVoid ch n q.2

/-- Job entry of a channel that an offset names: it is a record-table entry of a channel. -/
def State.entryAt (s : State) (off : Nat) : Option (Nat × Nat) :=
  if isHbm off then
    let ch := hbmChan off
    let ca := hbmChAddr off
    let b := s.get UPD_TABLE_base ch * 2048
    if b ≤ ca ∧ ca < b + 4096 ∧ ca % 256 = 0 then some (ch, (ca - b) / 256) else none
  else none

/-- The shards in index order, summed from +0 (R367). -/
def shardTotal (l : List Shard) (k : Nat) : XNum :=
  (List.range k).foldl (fun acc h => match l.find? fun x => x.index == h with
    | some x => f32Add acc (bin32.dec x.value) | none => acc) XNum.zero

/-- The clip message's reason and factor for a total (R299). -/
def clipOf (maxNorm total : XNum) : Nat × Nat :=
  if total.nonfinite then (0x0C48, 0)
  else
    let n := f32Sqrt total
    if maxNorm.lt n then (0, bin32.enc none (f32Div maxNorm n)) else (0, bin32.enc none (.fin false 1 0 false))

/-- A shard message reaches the norm root's channel (R367). (Log 81 DEDUCED) -/
def State.shardTake (s : State) (ch n : Nat) (blk : List Byte) : State :=
  let e := s.updE ch n
  let idx := leAt blk 10 2
  let m1 := s.get UPD_JOB_CFG_shards_m1 ch n
  let st := s.get UPD_JOB_STAT_state ch n
  if s.get UPD_JOB_CFG_valid ch n = 0 ∨ s.get UPD_JOB_CFG_root ch n = 0 ∨ leAt blk 0 4 ≠ s.entryJob ch n ∨
      leAt blk 4 4 ≠ s.get UPD_JOB_STEP_txn_step ch n ∨ st = 6 ∨ st = 7 then s
  else if m1 < idx ∨ (e.shards.any fun x => x.index == idx) = true then s.updVoid ch n 0x0C64
  else
    let all := e.shards ++ [⟨idx, leAt blk 16 4, leAt blk 20 8⟩]
    let s1 := s.modUpd ch n fun e => { e with shards := all }
    let r := s1.recBytes ch n (s.get UPD_JOB_STEP_txn_step ch n)
    if all.length ≤ m1 ∨ rFused r = false then s1
    else
      let c := clipOf (rF r 64) (shardTotal all (m1 + 1))
      let msg := redMsg (rJob r) (s.get UPD_JOB_STEP_txn_step ch n) 2 0 c.1 c.2 0
      all.foldl (fun (s : State) x =>
        let q := s.redFrom ch n x.reply msg
        if q.2 = 0 then q.1 else q.1.updVoid ch n q.2) s1

/-- The root's shard-wait timer expires while some but not all shards have arrived (R367). -/
def State.shardWait (s : State) (ch n : Nat) : State :=
  let k := (s.updE ch n).shards.length
  let st := s.get UPD_JOB_STAT_state ch n
  if s.get UPD_JOB_CFG_valid ch n = 1 ∧ s.get UPD_JOB_CFG_root ch n = 1 ∧ 0 < k ∧ k ≤ s.get UPD_JOB_CFG_shards_m1 ch n ∧ st ≠ 6 ∧ st ≠ 7 then
    (s.event 0x0C61 ch (s.chPart ch) 0).updVoid ch n 0x0C61
  else s

/-- A clip message reaches a home channel (R299): c, or the step is skipped. (Log 82 DEDUCED) -/
def State.clipTake (s : State) (ch n : Nat) (blk : List Byte) : State :=
  let st := s.get UPD_JOB_STAT_state ch n
  if s.get UPD_JOB_CFG_valid ch n = 0 ∨ leAt blk 0 4 ≠ s.entryJob ch n ∨ leAt blk 4 4 ≠ s.get UPD_JOB_STEP_txn_step ch n ∨
      !(st == 1 || st == 2) then s
  else if leAt blk 12 2 ≠ 0 then (s.put UPD_JOB_STAT_state ch 5 n).put UPD_JOB_STAT_reason ch (leAt blk 12 2) n
  else (s.modUpd ch n fun e => { e with c := some (leAt blk 16 4) }).updPhase ch n

end Sys2Proof.Machine
end

