-- ==== Sys2Proof/Machine/Str.lean ====
section
/-!
DEFINITION. The stream stations (chapter "Stacked memory, host offload and resumable streams"): transfers of the queues, token
buckets, halts and resumes, failures, and the answers that reach them.
-/
namespace Sys2Proof.Machine

open Sys2Proof

/-! ### Tokens (R213) -/

/-- The memory cycle of a local tick: 1.8 GHz beside 1 GHz (R26). (Log 7 DESIGN CHOICE) -/
def memCycle (tick : Nat) : Nat := tick * 9 / 5

/-- Tokens of a queue's bucket now, in 1/65,536 of a block. -/
def State.tokens (s : State) (c f : Nat) : Nat :=
  let q := s.q c f
  Nat.min (q.tokens + s.get STR_QRATE_rate c (f / 32) (f % 32) * (memCycle s.tick - q.stamp)) (s.get STR_QCFG_depth c (f / 32) (f % 32) * 65536)

/-- Spend the tokens of n blocks. -/
def State.spend (s : State) (c f n : Nat) : State :=
  let t := s.tokens c f
  s.modQ c f fun q => { q with tokens := t - n * 65536, stamp := memCycle s.tick }

/-! ### The parts of a transfer -/

/-- Contiguous blocks of a transfer that travel together: first block number (16 is the companion), address, block count, data,
and byte enables of a one-block write. -/
structure Piece where
  blk : Nat
  addr : Nat
  n : Nat
  data : List Byte
  be : Nat
  deriving DecidableEq, Repr

/-- All bytes of a block enabled. -/
def beAll : Nat := 2 ^ 64 - 1

/-- Pieces of a read of a tile. -/
def readPieces (f addr ca : Nat) : List Piece :=
  ⟨0, addr, 16, [], beAll⟩ :: (if f = 4 then [⟨16, ca, 1, [], beAll⟩] else [])

/-- Is block i of a tile in a live row. -/
def blockLive (t : Tile) (i : Nat) : Bool := nbit t.mask (i * 64 / fmtRowBytes t.fmt)

/-- Runs of consecutive numbers of an ascending list: first and length. -/
def runsOf : List Nat → List (Nat × Nat)
  | [] => []
  | a :: t => match runsOf t with
    | (b, n) :: r => if b = a + 1 then (a, n + 1) :: r else (a, 1) :: (b, n) :: r
    | [] => [(a, 1)]

/-- Byte enables of a companion: 8 B of each live row (R58). -/
def compBe (t : Tile) : Nat := (List.range 8).foldl (fun a r => if nbit t.mask r then a + 255 * 2 ^ (8 * r) else a) 0

/-- The companion with the bytes of dead rows zero (R58, multicast). -/
def compZeroed (t : Tile) : List Byte := (List.range 64).map fun i => if nbit t.mask (i / 8) then lget 0 t.comp i else 0

/-- Pieces of a write of a tile, from block `from_` on: runs of live blocks, and the companion of a ply-4 tile (R58). (Log 49 DEDUCED) -/
def writePieces (t : Tile) (mode addr ca from_ : Nat) : List Piece :=
  let live := (List.range 16).filter fun i => blockLive t i && decide (from_ ≤ i)
  let body := (runsOf live).map fun r => (⟨r.1, addrMove addr ((64 * r.1 : Nat) : Int), r.2, slice t.data (64 * r.1) (64 * r.2), beAll⟩ : Piece)
  body ++ (if t.fmt = 4 ∧ t.mask ≠ 0 then
      [if mode = 2 then ⟨16, ca, 1, compZeroed t, beAll⟩ else ⟨16, ca, 1, slice t.comp 0 64, compBe t⟩] else [])

/-- Blocks of pieces. -/
def piecesBlocks (ps : List Piece) : Nat := (ps.map Piece.n).sum

/-! ### Failures (R222, R228; Tables 2.11, 8.11 and 12.25) -/

/-- Is a code a fatal addressing fault of Table 2.11, which records an event with the address (R55). -/
def isAddrCode (code : Nat) : Bool := (decide (0x0211 ≤ code) && decide (code ≤ 0x021C)) || (decide (0x0721 ≤ code) && decide (code ≤ 0x0724))

/-- Does a code end a skein without faulting its context. -/
def keepsContext (mcast : Bool) (code : Nat) : Bool := code == 0x0227 || code == 0x0241 || code == 0x0742 || (mcast && code == 0x0725)

/-- The outstanding count of a skein's sink follows its queue. -/
def State.syncSink (s : State) (c no : Nat) : State :=
  match s.sk c no with
  | none => s
  | some k => if k.dstLocal then s else s.modSk c no fun x => { x with sinkOut := (s.q c (dDstQ k.w)).writes }

/-- A queue's stream fails: its skein ends with the reason, and its context faults where the code's effect says so. -/
def State.strFail (s : State) (c f code addr : Nat) : State :=
  match (s.q c f).bound with
  | none => s
  | some no =>
    match s.sk c no with
    | none => s
    | some k =>
      if k.ended then s
      else
        let mcast := dMode k.w == 2 && (s.q c f).role == 2
        let s0 := if dMode k.w = 1 ∧ (s.q c f).role = 2 then s.accFailed c k.qacc code else s
        let s1 := (s0.endSk c no code).put STR_QCFG_reason c code (f / 32) (f % 32)
        if isAddrCode code then s1.addrFault c code addr
        else if keepsContext mcast code then s1 else s1.ctxFault c code

/-! ### Addresses of a queue's tiles -/

/-- Tiles of the adapter station that wait for or travel on a queue. -/
def State.adpItems (s : State) (c f : Nat) : List (Nat × Nat × Nat) := (s.cl c).adpPend.filter fun p => p.1 == f

/-- Format, address and companion address of tile i of a queue's stream: 0 source, 1 side operand, 2 sink, 3 adapter fetch. -/
def State.strTile (s : State) (c f : Nat) (k : Skein) (i : Nat) : Nat × Nat × Nat :=
  let role := (s.q c f).role
  if role = 0 then (dSrcFmt k.w, srcAddr k.w i, compAddr k.w (srcAddr k.w 0) i)
  else if role = 1 then (dSideFmt k.w, sideAddr k.w i, compAddr k.w (sideAddr k.w 0) i)
  else if role = 2 then (dDstFmt k.w, sinkAddr k.w i, compAddr k.w (sinkAddr k.w 0) i)
  else (7, (lget (0, 0, 0) (s.adpItems c f) i).2.2, 0)

/-- Address of a block of a tile. -/
def blockAddr (addr ca blk : Nat) : Nat := if blk = 16 then ca else addrMove addr ((64 * blk : Nat) : Int)

/-- Kind of access of a queue's stream (Table 2.10). -/
def strAcc (role mode : Nat) : Acc :=
  if role = 2 then (if mode = 1 then .accum else if mode = 2 then .mcast else .stream true) else .stream false

/-! ### Halts (R218, R219) -/

/-- Is a halt's block earlier than the position already saved. -/
def State.earlier (s : State) (c f tile blk : Nat) : Bool :=
  let a := s.get STR_QPOS_tile c (f / 32) (f % 32)
  let b := s.get STR_QPOS_block c (f / 32) (f % 32)
  decide (tile < a) || (tile == a && decide (blk < b))

/-- Save a position. (Log 50 DEDUCED) -/
def State.savePos (s : State) (c f tile blk role addr reason : Nat) : State :=
  let u := f / 32
  let q := f % 32
  (((((s.put STR_QPOS_tile c tile u q).put STR_QPOS_block c blk u q).put STR_QPOS_stream c role u q).put STR_QPOS_valid c 1 u q).wreg
    STR_QADDR c u q addr).put STR_QSTAT_halt_reason c reason u q

/-- Reads at and after the saved tile are dropped; sink tiles at and after it are to be written again, and stay outstanding until then
(R211, R219). (Log 50 DEDUCED) -/
def StrQ.cut (q : StrQ) (tile blk : Nat) : StrQ :=
  { q with next := if q.role = 2 then q.next else Nat.min q.next tile,
           xfers := q.xfers.map fun t =>
             if t.dropped || decide (t.tile < tile) then t
             else if t.write.isNone then { t with dropped := true }
             else { t with redo := some (if t.tile = tile then blk else 0) } }

/-- The first tile that a queue is to write again after a halt, with its first block. -/
def StrQ.again (q : StrQ) : Option (Xfer × Tile × Nat) :=
  q.xfers.foldl (fun (a : Option (Xfer × Tile × Nat)) t =>
    match t.write, t.redo with
    | some w, some b => (match a with
      | some x => if t.tile < x.1.tile then some (t, w, b) else a
      | none => some (t, w, b))
    | _, _ => a) none

/-- A queue halts on a resumable fault: the position is saved, halts counts, and one event is recorded. A fault of an earlier
block while halted moves the position. (Log 50 DEDUCED) -/
def State.strHalt (s : State) (c f tile blk reason addr : Nat) : State :=
  let q := s.q c f
  if q.halted && !(s.earlier c f tile blk) then s
  else
    let s1 := (s.savePos c f tile blk q.role addr reason).modQ c f fun q => { q.cut tile blk with halted := true, haltAt := if q.halted then q.haltAt else s.tick }
    if q.halted then s1
    else (s1.bump STR_QCNT_halts c (f / 32) (f % 32)).cluEvent c 0x02F1 f (packDetail [(addr, 8), (reason, 2)])

/-- A halted queue resumes (R219, R220). -/
def State.strResume (s : State) (c f : Nat) : State := s.modQ c f fun q => { q with halted := false, retrying := false, prs := false }

/-! ### Requests -/

/-- Part and generation that a cluster's requests carry (R459). -/
def State.cluPG (s : State) (c : Nat) : Nat × Nat := (s.get CLU_PART_partition c, s.get CLU_PART_gen c)

/-- Put a request into its channel's queue. -/
def State.hbmPut (s : State) (who : Who) (cls addr : Nat) (op : MOp) (part gen : Nat) : State :=
  { s with hbmq := s.hbmq ++ [⟨who, cls, addr, op, part, gen, s.tick⟩] }

/-- A request at a cluster's memory port (Table 16.6): true when its generation is current; stale traffic is counted. -/
def State.portOk (s : State) (tc part gen : Nat) : Bool := s.get CLU_PART_partition tc == part && s.get CLU_PART_gen tc == gen

/-- Count stale traffic at a croft. -/
def State.stale (s : State) (croft : Nat) : State := s.bump PRT_STALE_discarded 0 croft

/-- Blocks of a piece's bytes. -/
def blocksOf (data : List Byte) (n : Nat) : List (List Byte) := (List.range n).map fun i => slice data (64 * i) 64

/-- I/O die that serves a cluster's requests (R330). -/
def cluLokDie (c : Nat) : Nat := cluIoDie c

/-- A message of a cluster (R339, R340). -/
def State.cluSend (s : State) (c cls opcode dst off n opf : Nat) (blocks : List (List Byte)) (poison : Bool) (who : Who) : Send :=
  { cls := cls, span := s.get CLU_SPAN_span_tag c, dst := dst, opcode := opcode, gen := s.get CLU_PART_gen c,
    part := s.get CLU_PART_partition c, addr := globalAddr dst off, opf := opf, blocks := blocks,
    poison := blocks.map fun _ => poison, b := n, who := some who, ttag := none, oseq := none }

/-- The multicast stream of a skein at an I/O die. -/
def LokDie.rootOf (x : LokDie) (c no : Nat) : Option McRoot := x.roots.find? fun r => r.origin == some (c, no)

/-- Receivers of a group, as its root's entry counts them. -/
def State.groupRecv (s : State) (d g : Nat) : Nat := s.get LNK_GROUP_receivers (dieLink d) g

/-- Blocks of a skein's multicast stream are formed (R347): offsets, bytes and poison; `who` is answered when every receiver has
acknowledged them. (Log 51 DESIGN CHOICE) -/
def State.mcPut (s : State) (c : Nat) (k : Skein) (group cls : Nat) (blocks : List (Nat × List Byte × Bool)) (who : Who) : State :=
  let d := cluLokDie c
  let x := s.lokD d
  let s1 := match x.rootOf c k.no with
    | some _ => s
    | none =>
      let tag := s.freshTag d
      let r : McRoot :=
        { id := tag, ttag := tag, group := group, cls := cls, span := s.get CLU_SPAN_span_tag c, gen := s.get CLU_PART_gen c,
          part := s.get CLU_PART_partition c, origin := some (c, k.no), chan := 0, job := 0, w4 := dw k.w 4, w5 := dw k.w 5,
          ready := [], sent := 0, final := none, marks := [], acks := [(s.moduleId, 0)], pruned := [], landed := 0, ended := false, code := 0 }
      s.modLok d fun x => { x with nextTtag := (tag + 1) % 65536, roots := x.roots ++ [r] }
  let add := fun (r : McRoot) => if r.origin == some (c, k.no) then
      { r with ready := r.ready ++ blocks, marks := r.marks ++ [(r.sent + r.ready.length + blocks.length, blocks.length, who)] } else r
  s1.modLok d fun x => { x with roots := x.roots.map add }

/-! ### Answers -/

/-- A transfer's block has been answered. -/
def Xfer.answer (t : Xfer) (blk n : Nat) (data : List Byte) (poison : Bool) : Xfer :=
  { t with done := t.done ++ (List.range n).map fun i => (blk + i, slice data (64 * i) (Nat.min 64 (data.length - 64 * i)), poison) }

/-- Transfers that were dropped leave the queue once every block has been answered or refused (R215). -/
def StrQ.sweep (q : StrQ) : StrQ := { q with xfers := q.xfers.filter fun t => !(t.dropped && t.settled) }

/-- Change a transfer. -/
def State.modXfer (s : State) (c f id : Nat) (g : Xfer → Xfer) : State :=
  s.modQ c f fun q => { q with xfers := q.xfers.map fun t => if t.id == id then g t else t }

/-- An answer of `n` blocks to a stream's transfer (R211, R218, R222). -/
def State.strAnswer (s : State) (c f id blk n : Nat) (r : Reply) : State :=
  match (s.q c f).xfers.find? fun t => t.id == id with
  | none => s
  | some t =>
    let no := ((s.q c f).bound).getD 0
    if r.reason = 0 then
      let s1 := (s.modXfer c f id (fun t => t.answer blk n r.data r.poison)).modQ c f StrQ.sweep
      if t.write.isSome then s1.syncSink c no else s1
    else
      let s1 := s.modXfer c f id fun t => { t with bad := t.bad + n }
      let resumable := r.reason == 0x0225 || r.reason == 0x0226 || r.reason == 0x025E
      -- of the saved tile's dropped read, only a fault of an earlier block still counts (R218)
      let saved := (s.q c f).halted && resumable && t.tile == s.get STR_QPOS_tile c (f / 32) (f % 32)
      if t.dropped && !saved then (s1.modQ c f StrQ.sweep).syncSink c no
      else
        match s.sk c no with
        | none => s1.modQ c f StrQ.sweep
        | some k =>
          let a := s.strTile c f k t.tile
          let addr := blockAddr a.2.1 a.2.2 blk
          if resumable then
            ((s1.strHalt c f t.tile blk r.reason addr).modQ c f StrQ.sweep).syncSink c no
          else ((s1.strFail c f r.reason addr).modQ c f StrQ.sweep).syncSink c no

/-- The answer to a retry (R220, R221): success resumes the queue, the same fault leaves the halt. -/
def State.retryAnswer (s : State) (c f : Nat) (r : Reply) : State :=
  let q := s.q c f
  if !q.halted || !q.retrying then s
  else
    let s1 := s.modQ c f fun q => { q with retrying := false }
    if r.reason = 0 then s1.strResume c f
    else if r.reason = 0x0225 ∨ r.reason = 0x0226 ∨ r.reason = 0x025E then s1
    else s1.strFail c f r.reason (s.rreg STR_QADDR c (f / 32) (f % 32))

/-- The answer to a block of a spill or a refill (R196, R197): a slot whose last write is acknowledged becomes not valid; a
block read for a refill is written into its line; a refused block halts the command. What answers an earlier command frees
nothing. (Log 26 DEDUCED) -/
def State.spillAnswer (s : State) (c no slot blk : Nat) (r : Reply) : State :=
  match (s.cl c).ret with
  | none => s
  | some x =>
    if x.no ≠ no then s
    else if r.reason ≠ 0 then
      let code := if r.reason = 0x0225 ∨ r.reason = 0x0226 then 0x0518 else r.reason
      ((s.modCl c fun y => { y with ret := some { x with halted := true } }).put CLU_RETURN_busy c 0).put CLU_RETURN_reason c code
    else
      let left := x.left.map fun p => if p.1 = slot then (p.1, p.2 - 1) else p
      let s1 := s.modCl c fun y => { y with ret := some { x with left := left } }
      if x.refill then
        s1.wrData (c * 0x800000 + s.get CLU_BSLOT_line c slot * 0x4000 + 64 * blk) r.data r.poison false
      else if left.any fun p => p.1 == slot && p.2 == 0 then (s1.put CLU_BSLOT_valid c 0 slot).put CLU_BSLOT_dirty c 0 slot
      else s1

/-- An answer of `n` blocks finds its way to who asked: streams take it at once, the others by a command of their own. -/
def State.answer (s : State) (w : Who) (n : Nat) (r : Reply) : State :=
  match w with
  | .str c u q id blk => s.strAnswer c (32 * u + q) id blk n r
  | .retry c u q => s.retryAnswer c (32 * u + q) r
  | .spill c no slot blk => s.spillAnswer c no slot blk r
  | .aselo k => if r.reason = 0 then s else s.aseloFailed k r.reason
  | .repair _ a => if s.sys.repairs.any (fun x => x.addr == a) then s.reply w r else s
  | .fix h _ _ _ => if s.sys.jobs.any (fun j => j.handle == h && j.ended == 0) then s.reply w r else s
  | .shard ch j => if r.reason = 0 then s else (s.event r.reason 0xFFFF (s.chPart ch) 0).updVoid ch j r.reason
  | w => s.reply w r

/-! ### Issue -/

/-- An access of whole blocks (or one block's enabled bytes) to the own module's memory: on chip it is performed at once, in
HBM3 it enters the channels block by block. -/
def State.memIssue (s : State) (c a cls n : Nat) (write : Option (List Byte × Nat × Bool)) (who : Nat → Who) : State :=
  let pg := s.cluPG c
  if a < onchipTop then
    let tc := a / 0x800000
    if !(s.portOk tc pg.1 pg.2) then s.stale (cluCroft tc)
    else
      match write with
      | none => ((s.noteRead a (64 * n)).stamp a (64 * n)).answer (who 0) n ⟨s.rdMem a (64 * n), s.rdPoison a (64 * n), 0⟩
      | some (d, be, p) => (s.wrMem a (if n = 1 then enabled be d else d.map some) p).answer (who 0) n ⟨[], false, 0⟩
  else
    (List.range n).foldl (fun (s : State) i =>
      s.hbmPut (who i) cls (a + 64 * i)
        (match write with | none => .read 64 | some (d, be, p) => .write (slice d (64 * i) 64) be p) pg.1 pg.2) s

/-- A piece that is refused at issue: its blocks count as refused, and its stream fails (R222). -/
def State.pieceRefused (s : State) (c f n code addr : Nat) (w : Who) : State :=
  let s1 := match w with
    | .str _ _ _ id _ => s.modXfer c f id fun t => { t with bad := t.bad + n }
    | _ => s
  ((s1.strFail c f code addr).modQ c f StrQ.sweep).syncSink c (((s.q c f).bound).getD 0)

/-- One piece of a stream's transfer goes out; no piece does once its skein has ended. (Log 49 DEDUCED) -/
def State.issuePiece (s : State) (c f : Nat) (k : Skein) (kind : Acc) (poison : Bool) (write : Bool) (p : Piece) (who : Nat → Who) : State :=
  let cls := s.get STR_QCFG_class c (f / 32) (f % 32)
  let pg := s.cluPG c
  let refuse := fun (s : State) code => s.pieceRefused c f p.n code p.addr (who 0)
  if (s.sk c k.no).any Skein.ended then refuse s 0
  else
    match s.resolve c kind p.addr (64 * p.n) with
    | .error e => refuse s e
    | .ok (.mem a) =>
      if kind = .accum then s.hbmPut (who 0) cls a (.accum (k.qacc % 2 ^ 44) p.data poison) pg.1 pg.2
      else s.memIssue c a cls p.n (if write then some (p.data, p.be, poison) else none) who
    | .ok (.reg _) => refuse s 0x0215
    | .ok (.other m off) =>
      let op := if !write then 1 else if kind = .accum then 4 else 3
      let opf := if !write then 0 else if kind = .accum then k.qacc % 2 ^ 44 else if p.n = 1 then p.be else 2 ^ 64 - 1
      let r := s.lokIssue (cluLokDie c) (s.cluSend c cls op m off p.n opf (if write then blocksOf p.data p.n else []) poison (who 0))
      if r.2 = 0 then r.1 else refuse r.1 r.2
    | .ok (.host iova) =>
      if write && poison then refuse s 0x0241
      else
        (List.range p.n).foldl (fun (s : State) i =>
          s.hostAccess ⟨who i, pg.1, pg.2, ((s.cl c).pasid).getD 0, iova + 64 * i,
            if write then .write (slice p.data (64 * i) 64) p.be true else .read 64⟩) s
    | .ok (.group g off) =>
      s.mcPut c k g cls ((List.range p.n).map fun i => (off + 64 * i, slice p.data (64 * i) 64, poison)) (who 0)

/-- Start a transfer with its pieces: every piece's whole extent is checked before any part goes out (R52). -/
def State.startXfer (s : State) (c f : Nat) (k : Skein) (tile : Nat) (write : Option Tile) (ps : List Piece) : State :=
  let q := s.q c f
  let kind := strAcc q.role (dMode k.w)
  let bad := ps.findSome? fun p => match s.resolve c kind p.addr (64 * p.n) with | .error e => some (e, p.addr) | .ok _ => none
  match bad with
  | some e => s.strFail c f e.1 e.2
  | none =>
    let id := q.nextId
    let poison := match write with | some t => t.poison | none => false
    let s1 := (s.spend c f (piecesBlocks ps)).modQ c f fun q =>
      { q with nextId := id + 1, xfers := q.xfers ++ [⟨id, tile, write, piecesBlocks ps, [], 0, false, none⟩] }
    let s2 := ps.foldl (fun (s : State) p =>
      s.issuePiece c f k kind poison write.isSome p fun i => .str c (f / 32) (f % 32) id (p.blk + i)) s1
    if write.isSome then s2.syncSink c k.no else s2

/-- Output tile that waits for the sink: the head of the last stage's output. -/
def Skein.sinkHead (k : Skein) : Option Tile := match k.stages.getLast? with | some st => st.outq.head? | none => none

/-- What a queue would start next: tile index, tile written, first block; none when nothing waits. A tile is written again once every
block of its earlier write has been answered. -/
def State.strNext (s : State) (c f : Nat) (k : Skein) : Option (Nat × Option Tile × Nat) :=
  let q := s.q c f
  if q.role = 2 then
    match q.again with
    | some r => if r.1.settled then some (r.1.tile, some r.2.1, r.2.2) else none
    | none => match k.sinkHead with | some t => some (k.sinkN, some t, 0) | none => none
  else
    let due := if q.role = 0 then dCount k.w else if q.role = 1 then dSideTiles k.w else (s.adpItems c f).length
    if q.next < due then some (q.next, none, 0) else none

/-- Pieces of what a queue would start next. -/
def State.strPieces (s : State) (c f : Nat) (k : Skein) (x : Nat × Option Tile × Nat) : List Piece :=
  let a := s.strTile c f k x.1
  match x.2.1 with
  | none => readPieces a.1 a.2.1 a.2.2
  | some t => writePieces t (dMode k.w) a.2.1 a.2.2 x.2.2

/-- May a queue start a transfer (R212, R213, R218). -/
def State.strReady (s : State) (c f : Nat) : Option (Skein × (Nat × Option Tile × Nat) × List Piece) :=
  let q := s.q c f
  match q.bound with
  | none => none
  | some no =>
    match s.sk c no with
    | none => none
    | some k =>
      if (if q.role < 2 then !k.takes else k.ended) || q.halted then none
      else
        match s.strNext c f k with
        | none => none
        | some x =>
          let ps := s.strPieces c f k x
          let room := q.again.isSome || decide (q.xfers.length < s.get STR_QCFG_limit c (f / 32) (f % 32))
          if room && decide (piecesBlocks ps * 65536 ≤ s.tokens c f) then some (k, x, ps) else none

/-- The queue of a unit whose turn it is (R214). -/
def State.strPick (s : State) (c u : Nat) : Option Nat :=
  let start := lget 0 (s.cl c).rr u
  match (List.range 32).find? fun i => (s.strReady c (32 * u + (start + i) % 32)).isSome with
  | some i => some ((start + i) % 32)
  | none => none

/-- STR_TRANSFER_START: one transfer of the chosen queue. -/
def State.strStart (s : State) (c u : Nat) : State :=
  if s.get STR_CTL_en c u = 0 then s
  else
    match s.strPick c u with
    | none => s
    | some q =>
      let f := 32 * u + q
      match s.strReady c f with
      | none => s
      | some (k, x, ps) =>
        let s1 := s.modCl c fun y => { y with rr := lset y.rr u ((q + 1) % 32) }
        match x.2.1 with
        | none => (s1.modQ c f fun y => { y with next := x.1 + 1 }).startXfer c f k x.1 none ps
        | some t =>
          let again := (s.q c f).again
          let s2 := match again with
            | some r => s1.modQ c f fun y => { y with xfers := lrem (fun z => z.id == r.1.id) y.xfers }
            | none =>
              let j := k.stages.length - 1
              (s1.modStage c k.no j fun st => { st with outq := st.outq.drop 1 }).modSk c k.no fun k =>
                { k with sinkN := k.sinkN + 1, poisoned := k.poisoned || t.poison }
          if ps.isEmpty then s2.run c k.no
          else
            let s3 := s2.startXfer c f k x.1 (some t) ps
            -- a tile of which nothing went out is no tile that the sink sent (Table 3.13)
            let sent := again.isNone && (!(s3.sk c k.no).any Skein.ended || (s3.q c f).xfers.any fun y => y.id == (s2.q c f).nextId)
            (if sent then s3.modSk c k.no fun k => { k with tilesOut := k.tilesOut + 1 } else s3).run c k.no

/-! ### The end of a transfer -/

/-- Data, companion and poison of a read's answered blocks, in block order. -/
def Xfer.tileData (t : Xfer) : List Byte × List Byte × Bool :=
  let part := fun b => match t.done.find? fun d => d.1 == b with | some d => slice d.2.1 0 64 | none => List.replicate 64 0
  ((List.range 16).flatMap part, if t.n = 17 then part 16 else [], t.done.any fun d => d.2.2)

/-- A tile of the adapter's weights enters its buffer: the run's bytes grow. -/
def State.adpEnter (s : State) (c : Nat) (f i : Nat) (data : List Byte) (poison : Bool) : State :=
  let row := (lget (0, 0, 0) (s.adpItems c f) i).2.1
  let put := fun (b : Nat × List Byte × Bool × Nat) => if b.1 == row then (b.1, b.2.1 ++ data, b.2.2.1 || poison, b.2.2.2) else b
  let s1 := s.modCl c fun x => { x with adpBuf := x.adpBuf.map put }
  s1.bump (if f = s.get ADP_CFG_fetch_q c then ADP_CNT_home_tiles else ADP_CNT_copy_tiles) c

/-- Remove a transfer. -/
def State.dropXfer (s : State) (c f id : Nat) : State := s.modQ c f fun q => { q with xfers := lrem (fun t => t.id == id) q.xfers }

/-- STR_TRANSFER_DONE (R211): the oldest read of a queue enters its port when the port has room; a write ends when its last block
has been acknowledged. -/
def State.strDone (s : State) (c f id : Nat) : State :=
  match (s.q c f).xfers.find? fun t => t.id == id, (s.q c f).bound with
  | some t, some no =>
    if t.dropped || t.redo.isSome || t.bad != 0 || t.done.length < t.n then s
    else
      match s.sk c no, t.write with
      | none, _ => s
      | some k, some _ => (((s.dropXfer c f id).bump STR_QCNT_tiles c (f / 32) (f % 32)).syncSink c no).run c k.no
      | some k, none =>
        let role := (s.q c f).role
        let d := t.tileData
        let oldest := !((s.q c f).xfers.any fun x => !x.dropped && decide (x.tile < t.tile))
        if (if role < 2 then !k.takes else k.ended) || !oldest then s
        else if role = 3 then
          (((s.dropXfer c f id).bump STR_QCNT_tiles c (f / 32) (f % 32)).adpEnter c f t.tile d.1 d.2.2).run c no
        else if !(s.feedRoom c k (role == 1)) then s
        else ((s.dropXfer c f id).bump STR_QCNT_tiles c (f / 32) (f % 32)).feed c no k (role == 1) (feedTile k (role == 1) d.1 d.2.1 d.2.2)
  | _, _ => s

/-! ### Retries, resume and abandon (R220 to R224) -/

/-- One retry of the saved block: a one-block read, or a write of the saved block from the tile kept. -/
def State.strRetry (s : State) (c f : Nat) : State :=
  let q := s.q c f
  match q.bound with
  | none => s
  | some no =>
    match s.sk c no with
    | none => s
    | some k =>
      if !q.halted || q.retrying then s
      else
        let u := f / 32
        let n := f % 32
        let addr := s.rreg STR_QADDR c u n
        let blk := s.get STR_QPOS_block c u n
        let s1 := (s.bump STR_QCNT_retries c u n).modQ c f fun q => { q with retrying := true }
        let kind := strAcc q.role (dMode k.w)
        match q.again with
        | some r =>
          let ps := (writePieces r.2.1 (dMode k.w) (sinkAddr k.w r.1.tile) (compAddr k.w (sinkAddr k.w 0) r.1.tile) blk).take 1
          match ps with
          | p :: _ => s1.issuePiece c f k kind r.2.1.poison true { p with n := 1, data := slice p.data 0 64, be := if p.blk = 16 then p.be else beAll }
              fun _ => .retry c u n
          | [] => s1
        | none => s1.issuePiece c f k kind false false ⟨blk, addr, 1, [], beAll⟩ fun _ => .retry c u n

/-- Was the halt a presence fault (R220) and not a host page. -/
def State.presenceHalt (s : State) (c f : Nat) : Bool :=
  let r := s.get STR_QSTAT_halt_reason c (f / 32) (f % 32)
  r == 0x0225 || r == 0x0226

/-- STR_RETRY_TIMER (R220). -/
def State.strRetryTimer (s : State) (c f : Nat) : State :=
  if (s.q c f).halted && s.presenceHalt c f then s.strRetry c f else s

/-- The page of a halted queue's saved block grants what it needs now. -/
def State.strGranted (s : State) (c f : Nat) : Bool :=
  let addr := s.rreg STR_QADDR c (f / 32) (f % 32) % 2 ^ 57
  match s.atcFind (((s.cl c).pasid).getD 0) (addr / 4096) with
  | some g => if (s.q c f).role = 2 then g.2 else g.1
  | none => false

/-- STR_QCMD resume (R220, R224): a presence halt is retried at once; a host page's halt ends when the page grants the access. -/
def State.strQResume (s : State) (c f : Nat) : State :=
  if !(s.q c f).halted then s.put STR_QCFG_reason c 0x025A (f / 32) (f % 32)
  else if s.presenceHalt c f then s.strRetry c f
  else if s.strGranted c f then (s.bump STR_QCNT_retries c (f / 32) (f % 32)).strResume c f
  else s.bump STR_QCNT_retries c (f / 32) (f % 32)

/-- STR_QCMD abandon (R224). -/
def State.strQAbandon (s : State) (c f : Nat) : State :=
  if !(s.q c f).halted then s.put STR_QCFG_reason c 0x025A (f / 32) (f % 32)
  else s.strFail c f 0x025B (s.rreg STR_QADDR c (f / 32) (f % 32))

/-- HALT_LIMIT_EXPIRY (R222, R511). -/
def State.strHaltLimit (s : State) (c f : Nat) : State :=
  if (s.q c f).halted then
    ((s.strFail c f 0x0257 (s.rreg STR_QADDR c (f / 32) (f % 32))).cluEvent c 0x0257 f 0)
  else s

/-! ### Host pages (R216, R221, R389) -/

/-- A channel, and a change of it. -/
def State.hch (s : State) (ch : Nat) : HChan := tget HChan.init s.chans ch
def State.modCh (s : State) (ch : Nat) (f : HChan → HChan) : State := { s with chans := tset HChan.init s.chans ch (f (s.hch ch)) }

/-- Halt a channel (R404, R405, R410). -/
def State.chanHalt (s : State) (ch code : Nat) : State :=
  ((s.put CHN_CTL_halted ch 1).put CHN_REASON_reason ch code).modCh ch fun x => { x with slots := [] }

/-- A slot read of a channel that still awaits the slot fails: the channel halts with reason 0x0826 (R405). -/
def State.slotFail (s : State) (ch cseq : Nat) : State :=
  if s.get CHN_CTL_halted ch = 1 ∨ ((s.hch ch).slots.any fun x => x.cseq == cseq) = false then s else s.chanHalt ch 0x0826

/-- An access whose page does not grant it, once the translation is there: a stream halts and asks for the page; a retry after
Success fails with 0x0259; other requesters get the code of their own rule (0x021C for a core, 0x0826 for a channel's own reads,
the dirty log's overflow), and Aselo's own writes go untranslated. (Log 56 DEDUCED, 57 DEDUCED) -/
def State.hostRefused (s : State) (a : HostAcc) : State :=
  match a.who with
  | .str c u q id blk =>
    let s1 := s.strAnswer c (32 * u + q) id blk 1 ⟨[], false, 0x025E⟩
    if (s1.q c (32 * u + q)).halted && !(s1.q c (32 * u + q)).prs then
      (s1.modQ c (32 * u + q) fun y => { y with prs := true }).pageRequest (.retry c u q) a.pasid (a.iova / 4096) a.op.isWrite
    else s1
  | .retry c u q => if (s.q c (32 * u + q)).halted then s.strFail c (32 * u + q) 0x0259 (2 ^ 63 + a.iova) else s
  | .load c id => s.reply (.load c id) ⟨[], false, 0x021C⟩
  | .store c id => s.reply (.store c id) ⟨[], false, 0x021C⟩
  | .dirty p _ => s.dirtyFail p
  | .chan ch cseq => s.slotFail ch cseq
  | .ref _ _ _ => s.pageRequest a.who a.pasid (a.iova / 4096) a.op.isWrite (some a)
  | _ => s.hostIssue a

/-- An access whose translation is there and grants it. A retry after Success resumes its queue. -/
def State.hostGranted (s : State) (a : HostAcc) : State :=
  match a.who with
  | .retry c u q => if (s.q c (32 * u + q)).halted then s.strResume c (32 * u + q) else s
  | _ => s.hostIssue a

/-- ATS_TRANSLATION_RESPONSE (R216): the accesses that wait for the page proceed, in order. -/
def State.atsResponse (s : State) (pasid page : Nat) (rd wr : Bool) : State :=
  if s.pcie.asked.contains (pasid, page) then
    let mine := fun (a : HostAcc) => a.pasid == pasid && a.iova / 4096 == page
    let ws := s.pcie.waits.filter mine
    let s1 := (s.atcPut pasid page rd wr).modPcie fun x =>
      { x with waits := x.waits.filter fun a => !(mine a), asked := lrem (fun k => k == (pasid, page)) x.asked }
    ws.foldl (fun (s : State) a => if grants rd wr a.op then s.hostGranted a else s.hostRefused a) s1
  else s

/-- PAGE_REQUEST_RESPONSE (R221, R403): on Success the translation is asked for anew; else the stream fails with 0x0258, and a
command's reference with 0x0824. -/
def State.pageResponse (s : State) (i code : Nat) : State :=
  match s.pcie.prs[i]? with
  | none => s
  | some r =>
    let s1 := (s.modPcie fun x => { x with prs := x.prs.eraseIdx i }).prNext
    match r.who with
    | .retry c u q =>
      let f := 32 * u + q
      if r.dropped || !(s.q c f).halted || !(s.q c f).prs then s1
      else if code = 0 then
        let pg := s.cluPG c
        s1.hostWait ⟨.retry c u q, pg.1, pg.2, r.pasid, s.rreg STR_QADDR c u q % 2 ^ 57, if r.wr then .write [] 0 false else .read 64⟩
      else s1.strFail c f 0x0258 (s.rreg STR_QADDR c u q)
    | .ref ch cseq i => (match r.acc with
      | some a => if code = 0 then s1.hostWait a else s1.reply (.ref ch cseq i) ⟨[], false, 0x0824⟩
      | none => s1)
    | _ => s1

/-! ### Enables (R227, Table 8.10) -/

/-- Checks of an STR unit. -/
def strCtlChecks (c u : Nat) (s : State) : List (Bool × Nat) := [(s.get STR_CTL_retry_us c u != 0 && s.get STR_CTL_halt_ms c u != 0, 0x025C)]

/-- Sum of a field over the enabled queues of a unit and this one. -/
def State.strSum (s : State) (c u q : Nat) (fld : Fld) : Nat :=
  ((List.range 32).map fun i => if i = q ∨ s.get STR_QCFG_en c u i = 1 then s.get fld c u i else 0).sum

/-- Checks of a queue. -/
def strQcfgChecks (c u q : Nat) (s : State) : List (Bool × Nat) :=
  let lim := s.get STR_QCFG_limit c u q
  let rate := s.get STR_QRATE_rate c u q
  let depth := s.get STR_QCFG_depth c u q
  [ (s.get STR_CTL_en c u == 1, 0x025D), (s.get STR_QCFG_class c u q != 0, 0x0256),
    (decide (1 ≤ lim) && decide (lim ≤ 64), 0x0251), (decide (1 ≤ rate) && decide (rate ≤ 131072), 0x0252),
    (decide (17 ≤ depth) && decide (depth ≤ 4096), 0x0253), (decide (s.strSum c u q STR_QCFG_limit ≤ 240), 0x0254),
    (decide (s.strSum c u q STR_QRATE_rate ≤ 131072), 0x0255) ]

/-- STR_QCFG with en = 1: the bucket starts full and the counts start at zero. -/
def State.strQEnable (s : State) (c u q : Nat) (v : Word) : State :=
  let s1 := s.enable STR_QCFG_en STR_QCFG_reason c u q v (strQcfgChecks c u q)
  if s.enables STR_QCFG_en c u q v (strQcfgChecks c u q) then
    (s1.modQ c (32 * u + q) fun x => { x with tokens := s1.get STR_QCFG_depth c u q * 65536, stamp := memCycle s.tick }).wreg STR_QCNT c u q 0
  else s1

/-- STR_QCFG with en = 0: ignored while the queue is bound (R225). -/
def State.strQDisable (s : State) (c u q : Nat) (v : Word) : State :=
  if (s.q c (32 * u + q)).bound.isSome then s.plainBut STR_QCFG_en c u q v
  else ((s.plainBut STR_QCFG_en c u q v).put STR_QCFG_en c 0 u q)

/-- STR_CTL_EN (R227). -/
def execStrCtlEn (c : Clu) (u : StrU) (v : Word) (s : State) : Host.Outcome State Fault Refusal :=
  .next (s.enable STR_CTL_en STR_CTL_reason c u 0 v (strCtlChecks c u))

/-- STR_QCFG_EN (R227, R213). -/
def execStrQcfgEn (c : Clu) (u : StrU) (q : StrN) (v : Word) (s : State) : Host.Outcome State Fault Refusal := .next (s.strQEnable c u q v)

/-- STR_TRANSFER_START (R211 to R214). -/
def execStrTransferStart (c : Clu) (u : StrU) (s : State) : Host.Outcome State Fault Refusal := .next (s.strStart c u)

/-- STR_TRANSFER_DONE (R211). -/
def execStrTransferDone (c : Clu) (u : StrU) (q : StrN) (id : Nat) (s : State) : Host.Outcome State Fault Refusal :=
  .next (s.strDone c (32 * u + q) id)

/-- STR_RETRY_TIMER (R220). -/
def execStrRetryTimer (c : Clu) (u : StrU) (q : StrN) (s : State) : Host.Outcome State Fault Refusal := .next (s.strRetryTimer c (32 * u + q))

/-- STR_QCMD_RESUME (R220, R224). -/
def execStrQcmdResume (c : Clu) (u : StrU) (q : StrN) (s : State) : Host.Outcome State Fault Refusal := .next (s.strQResume c (32 * u + q))

/-- STR_QCMD_ABANDON (R224). -/
def execStrQcmdAbandon (c : Clu) (u : StrU) (q : StrN) (s : State) : Host.Outcome State Fault Refusal := .next (s.strQAbandon c (32 * u + q))

/-- HALT_LIMIT_EXPIRY (R222). (Log 2 DESIGN CHOICE) -/
def execHaltLimitExpiry (c : Clu) (u : StrU) (q : StrN) (s : State) : Host.Outcome State Fault Refusal := .next (s.strHaltLimit c (32 * u + q))

/-- ATS_TRANSLATION_RESPONSE (R216). -/
def execAtsTranslationResponse (pasid page : Nat) (rd wr : Bool) (s : State) : Host.Outcome State Fault Refusal :=
  .next (s.atsResponse pasid page rd wr)

end Sys2Proof.Machine
end

