-- ==== Sys2Proof/Machine/Adp.lean ====
section
/-!
DEFINITION. The adapter station (chapter "Adapter layers and the adapter station", R259 to R268): the entry memory, the
index elements of port 1, the fetches of half-records, and the down and up operations.
-/
namespace Sys2Proof.Machine

open Sys2Proof

/-! ### Op fields (Table 10.7) -/

/-- wt of an op: 2, 4 or 8. -/
def adpWt (o : Nat) : Nat := 2 ^ nfld o 3 2
/-- Tiles of a row group on port 0: the slice's tiles, and in an up op the tile of `a` before them (Table 10.3). -/
def adpGroup (o : Nat) : Nat := if nfld o 1 2 = 2 then adpWt o + 1 else adpWt o

/-! ### Table 10.8 -/

/-- Valid op words. -/
def State.adpOps (s : State) (c : Nat) : List Nat :=
  ((List.range 16).map fun i => s.rreg ADP_OP c i).filter fun o => nbit o 0

/-- Is a queue, by 32 × unit + queue, enabled and latency-critical. -/
def State.lcQueue (s : State) (c f : Nat) : Bool :=
  s.get STR_QCFG_en c (f / 32) (f % 32) == 1 && s.get STR_QCFG_class c (f / 32) (f % 32) == 1

/-- Checks of Table 10.8 in table order, each over the valid ops in op order (R268). -/
def adpChecks (c : Nat) (s : State) : List (Bool × Nat) :=
  let fq := s.get ADP_CFG_fetch_q c
  let cq := s.get ADP_CFG_copy_q c
  (s.lcQueue c fq && (s.get ADP_CFG_copy_en c == 0 || (s.lcQueue c cq && cq != fq)), 0x0D11) ::
  ((s.adpOps c).map fun o => (nfld o 1 2 != 3 && (nfld o 1 2 == 0 || nfld o 3 2 != 0) && decide (nfld o 10 3 ≤ 3), 0x0D12)) ++
  ((s.adpOps c).map fun o =>
    ((nfld o 1 2 != 1 || nfld o 5 4 == 5 || nfld o 5 4 == 0) && (nfld o 1 2 != 2 || nfld o 5 4 == 0 || nfld o 5 4 == 1) &&
      (nfld o 10 3 == 0 || (nfld o 1 2 == 1 && nfld o 5 4 == 0)), 0x0D13))

/-! ### Entries (Table 10.2) -/

/-- An unused entry. (Log 16 DESIGN CHOICE) -/
def AdpEntry.unused : AdpEntry := ⟨0, 0, 0, 0, 0, 0⟩

/-- Is a loaded entry well formed (R259). -/
def adpEntryOk (b : List Byte) : Bool :=
  [0, 4, 8, 16, 32, 64].contains (leAt b 2 1) && leAt b 3 1 / 2 == 0 && leAt b 13 3 == 0 &&
  (leAt b 3 1 % 2 == 0 || (decide (32 ≤ leAt b 12 1) && decide (leAt b 12 1 ≤ 119)))

/-- An entry from its 16 bytes. -/
def adpEntryOf (b : List Byte) : AdpEntry := ⟨leAt b 8 4, leAt b 12 1, leAt b 2 1, leAt b 3 1, leAt b 4 2, leAt b 6 2⟩

/-- Entry of the station's memory. -/
def State.adpEntry (s : State) (c i : Nat) : AdpEntry := tget AdpEntry.unused (s.cl c).adp i

/-- Load entries from number `i` on, up to the first that fails (R259); the entry memory and whether all were well formed. -/
def adpLoad : Nat → List (List Byte) → Tab AdpEntry → Tab AdpEntry × Bool
  | _, [], m => (m, true)
  | i, b :: t, m => if adpEntryOk b then adpLoad (i + 1) t (tset AdpEntry.unused m i (adpEntryOf b)) else (m, false)

/-! ### The stage -/

/-- The adapter stage of a running skein: its place, the stage, and its op word. -/
def State.adpStage (s : State) (c : Nat) (k : Skein) : Option (Nat × Stage × Nat) :=
  match k.stages.zipIdx.find? fun p => p.1.stn == 0x14 with
  | none => none
  | some (st, j) => some (j, st, s.opWord c 0x14 st.op)

/-- The running skein, its adapter stage and op, when the op is of a kind and the skein still feeds. -/
def State.adpAt (s : State) (c no kind : Nat) : Option (Skein × Nat × Stage × Nat) :=
  match s.sk c no with
  | none => none
  | some k =>
    if k.ended then none
    else match s.adpStage c k with
      | none => none
      | some (j, st, o) => if nfld o 1 2 = kind then some (k, j, st, o) else none

/-- Take the index tiles of port 1 (R260): their elements, and for each tile its poison behind the fetch position. -/
def Stage.takeIndex (st : Stage) : Stage :=
  let acc := if st.acc.isEmpty then [0] else st.acc
  { st with p1 := [], p1n := st.p1n + st.p1.length, idx := st.idx ++ st.p1.flatMap indexElems,
            acc := acc ++ st.p1.map fun t => b2n t.poison }

/-- Are all index tiles of a stage in. -/
def indexDone (k : Skein) (j : Nat) (st : Stage) : Bool := !(sideFed k.w j) || decide (dSideTiles k.w ≤ st.p1n)

/-- Index of a row; a row past the last index tile has none. -/
def Stage.rowIdx (st : Stage) (i : Nat) : Nat := lget 0xFFFF st.idx i

/-- Is the index of a row known. -/
def idxKnown (k : Skein) (j : Nat) (st : Stage) (i : Nat) : Bool := decide (i < st.idx.length) || indexDone k j st

/-- The check of a row (R260). -/
def State.adpRowCode (s : State) (c v : Nat) : Nat :=
  if v = 0xFFFF then 0
  else if 0x1000 ≤ v then 0x0D02
  else if (s.adpEntry c v).rank = 0 then 0x0D03
  else if (s.adpEntry c v).tag ≠ s.get ADP_BASE_tag c then 0x0D05
  else 0

/-- First row of the run of equal indices that row i belongs to (R262). -/
def Stage.runStart (st : Stage) : Nat → Nat
  | 0 => 0
  | i + 1 => if st.rowIdx i = st.rowIdx (i + 1) then st.runStart i else i + 1

/-- Row groups of the skein that the station knows of: all of them behind the source, else those begun. -/
def adpRows (k : Skein) (j : Nat) (st : Stage) (o : Nat) : Nat :=
  8 * (if j = 0 then dCount k.w / adpGroup o else cdiv (st.n + st.p0.length) (adpGroup o))

/-! ### Fetches (R262) -/

/-- Queue and address of a run's half-record (R253, R262). -/
def State.adpFetchAt (s : State) (c o : Nat) (e : AdpEntry) : Nat × Nat :=
  let u := if nfld o 1 2 = 2 then 128 * e.rank * adpWt o else 0
  if nbit e.flags 0 && s.get ADP_CFG_copy_en c == 1 then
    (s.get ADP_CFG_copy_q c,
      (100 * s.ownAlias c + cluLocal c) * 0x800000 + e.copy * 0x10000 + nfld o 40 14 * 256 * e.rank + u)
  else (s.get ADP_CFG_fetch_q c,
      hbmBase + s.ownAlias c * croftBytes + e.home * 1024 + nfld o 16 24 * 256 * e.rank + u)

/-- Tiles that the weight buffer holds or has promised. -/
def Cluster.adpHeld (x : Cluster) : Nat := x.adpBuf.foldl (fun a b => a + b.2.2.2) 0

/-- ADP_FETCH_ISSUE (R260, R262): the next run of rows that needs weights is checked, and its half is asked for when the
weight buffer has room for all of it. -/
def State.adpFetch (s : State) (c no : Nat) : State :=
  match (match s.adpAt c no 1 with | some x => some x | none => s.adpAt c no 2) with
  | none => s
  | some (k, j, st0, o) =>
    let st := st0.takeIndex
    let s1 := s.modStage c no j fun _ => st
    let ptr := lget 0 st.acc 0
    let last := Nat.min st.idx.length (adpRows k j st o)
    match (List.range (last - ptr)).find? fun d => st.rowIdx (ptr + d) != 0xFFFF && st.runStart (ptr + d) == ptr + d with
    | none => s1
    | some d =>
      let i := ptr + d
      let v := st.rowIdx i
      let code := s1.adpRowCode c v
      if code ≠ 0 then s1.stnFail c no 0x14 code
      else
        let e := s1.adpEntry c v
        let due := e.rank * adpWt o / 8
        if 128 < (s1.cl c).adpHeld + due then s1
        else
          let q := s1.adpFetchAt c o e
          let s2 := s1.modCl c fun x =>
            { x with adpPend := x.adpPend ++ (List.range due).map (fun t => (q.1, i, q.2 + 1024 * t)),
                     adpBuf := x.adpBuf ++ [(i, [], false, due)] }
          s2.modStage c no j fun x => { x with acc := lset x.acc 0 (i + 1) }

/-! ### Down and up (R261) -/

/-- The half-record in the weight buffer for a run, once every tile of it is there. -/
def State.adpHalf (s : State) (c row : Nat) : Option (List Byte × Bool) :=
  match (s.cl c).adpBuf.find? fun b => b.1 == row with
  | none => none
  | some b => if 1024 * b.2.2.2 ≤ b.2.1.length then some (b.2.1, b.2.2.1) else none

/-- φ of a down op (R261, codes 0b000 to 0b011 of Table 4.14). -/
def adpPhi (act : Nat) (x : XNum) : XNum :=
  if act = 1 then x.relu else if act = 2 then x.silu else if act = 3 then x.gelu else x

/-- Values of a row of a group's slice: its part of each tile, in column order. -/
def sliceRow (ts : List Tile) (row : Nat) : List XNum := ts.flatMap fun t => (t.vals.drop (64 * row)).take 64

/-- Block values of a down op: element k of a row is the partial, +0 beyond the rank and in rows without adapter; ACC40
values, or φ of them (R261). -/
def State.adpDownRow (s : State) (c o v : Nat) (half : List Byte) (h : List XNum) : List XNum :=
  let r := (s.adpEntry c v).rank
  (List.range 64).map fun kk =>
    if v = 0xFFFF ∨ r ≤ kk then XNum.zero
    else
      let p := adpDown (64 * adpWt o) kk half h
      if nfld o 5 4 = 5 then p else adpPhi (nfld o 10 3) p

/-- Slice values of an up op's row (R261). -/
def State.adpUpRow (s : State) (c v : Nat) (half : List Byte) (a h : List XNum) : List XNum :=
  let e := s.adpEntry c v
  if v = 0xFFFF then h
  else h.zipIdx.map fun p => adpUp e.rank p.2 (bf16.dec e.scale) half (a.take e.rank) p.1

/-- Emitted tiles of a row group; `poison` tells for each of them whether a row of it depends on poison. -/
def State.adpTiles (s : State) (c : Nat) (k : Skein) (o : Nat) (st : Stage) (mask : Nat) (poison : Nat → Bool) (last : Bool)
    (rows : List (List XNum)) : List Tile :=
  let f := nfld o 5 4
  let enc := fun (u i : Nat) (x : XNum) =>
    (fpOf f).enc (k.mode (nbit o 9) (s.get ADP_SR_tensor_id c) (s.get ADP_SR_elem_base c + 512 * u + i)) x
  let live := fun r => nbit mask r
  if nfld o 1 2 = 1 then
    let bits := rows.zipIdx.flatMap fun p => p.1.zipIdx.map fun q =>
      if live p.2 then enc st.emitted (64 * p.2 + q.2) q.1 else 0
    poisonTiles (blockTiles f mask st.emitted last false bits) poison
  else
    (List.range (adpWt o)).flatMap fun t =>
      let bits := rows.zipIdx.flatMap fun p => ((p.1.drop (64 * t)).take 64).zipIdx.map fun q =>
        if live p.2 then enc (st.emitted + t) (64 * p.2 + q.2) q.1 else 0
      blockTiles f mask (st.emitted + t) (last && t + 1 == adpWt o) (poison t) bits

/-- Weights that stay after rows below `e`: runs that begin later, and the run that goes on at row e or may. -/
def adpKeep (k : Skein) (j : Nat) (st : Stage) (e : Nat) (last : Bool) (row : Nat) : Bool :=
  !last && (decide (e ≤ row) || (row == st.runStart (e - 1) && (!(idxKnown k j st e) || st.rowIdx e == st.rowIdx (e - 1))))

/-- Compute and emit the collected row group, once its rows' indices and weights are there (R260, R261, R264). -/
def State.adpCompute (s : State) (c no j : Nat) (k : Skein) (st : Stage) (o : Nat) : State :=
  let g := st.blk
  let rows := (List.range 8).map fun r => 8 * g + r
  if !(rows.all fun i => idxKnown k j st i) || !st.outq.isEmpty then s
  else
    let mask := st.grp.foldl (fun m t => m &&& t.mask) 0xFF
    let live := rows.zipIdx.filter fun p => nbit mask p.2
    match live.find? fun p => s.adpRowCode c (st.rowIdx p.1) != 0 with
    | some p => s.stnFail c no 0x14 (s.adpRowCode c (st.rowIdx p.1))
    | none =>
      let need := live.filter fun p => st.rowIdx p.1 != 0xFFFF
      if need.any fun p => (s.adpHalf c (st.runStart p.1)).isNone then s
      else
        let half := fun i => (s.adpHalf c (st.runStart i)).getD ([], false)
        let last := st.grp.any (·.last)
        -- weights mark the tiles with a row computed from them: in ACC40, rows 2q and 2q + 1 stand in tile q (R266)
        let quad := nfld o 1 2 == 1 && nfld o 5 4 == 5
        let poison := fun (q : Nat) => st.grp.any (·.poison) || lget 0 st.acc (1 + 8 * g / 512) == 1 ||
          need.any fun p => (!quad || p.2 / 2 == q) && (half p.1).2
        let vals := rows.zipIdx.map fun p =>
          if !(nbit mask p.2) then List.replicate (if nfld o 1 2 = 1 then 64 else 64 * adpWt o) XNum.zero
          else if nfld o 1 2 = 1 then s.adpDownRow c o (st.rowIdx p.1) (half p.1).1 (sliceRow st.grp p.2)
          else s.adpUpRow c (st.rowIdx p.1) (half p.1).1 (sliceRow (st.grp.take 1) p.2) (sliceRow (st.grp.drop 1) p.2)
        let tiles := s.adpTiles c k o st mask poison last vals
        let s1 := s.modStage c no j fun x =>
          { (x.emit tiles) with grp := [], blk := x.blk + 1, inEnd := x.inEnd || last }
        let s2 := s1.modCl c fun x => { x with adpBuf := x.adpBuf.filter fun b => adpKeep k j st (8 * g + 8) last b.1 }
        (s2.countOut c 0x14 tiles.length).run c no

/-- ADP_DOWN and ADP_UP: the next tile of port 0 joins its row group, and a whole group is computed (R259 to R261). -/
def State.adpMove (s : State) (c no kind : Nat) : State :=
  match s.adpAt c no kind with
  | none => s
  | some (k, j, st0, o) =>
    let st := st0.takeIndex
    let full := decide (adpGroup o ≤ st.grp.length)
    let st1 := if full then st else
      match st.p0 with
      | [] => st
      | t :: rest => { st with p0 := rest, n := st.n + 1, grp := st.grp ++ [t] }
    let s1 := s.modStage c no j fun _ => st1
    if adpGroup o ≤ st1.grp.length then s1.adpCompute c no j k st1 o
    else if st1.grp.any (·.last) then s1.stnFail c no 0x14 0x0D06
    else s1

/-- ADP_TABLE (R259): the next tile fills its 64 entries. -/
def State.adpTable (s : State) (c no : Nat) : State :=
  match s.adpAt c no 0 with
  | none => s
  | some (_, j, st, _) =>
    match st.p0 with
    | [] => s
    | t :: rest =>
      let m := adpLoad (64 * st.n) (chunks 16 64 t.data) (s.cl c).adp
      let s1 := s.modCl c fun x => { x with adp := m.1 }
      let s2 := s1.modStage c no j fun x => { x with p0 := rest, n := x.n + 1, inEnd := x.inEnd || t.last }
      let s3 := s2.modSk c no fun k => { k with poisoned := k.poisoned || t.poison }
      if m.2 then s3.run c no else s3.stnFail c no 0x14 0x0D04

/-- ADP_CTL with en = 1: the counts start at zero (R268). -/
def State.adpEnable (s : State) (c : Nat) (v : Word) : State :=
  let ok := !(s.stnHeld c 0x14) && s.enables ADP_CTL_en c 0 0 v (adpChecks c)
  let s1 := s.stnEnable c 0x14 v (adpChecks c)
  if ok then s1.wreg ADP_CNT c 0 0 0 else s1

/-- ADP_CTL with en = 0: the entry memory is lost with the station. -/
def State.adpDisable (s : State) (c : Nat) (v : Word) : State :=
  if s.stnHeld c 0x14 then s.stnDisable c 0x14 v else (s.stnDisable c 0x14 v).modCl c fun x => { x with adp := [] }

/-! ### The commands -/

/-- ADP_CTL_EN (R268): a successful enable also restarts the fetch counters. -/
def execAdpCtlEn (c : Clu) (v : Word) (s : State) : Host.Outcome State Fault Refusal := .next (s.adpEnable c v)

/-- ADP_TABLE (R259). -/
def execAdpTable (c : Clu) (no : Nat) (s : State) : Host.Outcome State Fault Refusal := .next (s.adpTable c no)

/-- ADP_DOWN (R261). -/
def execAdpDown (c : Clu) (no : Nat) (s : State) : Host.Outcome State Fault Refusal := .next (s.adpMove c no 1)

/-- ADP_UP (R261). -/
def execAdpUp (c : Clu) (no : Nat) (s : State) : Host.Outcome State Fault Refusal := .next (s.adpMove c no 2)

/-- ADP_FETCH_ISSUE (R262). -/
def execAdpFetchIssue (c : Clu) (no : Nat) (s : State) : Host.Outcome State Fault Refusal := .next (s.adpFetch c no)

end Sys2Proof.Machine
end

