-- ==== Sys2Proof/Machine/Hbm.lean ====
section
/-!
DEFINITION. The HBM3 channels (chapter "Stacked memory, host offload and resumable streams"): accepting requests, page state,
patrol and failure.
-/
namespace Sys2Proof.Machine

open Sys2Proof

/-- Set a page's state in one channel. -/
def State.setPage (s : State) (ch p v : Nat) : State :=
  s.wreg HBM_PSTATE ch (p / 32) 0 (nput (s.rreg HBM_PSTATE ch (p / 32)) (2 * (p % 32)) 2 v)

/-- Does a request write in a way that a presence fault does not halt (R223). -/
def MOp.once : MOp → Bool
  | .accum _ _ _ => true
  | .mcast _ _ => true
  | _ => false

/-- Does a request write. -/
def MOp.writes : MOp → Bool
  | .read _ => false
  | _ => true

/-- Why a channel refuses a request; 0 for none. A disabled channel refuses every request with 0x0612 (R227); of the other
failures the numerically smallest counts (R510). Aselo's own accesses, of the management class, are never checked against the
presence state (R37). -/
def State.hbmRefuse (s : State) (r : HReq) : Nat :=
  let ch := hbmChan r.addr
  let st := s.pageState r.addr
  if s.get HBM_CTL_en ch = 0 then 0x0612
  else if st ≠ 0 ∧ r.cls ≠ 0 then (if r.op.once then 0x0227 else if st = 1 then 0x0225 else 0x0226)
  else if s.get HBM_CTL_failed ch = 1 ∧ r.op.writes = true then 0x0642
  else if s.get SEC_HBMKEY_keyed 0 (hbmCroft r.addr) = 0 then 0x0B31
  else 0

/-- Perform a request that no check refuses (R203 to R205, R361): the answer and the blocks it covers. -/
def State.hbmPerform (s : State) (r : HReq) : State :=
  match r.op with
  | .read n => (s.noteRead r.addr n).answer r.who 1 ⟨s.rdMem r.addr n, s.rdPoison r.addr n, 0⟩
  | .write d be p => (s.wrMem r.addr (enabled be d) p).answer r.who 1 ⟨[], false, 0⟩
  | .mcast d p => (s.wrData r.addr d p).answer r.who 1 ⟨[], false, 0⟩
  | .accum o d p =>
    let n := cdiv d.length 64
    let t := s.adderTake r.addr o (blocksOf d n) p
    t.1.answer r.who n ⟨[], false, t.2⟩

/-- Blocks that a request's answer covers. -/
def MOp.blocks : MOp → Nat
  | .accum _ d _ => cdiv d.length 64
  | _ => 1

/-- Is the generation that a request carries current at its croft (Table 16.6); the module's own requests carry none. -/
def State.hbmCurrent (s : State) (r : HReq) : Bool :=
  let k := hbmCroft r.addr
  decide (16 ≤ r.part) || (s.get PRT_CROFT_partition 0 k == r.part && s.get PRT_CROFT_gen 0 k == r.gen)

/-- A channel takes a request. -/
def State.hbmTake (s : State) (r : HReq) : State :=
  let ch := hbmChan r.addr
  if s.hbmCurrent r = false then s.stale (hbmCroft r.addr)
  else
    let code := s.hbmRefuse r
    if code = 0 then s.hbmPerform r
    else
      let s1 := if code = 0x0225 ∨ code = 0x0226 ∨ code = 0x0227 then s.bump HBM_FAULT_CNT_presence ch else s
      s1.answer r.who r.op.blocks ⟨[], false, code⟩

/-- Priority of a class at a channel (R207): latency-critical, reduction, best-effort, management. -/
def hbmRank (cls : Nat) : Nat := if cls = 0 then 3 else cls - 1

/-- Has a request waited 64 HBM3 controller cycles of 1.6 GHz, which are 40 ticks. (Log 7 DESIGN CHOICE, 28 DEDUCED) -/
def State.aged (s : State) (r : HReq) : Bool := decide (40 ≤ s.tick - r.stamp)

/-- The request that a channel would serve from a class queue: its oldest. -/
def State.hbmHead (s : State) (ch cls : Nat) : Option HReq := s.hbmq.find? fun r => hbmChan r.addr == ch && r.cls == cls

/-- May a class queue be served now (R207): no higher queue waits, or its head has aged; and no lower head has aged ahead of it. (Log 28 DEDUCED) -/
def State.hbmTurn (s : State) (ch cls : Nat) : Bool :=
  match s.hbmHead ch cls with
  | none => false
  | some r =>
    let others := (List.range 4).filter fun k => k != cls
    let lowerAged := others.any fun k => decide (hbmRank cls < hbmRank k) && (match s.hbmHead ch k with | some x => s.aged x | none => false)
    let higher := others.any fun k => decide (hbmRank k < hbmRank cls) && (s.hbmHead ch k).isSome
    if higher then s.aged r else !lowerAged

/-- A command of an enabled channel that met a parity error once (Table 8.1): its one retry passed, and the error is counted and
recorded. Whether it met one is a free value. (Log 186 DESIGN CHOICE) -/
def State.hbmRetry (s : State) (ch : Nat) : State :=
  let n := s.opens
  let s1 := { s with opens := n + 1 }
  if s.get HBM_CTL_en ch = 1 ∧ s.get HBM_CTL_failed ch = 0 ∧ Config.free 201 n ch 0 % 2 = 1 then
    (s1.bump HBM_FAULT_CNT_parity ch).event 0x06F2 ch (s.croftPart (ch / 8)).1 (packDetail [(ch, 1)])
  else s1

/-- HBM_REQUEST_ACCEPT: the oldest request of the class queue, when the queue's turn has come. -/
def State.hbmAccept (s : State) (ch cls : Nat) : State :=
  if s.hbmTurn ch cls then
    match s.hbmHead ch cls with
    | none => s
    | some r => (({ s with hbmq := lrem (fun x => x == r) s.hbmq }).hbmRetry ch).hbmTake r
  else s

/-! ### Patrol (R206) and on-chip scrubbing's write-back (R184) -/

/-- A word is written back: corrected, or poisoned when it is uncorrectable; other words stay. On chip it is a write in its line
(R193). -/
def State.writeBack (s : State) (w : Nat) : State :=
  match s.wclass w with
  | .corrected i s0 =>
    let m := if i < 16 then memPut s.mem (w + i) (s.rawByte (w + i) ^^^ BitVec.ofNat 8 s0) else s.mem
    { s.dirtyLines w 16 with mem := m, ecc := eccPut s.ecc w 0 }
  | .uncorrectable => { s.dirtyLines w 16 with ecc := eccPut s.ecc w poisonDelta }
  | _ => s

/-- Words of a 64-byte block. -/
def wordsAt (a : Nat) : List Nat := [a, a + 16, a + 32, a + 48]

/-- An HBM3 block is written back as it was read, each word corrected, and poisoned in every word when one of them is uncorrectable
(R181, R206). -/
def State.blockBack (s : State) (a : Nat) : State :=
  let s1 := (wordsAt a).foldl State.writeBack s
  if (wordsAt a).any fun w => s.wclass w == .uncorrectable then { s1 with ecc := (wordsAt a).foldl (fun e w => eccPut e w poisonDelta) s1.ecc }
  else s1

/-- Blocks of a channel. -/
def chBlocks : Nat := 25165824

/-- HBM_PATROL: the next block of an enabled channel in which no request waits. (Log 29 DEDUCED) -/
def State.hbmPatrol (s : State) (ch : Nat) : State :=
  if s.get HBM_CTL_en ch = 0 ∨ (s.hbmq.any fun r => hbmChan r.addr == ch) = true then s
  else
    let b := tget 0 s.patrol ch
    let a := chanOffset ch (64 * b)
    let s2 := ((wordsAt a).foldl State.noteWord s).blockBack a
    { s2 with patrol := tset 0 s2.patrol ch ((b + 1) % chBlocks) }

/-- HBM_PARITY_FAIL (R209): the retry is counted, the channel fails, and the events of both are recorded. -/
def State.hbmParity (s : State) (ch : Nat) : State :=
  let part := (s.croftPart (ch / 8)).1
  if s.get HBM_CTL_failed ch = 1 then s
  else
    let s1 := (s.bump HBM_FAULT_CNT_parity ch).event 0x06F2 ch part (packDetail [(ch, 1)])
    (s1.put HBM_CTL_failed ch 1).event 0x06F3 ch part (packDetail [(ch, 1)])

/-- HBM_PAGE_CMD with go = 1 (R210). -/
def State.hbmPageCmd (s : State) (ch : Nat) (v : Word) : State :=
  let busy := s.get HBM_PAGE_CMD_busy ch
  let s1 := s.plain HBM_PAGE_CMD ch 0 0 v
  let p := s1.get HBM_PAGE_CMD_page ch
  let st := s1.get HBM_PAGE_CMD_state ch
  if nbit v.toNat 15 = false then s1
  else if 6144 ≤ p ∨ st = 3 ∨ busy = 1 then s1.put HBM_CTL_reason ch 0x0621
  else (s1.setPage ch p st).put HBM_PAGE_CMD_done ch 1

/-- Checks of a channel (Table 8.10). -/
def hbmChecks (ch : Nat) (s : State) : List (Bool × Nat) :=
  [(s.get HBM_CTL_trained ch == 1 && s.get HBM_CTL_failed ch == 0, 0x0611), (s.get HBM_CTL_scrub_int ch != 0, 0x0631)]

/-- HBM_CTL_EN (R227). -/
def execHbmCtlEn (ch : Chan) (v : Word) (s : State) : Host.Outcome State Fault Refusal :=
  .next (s.enable HBM_CTL_en HBM_CTL_reason ch 0 0 v (hbmChecks ch))

/-- HBM_PAGE_CMD (R210). -/
def execHbmPageCmd (ch : Chan) (v : Word) (s : State) : Host.Outcome State Fault Refusal := .next (s.hbmPageCmd ch v)

/-- HBM_REQUEST_ACCEPT (R207, R208). -/
def execHbmRequestAccept (ch : Chan) (cls : Fin 4) (s : State) : Host.Outcome State Fault Refusal := .next (s.hbmAccept ch cls)

/-- HBM_PATROL (R206). -/
def execHbmPatrol (ch : Chan) (s : State) : Host.Outcome State Fault Refusal := .next (s.hbmPatrol ch)

/-- HBM_PARITY_FAIL (R209). -/
def execHbmParityFail (ch : Chan) (s : State) : Host.Outcome State Fault Refusal := .next (s.hbmParity ch)

end Sys2Proof.Machine
end

