-- ==== Sys2Proof/Machine/Ctl.lean ====
section
/-!
DEFINITION. The control core (chapter "Vector station, control core and companion stations"): instruction fields, loads and
stores, waits, and Aselo's control of the core.
-/
namespace Sys2Proof.Machine

open Sys2Proof

/-! ### Registers of a cluster as a read returns them -/

/-- Value of CTL_DRAW (R171). -/
def State.drawValue (s : State) (c : Nat) : Nat :=
  dither (s.rreg CLU_DITHER_SEED c) (s.get CLU_DITHER_STEP_step c) (s.get CLU_DRAW_CFG_tensor_id c) (s.get CLU_DRAW_CFG_index c)

/-- Is the skein engine idle (Table 3.12). -/
def State.engIdle (s : State) (c : Nat) : Bool :=
  let e := (s.cl c).eng
  e.launch.isEmpty && e.slots.isEmpty && e.heldQ.isEmpty

/-- Value of CTL_SKQ_STAT (Table 3.12). -/
def State.skqStat (s : State) (c : Nat) : Nat :=
  let e := (s.cl c).eng
  let blocked := match e.launch with | [] => false | l :: _ => !(s.headOk c l)
  e.launch.length + e.slots.length * 2 ^ 8 + e.cq.length * 2 ^ 16 + b2n (s.engIdle c) * 2 ^ 22 + b2n blocked * 2 ^ 23 +
    b2n e.stopped * 2 ^ 24 + (Nat.min e.starve (2 ^ 32 - 1)) * 2 ^ 32

/-- Value of MEM_BORROW_STAT (R195). -/
def State.borrowStat (s : State) (c : Nat) : Nat :=
  let v := (List.range 32).filter fun i => s.get CLU_BSLOT_valid c i == 1
  v.length + 256 * (v.filter fun i => s.get CLU_BSLOT_dirty c i == 1).length

/-- Bits of a list of flags, the first lowest. -/
def bitsOf (l : List Bool) : Nat := l.foldr (fun b a => b2n b + 2 * a) 0

/-- The 8 bytes of a register as a read returns them: registers that show the state of an engine are formed from it, and two use
stamps of Table 7.15 share 8 bytes. (Log 8 DEDUCED) -/
def State.cluView (s : State) (r : Reg) (c i j : Nat) : Nat :=
  if r.base = CLU_ID.base then cluX c + cluY c * 2 ^ 8 + cluDie c * 2 ^ 16 + cluCroft c * 2 ^ 20
  else if r.base = CLU_ALIAS_CTL.base then
    (if s.get CLU_ALIAS_CTL_en c = 1 then nput (s.rreg r c) 12 4 (s.ownAlias c) else s.rreg r c)
  else if r.base = CTL_SKQ_STAT.base then s.skqStat c
  else if r.base = CTL_CQ_POP.base then s.cqHead c
  else if r.base = CTL_DRAW.base then s.drawValue c
  else if r.base = MEM_BORROW_STAT.base then s.borrowStat c
  else if r.base = STR_STAT.base then
    bitsOf ((List.range 32).map fun q => (s.q c (32 * i + q)).halted) +
      2 ^ 32 * bitsOf ((List.range 32).map fun q => (s.q c (32 * i + q)).bound.isSome)
  else if r.base = STR_QSTAT.base then
    let q := s.q c (32 * i + j)
    b2n q.bound.isSome + 2 * b2n q.halted + 4 * q.xfers.length + s.get STR_QSTAT_halt_reason c i j * 2 ^ 16 +
      s.tokens c (32 * i + j) / 65536 * 2 ^ 32
  else if r.base = MEM_STAMP.base then s.rreg r c i + s.rreg r c (i + 1) * 2 ^ 32
  else s.rreg r c i j

/-- Bytes of a register read at a physical offset; an offset with no register reads zero (R6). -/
def State.cluRead (s : State) (a size : Nat) : List Byte :=
  match regAt (regSlot a) with
  | some (r, u, i, j) => slice (leBytes 8 (s.cluView r u i j)) (a % 8) size
  | none => leBytes size 0

/-! ### Register writes of a kernel (Table 2.12) -/

/-- Station whose block holds a register, with the field that notes a write lost to a running skein (R120, R164). -/
def Reg.stnOf (r : Reg) (i : Nat) : Option (Nat × (Nat → State → State)) :=
  let o := r.base - regBase
  if o < 0x1800 then none
  else if o < 0x2000 then some (0x14, fun c s => s.put ADP_STAT_wr_lost c 1)
  else if o < 0x4000 then none
  else if o < 0xC000 then some (i, fun c s => s.matLost c i)
  else if o < 0xE000 then
    let stn := 0x10 + (o - 0xC000) / 0x800
    some (stn, fun c s => s.put (stnLost stn) c 1)
  else none

/-- A write to an RW register of a station, lost while a skein holds it; other registers take it plainly. -/
def State.stnWrite (s : State) (r : Reg) (c i j v mask : Nat) : State :=
  match r.stnOf i with
  | some (stn, lost) => if r.rw &&& mask ≠ 0 ∧ s.stnHeld c stn = true then lost c s else s.accessWrite r c i j v mask
  | none => s.accessWrite r c i j v mask

/-- A write to one of the registers of Table 2.12, by a core or by Aselo: value and mask in place within the 8 bytes. -/
def State.kernelWrite (s : State) (r : Reg) (c i j v mask : Nat) : State :=
  let low := nbit mask 0
  if r.base = CTL_SKQ_PUSH.base then (if low then s.skPush c (BitVec.ofNat 64 v) else s)
  else if r.base = CTL_SEM_ADD.base then (if low then s.semAdd c (nfld v 0 4) (nfld v 16 16) else s)
  else if r.base = MAT_CTX_CTL.base then
    (if low && nfld v 0 2 == 1 then s.matSave c i (BitVec.ofNat 64 v)
     else if low && nfld v 0 2 == 2 then s.matRestore c i (BitVec.ofNat 64 v)
     else s.accessWrite r c i j v mask)
  else s.stnWrite r c i j v mask

/-- A core's store to a register. -/
def State.coreRegWrite (s : State) (a size v : Nat) : State :=
  match regAt (regSlot a) with
  | some (r, u, i, j) => s.kernelWrite r u i j (v % 2 ^ (8 * size) * 2 ^ (8 * (a % 8))) (accessMask a size)
  | none => s

/-! ### Instructions (R166) -/

def iOp (w : Nat) : Nat := nfld w 0 6
def iD (w : Nat) : Nat := nfld w 6 5
def iA (w : Nat) : Nat := nfld w 11 5
def iB (w : Nat) : Nat := nfld w 16 5
def iImm (w : Nat) : Nat := nfld w 16 16
def iFunct (w : Nat) : Nat := nfld w 21 5
def iOff (w : Nat) : Nat := nfld w 21 11
def iJump (w : Nat) : Nat := nfld w 11 21

/-- Is an instruction word legal: a defined opcode and funct, and no stray bit in a field that it does not use. (Log 46 DEDUCED) -/
def iLegal (w : Nat) : Bool :=
  let o := iOp w
  if o = 0x01 then decide (iFunct w ≤ 14) && nfld w 26 6 == 0
  else if o = 0x02 ∨ o = 0x04 then true
  else if o = 0x03 then iA w == 0
  else if o = 0x05 ∨ o = 0x06 then nfld w 22 10 == 0
  else if 0x08 ≤ o ∧ o ≤ 0x0F then true
  else if 0x10 ≤ o ∧ o ≤ 0x13 then iD w == 0
  else if o = 0x14 then true
  else if o = 0x15 then iD w == 0 && nfld w 16 16 == 0
  else if o = 0x18 then iD w == 0 && nfld w 20 12 == 0
  else if 0x19 ≤ o ∧ o ≤ 0x1B then nfld w 6 26 == 0
  else false

/-- Registers that an instruction reads. -/
def iUses (w : Nat) : List Nat :=
  let o := iOp w
  if o = 0x01 then [iA w, iB w]
  else if o = 0x03 then []
  else if 0x0C ≤ o ∧ o ≤ 0x0F then [iA w, iD w]
  else if 0x10 ≤ o ∧ o ≤ 0x13 then [iA w, iB w]
  else if o = 0x02 ∨ (0x04 ≤ o ∧ o ≤ 0x0B) ∨ o = 0x15 ∨ o = 0x18 then [iA w]
  else []

/-- Is the core running and waiting for nothing. -/
def State.coreFree (s : State) (c : Nat) : Bool := s.get CLU_CORE_CTL_state c == 1 && (s.cl c).core.wait == .none

/-- Word at the core's pc, when it lies in the instruction store, is aligned and is not marked. -/
def State.fetched (s : State) (c : Nat) : Option Nat :=
  let k := (s.cl c).core
  if k.pc < 0x4000 ∧ k.pc % 4 = 0 ∧ tget false k.marks (k.pc / 16) = false then some (tget 0 k.imem (k.pc / 4)).toNat else none

/-- Is a register still to be written by a load (R167). -/
def State.awaited (s : State) (c r : Nat) : Bool := r != 0 && (s.cl c).core.loads.any fun l => !l.dropped && l.d == r

/-- The instruction that issues now: the core is free, the word is legal, and no register that it reads awaits a load. -/
def State.issue (s : State) (c : Nat) : Option Nat :=
  match s.fetched c with
  | some w => if s.coreFree c && iLegal w && (iUses w).all (fun r => !(s.awaited c r)) then some w else none
  | none => none

/-- Set the pc. -/
def State.setPc (s : State) (c pc : Nat) : State := s.modCore c fun k => { k with pc := pc }

/-- The next instruction in line. -/
def State.nextPc (s : State) (c : Nat) : State := s.setPc c ((s.cl c).core.pc + 4)

/-- An instruction writes a register: a load of it that is still outstanding no longer writes it. -/
def State.setD (s : State) (c d : Nat) (v : Word) : State :=
  (s.modCore c fun k => { k with loads := k.loads.map fun l => if l.d == d then { l with d := 0 } else l }).setG c d v

/-- An alu instruction with the given funct. -/
def State.ctlAlu (s : State) (c funct : Nat) (f : Word → Word → Word) : State :=
  match s.issue c with
  | some w => if iOp w = 1 ∧ iFunct w = funct then (s.setD c (iD w) (f (s.greg c (iA w)) (s.greg c (iB w)))).nextPc c else s
  | none => s

/-- An instruction with an immediate: the result from register a and the 16 bits. -/
def State.ctlImm (s : State) (c op : Nat) (f : Word → Nat → Word) : State :=
  match s.issue c with
  | some w => if iOp w = op then (s.setD c (iD w) (f (s.greg c (iA w)) (iImm w))).nextPc c else s
  | none => s

/-- A branch. -/
def State.ctlBranch (s : State) (c op : Nat) (f : Word → Word → Bool) : State :=
  match s.issue c with
  | some w =>
    if iOp w = op then
      (if f (s.greg c (iA w)) (s.greg c (iB w)) then
        s.setPc c (imod 64 ((((s.cl c).core.pc : Nat) : Int) + 4 * sext 11 (iOff w)))
       else s.nextPc c)
    else s
  | none => s

/-! ### Loads and stores (R167) -/

/-- Address of a load or store. -/
def State.ctlAddr (s : State) (c w : Nat) : Nat := imod 64 (((s.greg c (iA w)).toNat : Int) + sext 16 (iImm w))

/-- Kinds of a core's accesses end as faults of Table 2.11, or as the failure that answered them. (Log 27 DESIGN CHOICE) -/
def State.coreFail (s : State) (c code addr : Nat) : State := if isAddrCode code then s.addrFault c code addr else s.ctxFault c code

/-- Issue a load of a core: a register of the own module and on-chip memory answer at once. (Log 45 DEDUCED) -/
def State.loadIssue (s : State) (c id addr size : Nat) : State :=
  let pg := s.cluPG c
  match s.resolve c .load addr size with
  | .error e => s.addrFault c e addr
  | .ok (.mem a) =>
    if a < onchipTop then
      if s.portOk (a / 0x800000) pg.1 pg.2 then
        ((s.noteRead a size).stamp a size).reply (.load c id) ⟨s.rdMem a size, s.rdPoison a size, 0⟩
      else s.stale (cluCroft (a / 0x800000))
    else s.hbmPut (.load c id) (s.cl c).cls a (.read size) pg.1 pg.2
  | .ok (.reg a) =>
    if size = 8 ∧ (a = CTL_CQ_POP.addr c 0 0 ∨ a = CTL_DRAW.addr c 0 0) then s
    else s.reply (.load c id) ⟨s.cluRead a size, false, 0⟩
  | .ok (.other m off) =>
    let r := s.lokIssue (cluLokDie c) (s.cluSend c (s.cl c).cls 1 m (off - off % 64) 1 0 [] false (.load c id))
    if r.2 = 0 then r.1 else r.1.coreFail c r.2 addr
  | .ok (.host iova) => s.hostAccess ⟨.load c id, pg.1, pg.2, ((s.cl c).pasid).getD 0, iova, .read size⟩
  | .ok (.group _ _) => s

/-- Do two addresses of a core name one 64-byte block, be it through different kinds of address (R32). -/
def State.sameBlock (s : State) (c a b : Nat) : Bool :=
  a / 64 == b / 64 ||
  (match s.resolve c .load (a - a % 64) 8, s.resolve c .load (b - b % 64) 8 with
   | .ok x, .ok y => x == y
   | _, _ => false)

/-- A load instruction: at most 8 outstanding; one of a block with an unacknowledged store of this core waits. (Log 45 DEDUCED) -/
def State.ctlLoad (s : State) (c op size : Nat) : State :=
  match s.issue c with
  | some w =>
    let a := s.ctlAddr c w
    let k := (s.cl c).core
    if iOp w = op ∧ k.loads.length < 8 ∧ (k.stores.any fun t => s.sameBlock c t.addr a) = false then
      let l : Load := ⟨k.nextId, iD w, a, size, false⟩
      let s1 := (s.modCore c fun k =>
        { k with loads := (k.loads.map fun x => if x.d == iD w then { x with d := 0 } else x) ++ [l], nextId := k.nextId + 1 }).nextPc c
      s1.loadIssue c k.nextId a size
    else s
  | none => s

/-- Byte enables of a scalar store within its block. -/
def scalarBe (a size : Nat) : Nat := (2 ^ size - 1) * 2 ^ (a % 64)

/-- A block that holds a scalar's bytes in place. -/
def scalarBlock (a : Nat) (bs : List Byte) : List Byte := patch (List.replicate 64 0) (a % 64) bs

/-- Issue a store of a core. -/
def State.storeIssue (s : State) (c id addr : Nat) (bs : List Byte) : State :=
  let pg := s.cluPG c
  let size := bs.length
  match s.resolve c .store addr size with
  | .error e => s.addrFault c e addr
  | .ok (.mem a) =>
    if a < onchipTop then
      if s.portOk (a / 0x800000) pg.1 pg.2 then (s.wrData a bs).reply (.store c id) ⟨[], false, 0⟩
      else s.stale (cluCroft (a / 0x800000))
    else s.hbmPut (.store c id) (s.cl c).cls (a - a % 64) (.write (scalarBlock a bs) (scalarBe a size) false) pg.1 pg.2
  | .ok (.reg a) => (s.coreRegWrite a size (leNat bs)).reply (.store c id) ⟨[], false, 0⟩
  | .ok (.other m off) =>
    let r := s.lokIssue (cluLokDie c)
      (s.cluSend c (s.cl c).cls 3 m (off - off % 64) 1 (scalarBe off size) [scalarBlock off bs] false (.store c id))
    if r.2 = 0 then r.1 else r.1.coreFail c r.2 addr
  | .ok (.host iova) =>
    s.hostAccess ⟨.store c id, pg.1, pg.2, ((s.cl c).pasid).getD 0, iova, .write bs (2 ^ size - 1) false⟩
  | .ok (.group _ _) => s

/-- A store instruction. -/
def State.ctlStore (s : State) (c op size : Nat) : State :=
  match s.issue c with
  | some w =>
    if iOp w = op then
      let a := s.ctlAddr c w
      let k := (s.cl c).core
      let t : Store := ⟨k.nextId, a⟩
      let s1 := (s.modCore c fun k => { k with stores := k.stores ++ [t], nextId := k.nextId + 1 }).nextPc c
      s1.storeIssue c k.nextId a (leBytes size (s.greg c (iD w)).toNat)
    else s
  | none => s

/-- Reason of a load of poisoned data, by where its address leads (R561, R562, R204, R391). -/
def State.loadPoison (s : State) (c addr : Nat) : Nat :=
  let off := addr % 2 ^ 46
  if nfld addr 62 2 = 2 then 0x0832
  else
    match s.resolve c .load addr 1 with
    | .ok (.mem a) => if a < onchipTop then 0x0541 else 0x0641
    | _ => if region off = 3 then 0x0641 else 0x0541

/-- Data of a load's answer: another module answers with the whole block (R340). -/
def loadData (l : Load) (data : List Byte) : Nat :=
  if l.size < data.length then leAt data (l.addr % 64) l.size else leAt data 0 l.size

/-- Since state `s0`, a core's fault on the answer of an access raised its event: where a message brought the answer, the event
carries its tag (R524). (Log 162 DEDUCED) -/
def State.heardBy (s s0 : State) (w : Who) : State :=
  match ((s0.lokD 0).heard ++ (s0.lokD 1).heard).find? fun p => p.1 == w with
  | none => s
  | some p =>
    let drop := fun (s : State) d => s.modLok d fun x => { x with heard := x.heard.filter fun q => q.1 != w }
    (drop (drop s 0) 1).tagNew s0.evr.raised.length p.2

/-- CTL_LOAD_RETURN. (Log 27 DESIGN CHOICE) -/
def State.loadReturn (s : State) (c id : Nat) : State :=
  match (s.cl c).core.loads.find? fun l => l.id == id, s.replyOf (.load c id) with
  | some l, some r =>
    let s1 := (s.take (.load c id)).modCore c fun k => { k with loads := lrem (fun x => x.id == id) k.loads }
    if l.dropped then s1.heardBy s (.load c id)
    else if r.reason ≠ 0 then (s1.coreFail c r.reason l.addr).heardBy s (.load c id)
    else if r.poison then s1.ctxFault c (s.loadPoison c l.addr)
    else s1.setG c l.d (BitVec.ofNat 64 (loadData l r.data))
  | _, _ => s

/-- CTL_STORE_ACK. -/
def State.storeAck (s : State) (c id : Nat) : State :=
  match (s.cl c).core.stores.find? fun t => t.id == id, s.replyOf (.store c id) with
  | some t, some r =>
    let s1 := (s.take (.store c id)).modCore c fun k => { k with stores := lrem (fun x => x.id == id) k.stores }
    if r.reason ≠ 0 then (s1.coreFail c r.reason t.addr).heardBy s (.store c id) else s1
  | _, _ => s

/-! ### Waits (R167 to R169) -/

/-- Enter a wait: its state, and what is waited for. -/
def State.coreWait (s : State) (c state : Nat) (w : CoreWait) : State :=
  (s.put CLU_CORE_CTL_state c state).modCore c fun k => { k with wait := w }

/-- Leave a wait, with the next instruction in line. -/
def State.coreResume (s : State) (c : Nat) : State := (s.coreWait c 1 .none).nextPc c

/-- CTL_WSEM (R168): n = 0 retires at once. -/
def State.wsem (s : State) (c : Nat) : State :=
  match s.issue c with
  | some w =>
    if iOp w = 0x18 then
      let n := (s.greg c (iA w)).toNat % 65536
      if n = 0 then s.nextPc c else s.coreWait c 2 (.wsem (nfld w 16 4) n)
    else s
  | none => s

/-- CTL_WSEM_RETIRE. -/
def State.wsemRetire (s : State) (c : Nat) : State :=
  match (s.cl c).core.wait with
  | .wsem sem n =>
    let v := s.get CTL_SEM_value c sem
    if n ≤ v then (s.put CTL_SEM_value c (v - n) sem).coreResume c else s
  | _ => s

/-- An instruction that only starts a wait. -/
def State.waitInstr (s : State) (c op : Nat) (w : CoreWait) : State :=
  match s.issue c with
  | some i => if iOp i = op then s.coreWait c 3 w else s
  | none => s

/-- CTL_FENCE_RETIRE. -/
def State.fenceRetire (s : State) (c : Nat) : State :=
  if (s.cl c).core.wait = .fence ∧ (s.cl c).core.stores.isEmpty = true then s.coreResume c else s

/-- Offset of a cluster's save area. -/
def State.saveArea (s : State) (c : Nat) : Nat := c * 0x800000 + s.get CLU_CORE_SAVE_addr c * 64

/-- Bytes of the save area (R169): the pc of the next instruction, then g1 to g31. -/
def State.saveImage (s : State) (c : Nat) : List Byte :=
  leBytes 8 ((s.cl c).core.pc + 4) ++ (List.range 31).flatMap fun i => leBytes 8 (s.greg c (i + 1)).toNat

/-- CTL_KEND_RETIRE (R169). (Log 177 DESIGN CHOICE) -/
def State.kendRetire (s : State) (c : Nat) : State :=
  let k := (s.cl c).core
  if k.wait = .kend ∧ k.stores.isEmpty = true ∧ s.engIdle c = true then
    let s1 := s.wrapUp CTL_KSTAT_kernels c
    if s.get CLU_CORE_CTL_yield_req c = 1 then (s1.wrData (s.saveArea c) (s.saveImage c)).coreWait c 3 .saving
    else s1.coreResume c
  else s

/-- CTL_YIELD_SAVED (R169). -/
def State.yieldSaved (s : State) (c : Nat) : State := if (s.cl c).core.wait = .saving then s.coreWait c 4 .none else s

/-- CTL_ILLEGAL (R166, R561): what ends the context at the pc. -/
def State.illegal (s : State) (c : Nat) : State :=
  let k := (s.cl c).core
  if s.coreFree c = false then s
  else if 0x4000 ≤ k.pc ∨ k.pc % 4 ≠ 0 then s.ctxFault c 0x04E2
  else if tget false k.marks (k.pc / 16) then s.ctxFault c 0x0541
  else if iLegal (tget 0 k.imem (k.pc / 4)).toNat then s
  else s.ctxFault c 0x04E1

/-! ### Aselo's control of the core (R169, R170) -/

/-- Does the core run, be it in a wait. -/
def State.coreActive (s : State) (c : Nat) : Bool :=
  let t := s.get CLU_CORE_CTL_state c
  t == 1 || t == 2 || t == 3

/-- CLU_CORE_CTL with run = 1 and restore = 0: a core that does not run starts afresh. (Log 44 DEDUCED, 178 DESIGN CHOICE) -/
def State.coreRun (s : State) (c : Nat) (v : Word) : State :=
  let act := s.coreActive c
  let pc := s.get CLU_CORE_PC_pc c * 4
  let s1 := s.plain CLU_CORE_CTL c 0 0 v
  if act then s1
  else
    ((s1.put CLU_CORE_CTL_run c 1).modCl c fun x =>
      { x with faulted := 0, core := { x.core with pc := pc, wait := .none } }).put CLU_CORE_CTL_state c 1 |>.put CTL_KSTAT_kernels c 0

/-- CLU_CORE_CTL with run = 1 and restore = 1: the save area is read back (R169, R561). (Log 47 DEDUCED) -/
def State.coreRestore (s : State) (c : Nat) (v : Word) : State :=
  let act := s.coreActive c
  let a := s.saveArea c
  let i := s.rdMem a 256
  let s1 := s.plain CLU_CORE_CTL c 0 0 v
  if act then s1
  else
    let s2 := ((s1.modCl c fun x => { x with faulted := 0 }).noteRead a 256).stamp a 256
    let pc := leAt i 0 8
    if s.rdPoison a 256 then s2.ctxFault c 0x0541
    else if 0x4000 ≤ pc then (s.plainBut CLU_CORE_CTL_run c 0 0 v).put CLU_CORE_CTL_reason c 0x04E4
    else
      let g := (List.range 31).foldl (fun t r => tset 0 t (r + 1) (BitVec.ofNat 64 (leAt i (8 * (r + 1)) 8))) []
      ((s2.put CLU_CORE_CTL_run c 1).modCore c fun k => { k with pc := pc, g := g, wait := .none }).put CLU_CORE_CTL_state c 1

/-- CLU_CORE_CTL with run = 0 (R170). -/
def State.coreStop (s : State) (c : Nat) (v : Word) : State :=
  let s1 := (s.plain CLU_CORE_CTL c 0 0 v).put CLU_CORE_CTL_run c 0
  let t := s.get CLU_CORE_CTL_state c
  let s2 := s1.modCore c fun k => { k with wait := .none, loads := k.loads.map fun l => { l with dropped := true } }
  if t = 5 ∨ t = 6 then s2 else s2.put CLU_CORE_CTL_state c 0

/-- Checks of an instruction copy (R170). -/
def State.imemOk (s : State) (c : Nat) (v : Word) : Bool :=
  let src := nfld v.toNat 6 15
  let len := nfld v.toNat 21 9
  s.get CLU_CORE_CTL_run c == 0 && !(s.cl c).core.copying && decide (1 ≤ len) && decide (len ≤ 256) && decide ((src + len) * 64 ≤ 0x200000)

/-- CLU_IMEM_LOAD (R170, R561): the words are read with the command; done sets at the end of the copy. -/
def State.imemLoad (s : State) (c : Nat) (v : Word) : State :=
  let s0 := s.plain CLU_IMEM_LOAD c 0 0 v
  if nbit v.toNat 30 = false then s0
  else if s.imemOk c v = false then s0.put CLU_CORE_CTL_reason c 0x04E3
  else
    let a := c * 0x800000 + nfld v.toNat 6 15 * 64
    let n := nfld v.toNat 21 9 * 64
    let bytes := s.rdMem a n
    let imem := (List.range (n / 4)).foldl (fun t i => tset 0 t i (BitVec.ofNat 64 (leAt bytes (4 * i) 4))) (s.cl c).core.imem
    let marks := (List.range (n / 16)).foldl (fun t i => tset false t i (s.rdPoison (a + 16 * i) 16)) (s.cl c).core.marks
    (((s0.noteRead a n).stamp a n).put CLU_IMEM_LOAD_done c 0).modCore c fun k => { k with imem := imem, marks := marks, copying := true }

/-- IMEM_LOAD_DONE. -/
def State.imemDone (s : State) (c : Nat) : State :=
  if (s.cl c).core.copying then (s.put CLU_IMEM_LOAD_done c 1).modCore c fun k => { k with copying := false } else s

/-- CTL_DRAW (R171): the oldest outstanding 8-byte load of the register takes the draw, and the index moves on. (Log 48 DEDUCED) -/
def State.ctlDraw (s : State) (c : Nat) : State :=
  let isDraw := fun (l : Load) => l.size == 8 &&
    (match s.resolve c .load l.addr 8 with | .ok (.reg a) => a == CTL_DRAW.addr c 0 0 | _ => false)
  match (s.cl c).core.loads.find? isDraw with
  | none => s
  | some l =>
    let s1 := s.modCore c fun k => { k with loads := lrem (fun x => x.id == l.id) k.loads }
    let s2 := if l.dropped then s1 else s1.setG c l.d (BitVec.ofNat 64 (s.drawValue c))
    s2.wrapUp CLU_DRAW_CFG_index c

/-- A write to CLU_CORE_CTL with its effects (R169, R170). (Log 10 DEDUCED) -/
def State.coreCtlWrite (s : State) (c : Nat) (v : Word) : State :=
  if nbit v.toNat 0 then (if nbit v.toNat 2 then s.coreRestore c v else s.coreRun c v) else s.coreStop c v

/-! ### The commands -/

/-- CTL_ADD (R166, Table 6.13 funct 0). -/
def execCtlAdd (c : Clu) (s : State) : Host.Outcome State Fault Refusal := .next (s.ctlAlu c 0 fun a b => a + b)

/-- CTL_SUB (R166, Table 6.13 funct 1). -/
def execCtlSub (c : Clu) (s : State) : Host.Outcome State Fault Refusal := .next (s.ctlAlu c 1 fun a b => a - b)

/-- CTL_AND (R166, Table 6.13 funct 2). -/
def execCtlAnd (c : Clu) (s : State) : Host.Outcome State Fault Refusal := .next (s.ctlAlu c 2 fun a b => a &&& b)

/-- CTL_OR (R166, Table 6.13 funct 3). -/
def execCtlOr (c : Clu) (s : State) : Host.Outcome State Fault Refusal := .next (s.ctlAlu c 3 fun a b => a ||| b)

/-- CTL_XOR (R166, Table 6.13 funct 4). -/
def execCtlXor (c : Clu) (s : State) : Host.Outcome State Fault Refusal := .next (s.ctlAlu c 4 fun a b => a ^^^ b)

/-- CTL_SHL (R166, Table 6.13 funct 5). -/
def execCtlShl (c : Clu) (s : State) : Host.Outcome State Fault Refusal := .next (s.ctlAlu c 5 fun a b => a <<< (b.toNat % 64))

/-- CTL_SHR (R166, Table 6.13 funct 6). -/
def execCtlShr (c : Clu) (s : State) : Host.Outcome State Fault Refusal := .next (s.ctlAlu c 6 fun a b => a >>> (b.toNat % 64))

/-- CTL_SAR (R166, Table 6.13 funct 7). -/
def execCtlSar (c : Clu) (s : State) : Host.Outcome State Fault Refusal := .next (s.ctlAlu c 7 fun a b => a.sshiftRight (b.toNat % 64))

/-- CTL_MUL (R166, Table 6.13 funct 8). -/
def execCtlMul (c : Clu) (s : State) : Host.Outcome State Fault Refusal := .next (s.ctlAlu c 8 fun a b => a * b)

/-- CTL_SLT (R166, Table 6.13 funct 9). -/
def execCtlSlt (c : Clu) (s : State) : Host.Outcome State Fault Refusal := .next (s.ctlAlu c 9 fun a b => if a.slt b then 1 else 0)

/-- CTL_SLTU (R166, Table 6.13 funct 10). -/
def execCtlSltu (c : Clu) (s : State) : Host.Outcome State Fault Refusal := .next (s.ctlAlu c 10 fun a b => if a.ult b then 1 else 0)

/-- CTL_MIN (R166, Table 6.13 funct 11). -/
def execCtlMin (c : Clu) (s : State) : Host.Outcome State Fault Refusal := .next (s.ctlAlu c 11 fun a b => if a.slt b then a else b)

/-- CTL_MAX (R166, Table 6.13 funct 12). -/
def execCtlMax (c : Clu) (s : State) : Host.Outcome State Fault Refusal := .next (s.ctlAlu c 12 fun a b => if a.slt b then b else a)

/-- CTL_MINU (R166, Table 6.13 funct 13). -/
def execCtlMinu (c : Clu) (s : State) : Host.Outcome State Fault Refusal := .next (s.ctlAlu c 13 fun a b => if a.ult b then a else b)

/-- CTL_MAXU (R166, Table 6.13 funct 14). -/
def execCtlMaxu (c : Clu) (s : State) : Host.Outcome State Fault Refusal := .next (s.ctlAlu c 14 fun a b => if a.ult b then b else a)

/-- CTL_ADDI (R166). -/
def execCtlAddi (c : Clu) (s : State) : Host.Outcome State Fault Refusal := .next (s.ctlImm c 0x02 fun a i => a + BitVec.ofInt 64 (sext 16 i))

/-- CTL_LUI (R166). -/
def execCtlLui (c : Clu) (s : State) : Host.Outcome State Fault Refusal := .next (s.ctlImm c 0x03 fun _ i => BitVec.ofInt 64 (sext 16 i * 65536))

/-- CTL_ORI (R166). -/
def execCtlOri (c : Clu) (s : State) : Host.Outcome State Fault Refusal := .next (s.ctlImm c 0x04 fun a i => a ||| BitVec.ofNat 64 i)

/-- CTL_SHLI (R166). -/
def execCtlShli (c : Clu) (s : State) : Host.Outcome State Fault Refusal := .next (s.ctlImm c 0x05 fun a i => a <<< (i % 64))

/-- CTL_SHRI (R166). -/
def execCtlShri (c : Clu) (s : State) : Host.Outcome State Fault Refusal := .next (s.ctlImm c 0x06 fun a i => a >>> (i % 64))

/-- CTL_LOAD1 (R167). -/
def execCtlLoad1 (c : Clu) (s : State) : Host.Outcome State Fault Refusal := .next (s.ctlLoad c 8 1)

/-- CTL_LOAD2 (R167). -/
def execCtlLoad2 (c : Clu) (s : State) : Host.Outcome State Fault Refusal := .next (s.ctlLoad c 9 2)

/-- CTL_LOAD4 (R167). -/
def execCtlLoad4 (c : Clu) (s : State) : Host.Outcome State Fault Refusal := .next (s.ctlLoad c 10 4)

/-- CTL_LOAD8 (R167). -/
def execCtlLoad8 (c : Clu) (s : State) : Host.Outcome State Fault Refusal := .next (s.ctlLoad c 11 8)

/-- CTL_STORE1 (R167). -/
def execCtlStore1 (c : Clu) (s : State) : Host.Outcome State Fault Refusal := .next (s.ctlStore c 12 1)

/-- CTL_STORE2 (R167). -/
def execCtlStore2 (c : Clu) (s : State) : Host.Outcome State Fault Refusal := .next (s.ctlStore c 13 2)

/-- CTL_STORE4 (R167). -/
def execCtlStore4 (c : Clu) (s : State) : Host.Outcome State Fault Refusal := .next (s.ctlStore c 14 4)

/-- CTL_STORE8 (R167). -/
def execCtlStore8 (c : Clu) (s : State) : Host.Outcome State Fault Refusal := .next (s.ctlStore c 15 8)

/-- CTL_LOAD_RETURN (R167, R561, R562). -/
def execCtlLoadReturn (c : Clu) (id : Nat) (s : State) : Host.Outcome State Fault Refusal := .next (s.loadReturn c id)

/-- CTL_STORE_ACK (R167). -/
def execCtlStoreAck (c : Clu) (id : Nat) (s : State) : Host.Outcome State Fault Refusal := .next (s.storeAck c id)

/-- CTL_BEQ (R166). -/
def execCtlBeq (c : Clu) (s : State) : Host.Outcome State Fault Refusal := .next (s.ctlBranch c 0x10 fun a b => a == b)

/-- CTL_BNE (R166). -/
def execCtlBne (c : Clu) (s : State) : Host.Outcome State Fault Refusal := .next (s.ctlBranch c 0x11 fun a b => a != b)

/-- CTL_BLT (R166). -/
def execCtlBlt (c : Clu) (s : State) : Host.Outcome State Fault Refusal := .next (s.ctlBranch c 0x12 fun a b => a.slt b)

/-- CTL_BLTU (R166). -/
def execCtlBltu (c : Clu) (s : State) : Host.Outcome State Fault Refusal := .next (s.ctlBranch c 0x13 fun a b => a.ult b)

/-- CTL_JAL (R166). -/
def execCtlJal (c : Clu) (s : State) : Host.Outcome State Fault Refusal :=
  match s.issue c with
  | some w =>
    let pc := (s.cl c).core.pc
    .next (if iOp w = 0x14 then
      (s.setD c (iD w) (BitVec.ofNat 64 (pc + 4))).setPc c (imod 64 ((pc : Int) + 4 * sext 21 (iJump w))) else s)
  | none => .next s

/-- CTL_JR (R166). -/
def execCtlJr (c : Clu) (s : State) : Host.Outcome State Fault Refusal :=
  match s.issue c with
  | some w => .next (if iOp w = 0x15 then s.setPc c (s.greg c (iA w)).toNat else s)
  | none => .next s

/-- CTL_WSEM (R168). -/
def execCtlWsem (c : Clu) (s : State) : Host.Outcome State Fault Refusal := .next (s.wsem c)

/-- CTL_WSEM_RETIRE (R168). -/
def execCtlWsemRetire (c : Clu) (s : State) : Host.Outcome State Fault Refusal := .next (s.wsemRetire c)

/-- CTL_FENCE (R167). -/
def execCtlFence (c : Clu) (s : State) : Host.Outcome State Fault Refusal := .next (s.waitInstr c 0x19 .fence)

/-- CTL_FENCE_RETIRE (R167). -/
def execCtlFenceRetire (c : Clu) (s : State) : Host.Outcome State Fault Refusal := .next (s.fenceRetire c)

/-- CTL_KEND (R169). -/
def execCtlKend (c : Clu) (s : State) : Host.Outcome State Fault Refusal := .next (s.waitInstr c 0x1A .kend)

/-- CTL_KEND_RETIRE (R169). -/
def execCtlKendRetire (c : Clu) (s : State) : Host.Outcome State Fault Refusal := .next (s.kendRetire c)

/-- CTL_YIELD_SAVED (R169). -/
def execCtlYieldSaved (c : Clu) (s : State) : Host.Outcome State Fault Refusal := .next (s.yieldSaved c)

/-- CTL_HALT (R166). -/
def execCtlHalt (c : Clu) (s : State) : Host.Outcome State Fault Refusal :=
  match s.issue c with
  | some w => .next (if iOp w = 0x1B then s.put CLU_CORE_CTL_state c 5 else s)
  | none => .next s

/-- CTL_ILLEGAL (R166, R561). -/
def execCtlIllegal (c : Clu) (s : State) : Host.Outcome State Fault Refusal := .next (s.illegal c)

/-- CLU_CORE_RUN (R169, R170). -/
def execCluCoreRun (c : Clu) (v : Word) (s : State) : Host.Outcome State Fault Refusal := .next (s.coreRun c v)

/-- CLU_CORE_RESUME (R169). -/
def execCluCoreResume (c : Clu) (v : Word) (s : State) : Host.Outcome State Fault Refusal := .next (s.coreRestore c v)

/-- CLU_CORE_STOP (R170). -/
def execCluCoreStop (c : Clu) (v : Word) (s : State) : Host.Outcome State Fault Refusal := .next (s.coreStop c v)

/-- CLU_CORE_YIELD_REQ (R169). -/
def execCluCoreYieldReq (c : Clu) (v : Word) (s : State) : Host.Outcome State Fault Refusal :=
  .next ((s.plainBut CLU_CORE_CTL_run c 0 0 v).put CLU_CORE_CTL_yield_req c 1)

/-- CLU_IMEM_LOAD (R170). -/
def execCluImemLoad (c : Clu) (v : Word) (s : State) : Host.Outcome State Fault Refusal := .next (s.imemLoad c v)

/-- IMEM_LOAD_DONE (R170). -/
def execImemLoadDone (c : Clu) (s : State) : Host.Outcome State Fault Refusal := .next (s.imemDone c)

/-- CTL_DRAW (R171). -/
def execCtlDraw (c : Clu) (s : State) : Host.Outcome State Fault Refusal := .next (s.ctlDraw c)

end Sys2Proof.Machine
end

