-- ==== Sys2Proof/Machine/OnChip.lean ====
section
/-!
DEFINITION. The services of the on-chip memory (chapter "Common and Hayloft: on-chip memory"): scrubbing, bulk clear, borrowing,
return and refill; and the cluster's alias enable (chapter "One address space from cluster to hall").
-/
namespace Sys2Proof.Machine

open Sys2Proof

/-! ### Aliases (R44) -/

/-- Do numbers strictly rise. -/
def risesB : List Nat → Bool
  | a :: b :: t => decide (a < b) && risesB (b :: t)
  | _ => true

/-- Checks of Table 2.9. -/
def aliasChecks (c : Nat) (s : State) : List (Bool × Nat) :=
  let m := s.get CLU_ALIAS_CTL_croft_count c
  let croft := fun j => nfld (s.rreg CLU_ALIAS_MAP c) (4 * j) 4
  let used := (List.range (Nat.min m 16)).map croft
  [ (decide (1 ≤ m) && decide (m ≤ 16), 0x0A21), (risesB used, 0x0A22), (used.contains (cluCroft c), 0x0A23),
    ((List.range 16).all fun j => decide (j < m) || croft j == 0, 0x0A24) ]

/-- CLU_ALIAS_CTL with en = 1. -/
def State.aliasEnable (s : State) (c : Nat) (v : Word) : State := s.enable CLU_ALIAS_CTL_en CLU_ALIAS_CTL_reason c 0 0 v (aliasChecks c)

/-! ### Scrubbing (R184) -/

/-- Mapped 64-byte blocks of a window. -/
def scrubBlocks : Nat := 122880

/-- Checks of the scrubber. -/
def scrubChecks (c : Nat) (s : State) : List (Bool × Nat) := [(s.get CLU_SCRUB_interval c != 0, 0x0519)]

/-- CLU_SCRUB.clr_cnt (R198). -/
def State.scrubClear (s : State) (c : Nat) : State := (s.wreg MEM_ECC_CNT c 0 0 0).wreg MEM_ECC_ADDR c 0 0 0

/-- The write-backs that wait are made. (Log 22 DEDUCED) -/
def State.scrubFlush (s : State) (c : Nat) : State :=
  let ws := (s.cl c).writeback
  (ws.foldl State.writeBack s).modCl c fun x => { x with writeback := [] }

/-- SCRUB_INTERVAL: the write-backs that wait are made, the next block is read, and its corrected and uncorrectable words wait to
be written back. (Log 22 DEDUCED, 29 DEDUCED) -/
def State.scrub (s : State) (c : Nat) : State :=
  if s.get CLU_SCRUB_en c = 0 then s
  else
    let s0 := s.scrubFlush c
    let b := s0.get MEM_SCRUB_STAT_position c
    let a := c * 0x800000 + 64 * b
    let ws := [a, a + 16, a + 32, a + 48]
    let back := ws.filter fun w => match s0.wclass w with | .corrected _ _ => true | .uncorrectable => true | _ => false
    let s1 := (ws.foldl State.noteWord s0).modCl c fun x => { x with writeback := back }
    let s2 := s1.put MEM_SCRUB_STAT_position c ((b + 1) % scrubBlocks)
    if b + 1 = scrubBlocks then s2.wrapUp MEM_SCRUB_STAT_passes c else s2

/-! ### Clear (R185) -/

/-- CLU_CLEAR with go = 1. -/
def State.clear (s : State) (c : Nat) (v : Word) : State :=
  let s1 := s.plain CLU_CLEAR c 0 0 v
  let first := nfld v.toNat 0 7
  let count := nfld v.toNat 8 7
  if count = 0 ∨ 120 < first + count ∨ s.get CLU_CLEAR_busy c = 1 then s1.put CLU_CLEAR_reason c 0x0521
  else (s1.put CLU_CLEAR_busy c 1).modCl c fun x => { x with clr := some (first, count), lateWr := [] }

/-- CLEAR_DONE: every word of the range holds zero, but that a word written meanwhile may keep what was written. (Log 20 DESIGN CHOICE) -/
def State.clearDone (s : State) (c : Nat) : State :=
  match (s.cl c).clr with
  | none => s
  | some (first, count) =>
    let lo := c * 0x800000 + first * 0x10000
    let hi := lo + count * 0x10000
    let late := (s.cl c).lateWr
    let kept := fun w => late.contains w && !(Config.clearSeen w s.opens)
    let out := fun a => decide (a < lo) || decide (hi ≤ a) || kept (a - a % 16)
    (({ s.dirtyLines lo (hi - lo) with mem := s.mem.filter (fun p => out p.1), ecc := s.ecc.filter (fun p => out p.1), opens := s.opens + 1 }).modCl c
      fun x => { x with clr := none, lateWr := [], writeback := x.writeback.filter out }).put CLU_CLEAR_busy c 0 |>.put CLU_CLEAR_done c 1

/-! ### Borrowing (R193 to R197) -/

/-- Valid slots of a cluster. -/
def State.validSlots (s : State) (c : Nat) : List Nat := (List.range 32).filter fun i => s.get CLU_BSLOT_valid c i == 1

/-- Checks of borrowing (Table 7.16). (Log 25 DEDUCED) -/
def borrowChecks (c : Nat) (s : State) : List (Bool × Nat) :=
  let n := s.get CLU_BORROW_CFG_ret_lines c
  let base := s.get CLU_SPILL_BASE_base c * 0x4000
  let top := base + n * 0x4000 - 1
  let lines := (s.validSlots c).map fun i => s.get CLU_BSLOT_line c i
  [ (decide (1 ≤ n) && decide (n ≤ 32), 0x0511),
    (isHbm base && isHbm top && hbmCroft base == hbmCroft top && (s.aliasCrofts c).contains (hbmCroft base), 0x0512),
    (lines.all fun l => decide (l < 480), 0x0513), (decide (lines.length ≤ n) && nodupB lines, 0x0514) ]

/-- Would the cluster ignore a write to a borrow slot, while borrowing is enabled (R194). -/
def State.bslotBad (s : State) (c i v mask : Nat) : Bool :=
  let s1 := s.accessWrite CLU_BSLOT c i 0 v mask
  let lines := (s1.validSlots c).map fun j => s1.get CLU_BSLOT_line c j
  s.get CLU_BORROW_CFG_en c == 1 && (decide (480 ≤ s1.get CLU_BSLOT_line c i) ||
    (s1.get CLU_BSLOT_valid c i == 1 && (decide (s.get CLU_BORROW_CFG_ret_lines c < lines.length) || !(nodupB lines))))

/-- Does a write newly mark a slot, or mark it on another line. -/
def State.bslotMarks (s : State) (c i v mask : Nat) : Bool :=
  let s1 := s.accessWrite CLU_BSLOT c i 0 v mask
  s1.get CLU_BSLOT_valid c i == 1 && !(s.get CLU_BSLOT_valid c i == 1 && s.get CLU_BSLOT_line c i == s1.get CLU_BSLOT_line c i)

/-- What a cluster does with a write to a borrow slot (R194); `mask` names its bytes. A slot newly marked, or marked on another line,
is clean. -/
def State.bslotTake (s : State) (c i v mask : Nat) : State :=
  let s1 := s.accessWrite CLU_BSLOT c i 0 v mask
  if s.bslotBad c i v mask then s.put CLU_BORROW_CFG_reason c 0x0515
  else if s.get CLU_BSLOT_valid c i = s1.get CLU_BSLOT_valid c i ∧ s.get CLU_BSLOT_line c i = s1.get CLU_BSLOT_line c i then s1
  else s1.put CLU_BSLOT_dirty c 0 i

/-- Spill area of a slot. -/
def State.spillAddr (s : State) (c i : Nat) : Nat := s.get CLU_SPILL_BASE_base c * 0x4000 + i * 0x4000

/-- The spill of a dirty slot's line for return number `no`: 256 blocks are read and sent to HBM3. (Log 26 DEDUCED) -/
def State.spillSlot (s : State) (c no i : Nat) : State :=
  let a := c * 0x800000 + s.get CLU_BSLOT_line c i * 0x4000
  (List.range 256).foldl (fun (s : State) b =>
    (s.noteRead (a + 64 * b) 64).hbmPut (.spill c no i b) 3 (s.spillAddr c i + 64 * b)
      (.write (s.rdMem (a + 64 * b) 64) (2 ^ 64 - 1) (s.rdPoison (a + 64 * b) 64)) (s.cluPart c).1 (s.cluPart c).2) s

/-- A return or refill starts: `left` are its slots with their blocks. -/
def State.retStart (s : State) (c : Nat) (refill : Bool) (left : List (Nat × Nat)) : State :=
  let s1 : State := { s with opens := s.opens + 1 }
  (s1.put CLU_RETURN_busy c 1).modCl c fun x => { x with ret := some ⟨s.opens, refill, left, false⟩ }

/-- CLU_RETURN with cmd = 0b01. -/
def State.returnCmd (s : State) (c : Nat) (v : Word) : State :=
  let s1 := s.plain CLU_RETURN c 0 0 v
  if s.get CLU_BORROW_CFG_en c = 0 ∨ s.get CLU_RETURN_busy c = 1 then s1.put CLU_RETURN_reason c 0x0516
  else
    let all := s1.validSlots c
    let dirty := all.filter fun i => s1.get CLU_BSLOT_dirty c i == 1
    let s2 := all.foldl (fun (s : State) i => if s.get CLU_BSLOT_dirty c i = 0 then s.put CLU_BSLOT_valid c 0 i else s) s1
    dirty.foldl (fun (t : State) i => t.spillSlot c s.opens i) (s2.retStart c false (dirty.map fun i => (i, 256)))

/-- CLU_RETURN with cmd = 0b10. -/
def State.refillCmd (s : State) (c : Nat) (v : Word) : State :=
  let s1 := s.plain CLU_RETURN c 0 0 v
  let i := nfld v.toNat 2 5
  if s.get CLU_BORROW_CFG_en c = 0 ∨ s.get CLU_RETURN_busy c = 1 ∨ s.get CLU_BSLOT_valid c i = 0 then
    s1.put CLU_RETURN_reason c 0x0516
  else
    (List.range 256).foldl (fun (t : State) b =>
      t.hbmPut (.spill c s.opens i b) 3 (t.spillAddr c i + 64 * b) (.read 64) (t.cluPart c).1 (t.cluPart c).2) (s1.retStart c true [(i, 256)])

/-- RETURN_DONE and REFILL_DONE: the last block has been answered, and after a return no valid slot remains. -/
def State.returnEnd (s : State) (c : Nat) (refill : Bool) : State :=
  match (s.cl c).ret with
  | none => s
  | some x =>
    if x.refill = refill ∧ x.halted = false ∧ (x.left.all fun p => p.2 == 0) = true ∧ (refill || (s.validSlots c).isEmpty) = true then
      let s1 := ((s.put CLU_RETURN_busy c 0).put CLU_RETURN_done c 1).modCl c fun y => { y with ret := none }
      if refill then x.left.foldl (fun (s : State) p => s.put CLU_BSLOT_dirty c 0 p.1) s1 else s1
    else s

/-! ### The commands -/

/-- CLU_ALIAS_CTL_EN (R44). -/
def execCluAliasCtlEn (c : Clu) (v : Word) (s : State) : Host.Outcome State Fault Refusal := .next (s.aliasEnable c v)

/-- CLU_SCRUB_EN (R199); a write that also carries clr_cnt zeroes the counts (R198). -/
def execCluScrubEn (c : Clu) (v : Word) (s : State) : Host.Outcome State Fault Refusal :=
  let s1 := s.enable CLU_SCRUB_en CLU_SCRUB_reason c 0 0 v (scrubChecks c)
  .next (if nbit v.toNat 1 then s1.scrubClear c else s1)

/-- CLU_SCRUB_CLR_CNT (R198): the counts are zeroed; the write's other fields apply, and en stays as it stands. -/
def execCluScrubClrCnt (c : Clu) (v : Word) (s : State) : Host.Outcome State Fault Refusal :=
  .next ((s.plainBut CLU_SCRUB_en c 0 0 v).scrubClear c)

/-- SCRUB_INTERVAL (R184). -/
def execScrubInterval (c : Clu) (s : State) : Host.Outcome State Fault Refusal := .next (s.scrub c)

/-- CLU_CLEAR (R185). -/
def execCluClear (c : Clu) (v : Word) (s : State) : Host.Outcome State Fault Refusal := .next (s.clear c v)

/-- CLEAR_DONE (R185). -/
def execClearDone (c : Clu) (s : State) : Host.Outcome State Fault Refusal := .next (s.clearDone c)

/-- CLU_BORROW_EN (R199). -/
def execCluBorrowEn (c : Clu) (v : Word) (s : State) : Host.Outcome State Fault Refusal :=
  .next (s.enable CLU_BORROW_CFG_en CLU_BORROW_CFG_reason c 0 0 v (borrowChecks c))

/-- CLU_RETURN (R196). -/
def execCluReturn (c : Clu) (v : Word) (s : State) : Host.Outcome State Fault Refusal := .next (s.returnCmd c v)

/-- CLU_REFILL (R196). -/
def execCluRefill (c : Clu) (v : Word) (s : State) : Host.Outcome State Fault Refusal := .next (s.refillCmd c v)

/-- RETURN_DONE (R196). -/
def execReturnDone (c : Clu) (s : State) : Host.Outcome State Fault Refusal := .next (s.returnEnd c false)

/-- REFILL_DONE (R196). -/
def execRefillDone (c : Clu) (s : State) : Host.Outcome State Fault Refusal := .next (s.returnEnd c true)

end Sys2Proof.Machine
end

