-- ==== Sys2Proof/Machine/LinkLayer.lean ====
section
/-!
DEFINITION. The link layer of Lokel (chapter "The Lokel fabric: links, transport and ordering"): enables, training, replay,
control flits, the flits that arrive, and routing tables.
-/
namespace Sys2Proof.Machine

open Sys2Proof

/-! ### Training (R323, R328) -/

/-- Digest of the 64 reservation entries (R323), as their 8-byte registers in order. (Log 106 DEDUCED) -/
def State.rsvDigest (s : State) (l : Nat) : List Byte := Config.sha512 ((List.range 64).flatMap fun i => leBytes 8 (s.rreg LNK_RSV l i))

/-- Checks 1 to 5 of Table 12.23. -/
def linkChecks (l : Nat) (s : State) : List (Bool × Nat) :=
  let d := dieLink (linkDie l)
  let us := s.get LNK_CTL_retrain_us l
  let slots := (List.range 128).map fun i => (i, s.slotOwner l i)
  let rsvs := (List.range 64).filter fun i => s.get LNK_RSV_valid l i == 1
  let keys := (rsvs.filter (· != 0)).map fun i => s.get LNK_RSV_span l i * 4 + s.get LNK_RSV_class l i
  [ (us != 0 && decide (us < s.get LNK_TIMEOUT_txn_us d), 0x0711),
    ((slots.all fun p => (p.2 == 0xFE) == (p.1 == 0 || p.1 == 64)) && s.slotOwner l 1 == 0, 0x0712),
    (slots.all (fun p => p.1 == 0 || p.1 == 1 || p.1 == 64 || p.2 == 0xFF || rsvs.contains p.2), 0x0713),
    (s.rreg LNK_RSV l 0 % 2 ^ 24 == 1 &&
      rsvs.all (fun i => i == 0 || (s.get LNK_RSV_class l i != 0 && s.get LNK_RSV_span l i != 0)) && nodupB keys, 0x0714),
    (s.get LNK_MODULE_route_en d == 1, 0x0715) ]

/-- LNK_CTL with en = 1: the first training starts; reason stays as it was (R247), and reads zero while the training lasts (R328). (Log 148 DESIGN CHOICE) -/
def State.linkEnable (s : State) (l : Nat) (v : Word) : State :=
  let s1 := s.enable LNK_CTL_en LNK_CTL_reason l 0 0 v (linkChecks l)
  if s.enables LNK_CTL_en l 0 0 v (linkChecks l) then
    (s1.put LNK_CTL_state l lnkTraining).modLink l fun x => { Link.init with first := true, joinDue := x.joinDue }
  else s1

/-- LNK_CTL with en = 0 (R329). (Log 102 DEDUCED) -/
def State.linkDisable (s : State) (l : Nat) (v : Word) : State :=
  (((s.plainBut LNK_CTL_en l 0 0 v).put LNK_CTL_en l 0).put LNK_CTL_state l lnkDown).modLink l fun x => { Link.init with joinDue := x.joinDue }

/-- Send one leave or join notice on a link: from the own module to itself, with hops 0 (R560). -/
def State.hopNotice (s : State) (l subtype m inc : Nat) : State :=
  let blk := leBytes 2 m ++ leBytes 2 0 ++ leBytes 4 inc ++ List.replicate 56 0
  match tfind s.keys 0 with
  | none => s
  | some _ =>
    s.lokEmit (linkDie l) [(l, 0)] 0
      { cls := 0, span := 0, dst := s.moduleId, opcode := 0x10, gen := 0, part := 16, addr := 0, opf := subtype, blocks := [blk],
        poison := [false], b := 1, who := none, ttag := none, oseq := none } 0 0 0 false

/-- Flits of the replay buffer go out again, in the original order. -/
def Link.again (x : Link) : Link := x.emit (x.replay.map x.bytesOf)

/-- LINK_TRAINING_DONE: the peer check of R323, then up; after a retrain the replay resumes from the last flit acknowledged (R328), and
a join notice that waited is sent (R352). (Log 195 DEDUCED) -/
def State.linkTrained (s : State) (l : Nat) (digest : List Byte) : State :=
  let st := s.get LNK_CTL_state l
  if st ≠ lnkTraining ∧ st ≠ lnkRetraining then s
  else if digest ≠ s.rsvDigest l then
    ((s.put LNK_CTL_state l lnkDown).put LNK_CTL_en l 0).put LNK_CTL_reason l 0x0716
  else
    let due := (s.link l).joinDue
    let s1 := (s.put LNK_CTL_state l lnkUp).modLink l fun x =>
      ({ x with first := false, joinDue := [], replay := x.replay.map fun f => { f with resent := 0 } } : Link).again
    (due.foldl (fun (s : State) p => s.hopNotice l 3 p.1 p.2) s1).linkPump l

/-- LINK_RETRAIN: a lane has lost lock, or a flit has been resent 8 times (R328). (Log 108 DEDUCED) -/
def State.linkRetrain (s : State) (l : Nat) : State :=
  if s.get LNK_CTL_state l = lnkUp then
    ((s.put LNK_CTL_state l lnkRetraining).bump LNK_STAT_retrains l).event 0x07F1 l 0xFF (packDetail [(l, 1)])
  else s

/-- RETRAIN_TIMEOUT (R328, R329): the link fails and what it held is lost. (Log 102 DEDUCED) -/
def State.linkFail (s : State) (l : Nat) : State :=
  if s.get LNK_CTL_state l = lnkRetraining then
    ((s.put LNK_CTL_state l lnkFailed).modLink l fun x => { x with replay := [], ready := [], part := [], cuts := [] }).event 0x07F2 l 0xFF
      (packDetail [(l, 1)])
  else s

/-! ### Routing (R330, R334, R355) -/

/-- Entries of a route word: module, link, distance, valid. -/
def routeEntries (w v : Nat) : List (Nat × Nat × Nat × Bool) :=
  (List.range 4).map fun j => let e := nfld v (16 * j) 16; (4 * w + j, nfld e 0 5, nfld e 5 3, nbit e 8)

/-- Check 1 of Table 12.24 on a route word. -/
def routeOk (id w v : Nat) : Bool :=
  (routeEntries w v).all fun e => !e.2.2.2 || e.1 == id || (decide (e.2.1 < 24) && decide (1 ≤ e.2.2.1) && decide (e.2.2.1 ≤ 6))

/-- Check 2 of Table 12.24 on a route word. -/
def routeOwn (id w v : Nat) : Bool :=
  (routeEntries w v).all fun e =>
    if e.1 = id then e.2.2.2 && e.2.1 == 0x1F && e.2.2.1 == 0 else !(e.2.2.2 && e.2.1 == 0x1F)

/-- Checks of Table 12.24. -/
def routeChecks (d : Nat) (s : State) : List (Bool × Nat) :=
  let u := dieLink d
  let id := s.get LNK_MODULE_id u
  let txn := s.get LNK_TIMEOUT_txn_us u
  let o := dieLink (1 - d)
  [ ((List.range 1024).all fun w => routeOk id w (s.rreg LNK_ROUTE u w), 0x0717),
    ((List.range 1024).all fun w => routeOwn id w (s.rreg LNK_ROUTE u w), 0x0718),
    (decide (10 ≤ txn) && decide (txn ≤ 10000) && s.get LNK_TIMEOUT_prune_us u != 0, 0x0719),
    (s.get LNK_MODULE_route_en o == 0 || s.get LNK_MODULE_id o == id, 0x071A) ]

/-- A write to a route word (R334, R355); `mask` names its bytes. -/
def State.routeWrite (s : State) (d w v mask : Nat) : State :=
  let u := dieLink d
  let id := s.get LNK_MODULE_id u
  let s1 := s.accessWrite LNK_ROUTE u w 0 v mask
  let x := s1.rreg LNK_ROUTE u w
  if s.get LNK_MODULE_route_en u = 0 then s1
  else if !(routeOk id w x) then s.put LNK_MODULE_reason u 0x0717
  else if !(routeOwn id w x) then s.put LNK_MODULE_reason u 0x0718
  else s1

/-- A write to LNK_MODULE.id while it is not locked: every key slot of both I/O dies is zeroized (R495). (Log 109 DEDUCED) -/
def State.idWrite (s : State) (d : Nat) (v : Word) : State :=
  let u := dieLink d
  if s.get LNK_MODULE_route_en u = 1 then s
  else { s.put LNK_MODULE_id u (nfld v.toNat 0 12) with keys := [] }

/-- LNK_MODULE with route_en = 1 (R355): an identifier that the write changes zeroizes the key slots (R495). (Log 109 DEDUCED) -/
def State.routeEnable (s : State) (d : Nat) (v : Word) : State :=
  let u := dieLink d
  let s1 := if nfld v.toNat 0 12 ≠ s.get LNK_MODULE_id u then s.idWrite d v else s
  s1.enable LNK_MODULE_route_en LNK_MODULE_reason u 0 0 v (routeChecks d)

/-! ### Flits that arrive (R317, R322, R327) -/

/-- Fields of a flit's header (Table 12.2). -/
def fHdr (b : List Byte) : Nat := leAt b 0 16
def fType (b : List Byte) : Nat := nfld (fHdr b) 0 4
def fClass (b : List Byte) : Nat := nfld (fHdr b) 4 2
def fLseq (b : List Byte) : Nat := nfld (fHdr b) 8 12
def fAck (b : List Byte) : Nat := nfld (fHdr b) 20 12
def fAckValid (b : List Byte) : Bool := nbit (fHdr b) 32
def fNack (b : List Byte) : Bool := nbit (fHdr b) 33

/-- Acknowledged flits leave the replay buffer. -/
def ackReplay (l : List Flit) (ack : Nat) : List Flit := if l.any (fun f => f.lseq == ack) then (l.dropWhile fun f => f.lseq != ack).drop 1 else l

/-- The header's acknowledgement, and a nack: every buffered flit after it is sent again, which counts and records one replay; a flit
resent for the eighth time retrains the link (R327, R328). (Log 108 DEDUCED) -/
def State.flitAck (s : State) (l : Nat) (b : List Byte) : State :=
  let s1 := if fAckValid b then s.modLink l fun x => { x with replay := ackReplay x.replay (fAck b) } else s
  let again := (s1.link l).replay
  if fNack b && !again.isEmpty then
    let s2 := ((s1.modLink l fun x =>
      ({ x with replay := x.replay.map fun f => { f with resent := f.resent + 1 } } : Link).again).bump LNK_ERR_CNT_replays l).event
      0x07F0 l 0xFF (packDetail [(match again with | f :: _ => f.lseq | [] => 0, 2), (again.length, 2)])
    if again.any fun f => decide (7 ≤ f.resent) then s2.linkRetrain l else s2
  else s1

/-- A data word of a flit: its 16 bytes as carried on, and whether they are marked poisoned (R317). -/
def flitWord (b : List Byte) (i : Nat) : List Byte × Bool :=
  let w := slice b (16 + 18 * i) 18
  match classWord w with
  | .corrected k s0 => ((slice w 0 16).zipIdx.map fun p => if p.2 = k then p.1 ^^^ BitVec.ofNat 8 s0 else p.1, false)
  | c => (slice w 0 16, c.bad)

/-- Reservation in which a flit of a message travels. -/
def State.flitRsv (s : State) (l : Nat) (b : List Byte) : Nat := (s.rsvOf l (hSpan (fHdr b / 2 ^ 40)) (fClass b)).getD 0

/-- The message that a reservation's flits make, once the last is there; a sequence that starts or ends wrongly, or a reserved header bit
that is set, is marked. Of it, `c` has been forwarded. -/
def mkRx (fs : List Flit) (ok : Bool) (c : Nat × Nat × Nat × Nat) : RxMsg :=
  match fs with
  | [] => ⟨0, 0, [], 0, 0, false, false, 0, 0, (0, 0, 0)⟩
  | f :: _ => ⟨f.cls, f.hdr, fs.flatMap Flit.words, f.rsv, fs.length, ok && fs.all (fun x => x.hdr == f.hdr && x.ok), false, 0, c.1, c.2⟩

/-- Flits of one message that hold credits of the receive buffer: a reservation of one slot has 8 credits, and a message takes up to 10
flits, so the flits after the seventh are taken out of the buffer as they arrive. (Log 193 DESIGN CHOICE) -/
def rxHold : Nat := 7

/-- Flits that stand in a link's receive buffer. -/
def Link.stored (x : Link) : Nat :=
  let one := fun (a n c : Nat) => a + (Nat.min rxHold n - Nat.min rxHold c)
  (x.rx.foldl (fun a m => one a m.flits m.cut) 0) + x.part.foldl (fun a p => one a p.2.length (tget (0, 0, 0, 0) x.cuts p.1).1) 0

/-- A flit of a message is accepted into the receive buffer. (Log 107 DEDUCED, 193 DESIGN CHOICE) -/
def State.flitTake (s : State) (l : Nat) (b : List Byte) : State :=
  let r := s.flitRsv l b
  let f : Flit := ⟨fType b, fClass b, fHdr b / 2 ^ 40, (List.range 14).map (flitWord b), r, fLseq b, 0,
    nfld (fHdr b) 6 2 == 0 && nfld (fHdr b) 34 6 == 0⟩
  let bad := ((List.range 14).filter fun i => classWord (slice b (16 + 18 * i) 18) == .uncorrectable).length
  let s := s.bump LNK_STAT_fec_uncorrectable l 0 0 bad
  let before := tget [] (s.link l).part r
  let c := tget (0, 0, 0, 0) (s.link l).cuts r
  let starts := f.ftype == 2 || f.ftype == 5
  let ends := f.ftype == 4 || f.ftype == 5
  let fs := if starts then [f] else before ++ [f]
  let lost := if starts && !before.isEmpty then [mkRx before false c] else []
  let done := if ends then [mkRx fs (starts || !before.isEmpty) (if starts then (0, 0, 0, 0) else c)] else []
  s.modLink l fun x =>
    { x with part := tset [] x.part r (if ends then [] else fs), cuts := if starts || ends then tdel r x.cuts else x.cuts, rx := x.rx ++ lost ++ done,
             freed := if rxHold < fs.length then tset 0 x.freed r (tget 0 x.freed r + 1) else x.freed }

/-- Bytes of the freed counts that a control flit carries, a word that arrived poisoned left out (R317, R322). -/
def ctlCounts (b : List Byte) : List (Nat × Nat) :=
  (List.range 64).filterMap fun i =>
    let w := flitWord b (i / 16)
    if w.2 then none else some (i, leAt w.1 (i % 16) 1)

/-- The total that a count modulo 256 stands for, at or after the last one known. -/
def freedTotal (old v : Nat) : Nat := old + (v + 256 - old % 256) % 256

/-- FLIT_RECEIVE: a flit of 272 bytes. A flit for which the buffer of 1,024 has no room is not accepted (R321). (Log 107 DEDUCED, 193 DESIGN CHOICE) -/
def State.flitReceive (s : State) (l : Nat) (b : List Byte) : State :=
  if s.get LNK_CTL_state l ≠ lnkUp then s
  else if leAt b 268 4 ≠ crc32c (slice b 0 268) then
    (s.bump LNK_ERR_CNT_crc_fail l).modLink l fun x => { x with nack := true }
  else
    let s1 := s.flitAck l b
    let t := fType b
    if t = 1 then
      (s1.modLink l fun x => { x with peerFreed := (ctlCounts b).foldl (fun p i => tset 0 p i.1 (freedTotal (tget 0 p i.1) i.2)) x.peerFreed }).linkPump l
    else if 2 ≤ t ∧ t ≤ 5 then
      let want := match (s1.link l).ackSeq with | none => 0 | some a => (a + 1) % 4096
      if fLseq b = want ∧ (s1.link l).stored < 1024 then
        ((s1.modLink l fun x => { x with ackSeq := some want, nack := false }).flitTake l b).linkPump l
      else (s1.modLink l fun x => { x with nack := true }).linkPump l
    else s1.linkPump l

/-- Payload of a control flit: the freed counts (R322). -/
def Link.counts (x : Link) : List Byte := (List.range 64).map fun i => BitVec.ofNat 8 (tget 0 x.freed i)

/-- CONTROL_FLIT (R322): the header carries the acknowledgement, the payload the freed counts. -/
def State.controlFlit (s : State) (l : Nat) : State :=
  if s.get LNK_CTL_state l = lnkUp then
    s.modLink l fun x => { x with ctl := x.counts }.emit [x.flitBytes 1 0 0 0 ((List.range 4).map fun i => (slice x.counts (16 * i) 16, false))]
  else s

/-! ### The commands -/

/-- LNK_CTL_EN (R355). -/
def execLnkCtlEn (l : Lnk) (v : Word) (s : State) : Host.Outcome State Fault Refusal := .next (s.linkEnable l v)

/-- LNK_CTL_DISABLE (R329). -/
def execLnkCtlDisable (l : Lnk) (v : Word) (s : State) : Host.Outcome State Fault Refusal := .next (s.linkDisable l v)

/-- LINK_TRAINING_DONE (R328). -/
def execLinkTrainingDone (l : Lnk) (digest : List Byte) (s : State) : Host.Outcome State Fault Refusal := .next (s.linkTrained l digest)

/-- LINK_RETRAIN (R328). -/
def execLinkRetrain (l : Lnk) (s : State) : Host.Outcome State Fault Refusal := .next (s.linkRetrain l)

/-- RETRAIN_TIMEOUT (R328). -/
def execRetrainTimeout (l : Lnk) (s : State) : Host.Outcome State Fault Refusal := .next (s.linkFail l)

/-- LNK_ROUTE_EN (R355). -/
def execLnkRouteEn (d : Die) (v : Word) (s : State) : Host.Outcome State Fault Refusal :=
  .next (s.routeEnable d v)

/-- ROUTE_WRITE (R334). -/
def execRouteWrite (d : Die) (w : Fin 1024) (v : Word) (s : State) : Host.Outcome State Fault Refusal :=
  .next (s.routeWrite d w v.toNat (2 ^ 64 - 1))

/-- LNK_MODULE_ID_WRITE (R495). -/
def execLnkModuleIdWrite (d : Die) (v : Word) (s : State) : Host.Outcome State Fault Refusal := .next (s.idWrite d v)

/-- FLIT_RECEIVE (R327). -/
def execFlitReceive (l : Lnk) (bytes : List Byte) (s : State) : Host.Outcome State Fault Refusal := .next (s.flitReceive l bytes)

/-- CONTROL_FLIT (R322). -/
def execControlFlit (l : Lnk) (s : State) : Host.Outcome State Fault Refusal := .next (s.controlFlit l)

end Sys2Proof.Machine
end

