-- ==== Sys2Proof/Machine/Remote.lean ====
section
/-!
DEFINITION. Lokel messages (chapter "The Lokel fabric: links, transport and ordering"): forwarding, the target's checks and
operations, responses, acknowledgements and faults at the source.
-/
namespace Sys2Proof.Machine

open Sys2Proof

/-! ### The receive buffer -/

/-- The oldest message of a reservation. -/
def State.rxHead (s : State) (l r : Nat) : Option RxMsg := (s.link l).rx.find? fun m => m.rsv == r

/-- The oldest message of a reservation leaves the buffer: the credits that its flits still hold return. -/
def State.rxFree (s : State) (l : Nat) (m : RxMsg) : State :=
  s.modLink l fun x => { x with rx := lrem (fun y => y.rsv == m.rsv) x.rx,
                                freed := tset 0 x.freed m.rsv (tget 0 x.freed m.rsv + (Nat.min rxHold m.flits - Nat.min rxHold m.cut)) }

/-- Change the oldest message of a reservation. -/
def State.rxMod (s : State) (l r : Nat) (f : RxMsg → RxMsg) : State :=
  s.modLink l fun x => { x with rx := (x.rx.foldl (fun (a : List RxMsg × Bool) m =>
    if m.rsv == r && !a.2 then (a.1 ++ [f m], true) else (a.1 ++ [m], a.2)) ([], false)).1 }

/-- Is an opcode that of a request message (R338). -/
def isRequest (o : Nat) : Bool := o == 1 || o == 3 || o == 4 || o == 5 || o == 9 || o == 10 || o == 0x11

/-- I/O die that serves a croft. -/
def croftDie (k : Nat) : Nat := k / 8

/-- I/O die from which a message is answered: that of the croft it names, else that of the link (R330). -/
def ansDie (l : Nat) (m : RxMsg) : Nat := match offCroft (m.addr % 2 ^ 46) with | some k => croftDie k | none => linkDie l

/-- Send an answer of a message back to its source (R325, R353): its span, class, generation, ttag and address; `bare` has it go as a
management message (R497). (Log 100 DEDUCED) -/
def State.lokAnswer (s : State) (d l : Nat) (m : RxMsg) (opcode opf oseq : Nat) (blocks : List (List Byte)) (poison : List Bool)
    (bare : Bool := false) : State :=
  s.lokReply d l { cls := if bare then 0 else m.cls, span := if bare then 0 else m.span, dst := m.src, opcode := opcode, gen := m.gen, part := 16, addr := m.addr, opf := opf,
                   blocks := blocks, poison := poison, b := blocks.length, who := none, ttag := some m.ttag, oseq := some oseq }

/-! ### Streams at the target (R343) -/

/-- Destination of a message's stream: a multicast's is its group. -/
def RxMsg.sdst (m : RxMsg) (self : Nat) : Nat := if m.opcode = 5 then 4096 + m.dst else self

/-- The target entry of a message's stream. (Log 99 DEDUCED) -/
def State.tgt (s : State) (d : Nat) (m : RxMsg) : Option TgtStream :=
  (s.lokD d).tgt.find? fun e => e.src == m.src && e.dst == m.sdst s.moduleId && e.span == m.span && e.cls == m.cls

/-- Change it. -/
def State.modTgt (s : State) (d : Nat) (m : RxMsg) (f : TgtStream → TgtStream) : State :=
  s.modLok d fun x => { x with tgt := x.tgt.map fun e =>
    if e.src == m.src && e.dst == m.sdst s.moduleId && e.span == m.span && e.cls == m.cls then f e else e }

/-- Expected oseq of a message's stream. -/
def State.expected (s : State) (d : Nat) (m : RxMsg) : Nat := match s.tgt d m with | some e => e.expect % 2 ^ 32 | none => 0

/-- A request is refused with a fault response; `brk` breaks its stream (R338, R343). The message leaves the buffer. The response to a
message under a slot that is not loaded goes in reservation 0 under slot 0 (R497). (Log 98 DEDUCED) -/
def State.lokRefuse (s : State) (l : Nat) (m : RxMsg) (code : Nat) (brk : Bool := true) : State :=
  let d := linkDie l
  let fresh := (match s.tgt d m with | some e => !e.broken | none => false) || m.opn
  let s1 := if brk then s.modTgt d m fun e => { e with broken := true } else s
  let s2 := if brk && m.cls == 2 && fresh then s1.redBroken m.span else s1
  (s2.lokAnswer (ansDie l m) l m 7 (code + 2 ^ 16 * m.oseq) (s.expected d m) [] []
    (code == 0x072A && (tfind s.keys m.key).isNone)).rxFree l m

/-! ### Checks 1 to 4 of Table 12.8 -/

/-- Is an opcode one of Table 12.4. -/
def opDefined (o : Nat) : Bool := (decide (1 ≤ o) && decide (o ≤ 10)) || o == 0x10 || o == 0x11

/-- Check 2: the sequence of flits, the opcode, b and the reserved fields. -/
def RxMsg.valid (m : RxMsg) : Bool :=
  let o := m.opcode
  let b := m.b
  let bOk := if o = 6 ∨ o = 7 ∨ o = 8 ∨ o = 10 then b == 0 else if o = 0x11 then b == 1 else decide (1 ≤ b) && decide (b ≤ 32)
  let opOk := opDefined o
  let subOk := o != 0x10 || (nfld m.opf 16 48 == 0 && decide (1 ≤ m.opf) && decide (m.opf ≤ 6) && (m.opf == 1 || b == 1))
  let opfOk := if o = 1 ∨ o = 9 ∨ o = 0x11 then m.opf == 0 else if o = 3 ∧ b ≠ 1 then m.opf == 2 ^ 64 - 1
    else if o = 4 then decide (m.opf < 2 ^ 44) else if o = 5 ∨ o = 7 ∨ o = 8 then decide (m.opf < 2 ^ 48)
    else if o = 6 then decide (m.opf < 2 ^ 32) else true
  m.okSeq && opOk && bOk && subOk && opfOk && nfld m.flags 8 24 == 0 && nfld m.hdr 80 8 == 0 &&
    m.flits == cdiv (48 + 64 * carries o b) 224 && (o != 0x10 || m.cls == 0)

/-- Check 3: the plaintext, when the key slot is loaded with the message's span and the tag verifies. The source's I/O die is
not named, so either is tried. -/
def State.lokOpen (s : State) (m : RxMsg) : Option (List Byte) :=
  match tfind s.keys m.key with
  | none => none
  | some k =>
    if k.span ≠ m.span then none
    else
      let n := carries m.opcode m.b
      let ct := (m.bytes.drop 32).take (64 * n)
      let tag := slice m.bytes (32 + 64 * n) 16
      let aad := msgAad (slice m.bytes 0 32) m.hdr
      match Config.gcmOpen k.key (msgNonce m.mctr m.key m.src 0) aad ct tag with
      | some p => some p
      | none => Config.gcmOpen k.key (msgNonce m.mctr m.key m.src 1) aad ct tag

/-- What check 4 decides: it passes, the message is discarded silently, or it is refused with a code. -/
inductive StreamVerdict where
  | pass
  | discard
  | refuse (code : Nat)
  deriving DecidableEq, Repr

/-- Check 4 (R342, R343), with the entry opened or advanced. -/
def State.streamCheck (s : State) (d : Nat) (m : RxMsg) : State × StreamVerdict :=
  match s.tgt d m with
  | none =>
    if !m.opn then (s, .refuse 0x0728)
    else if streamCap ≤ (s.lokD d).tgt.length then (s, .refuse 0x0727)
    else
      let e : TgtStream := ⟨m.src, m.sdst s.moduleId, m.span, m.cls, 1, m.gen, m.oseq != 0, none, 0, 0, 0⟩
      (s.modLok d fun x => { x with tgt := x.tgt ++ [e] }, if m.oseq = 0 then .pass else .refuse 0x0728)
  | some e =>
    if m.opn then
      (s.modTgt d m fun e => { e with expect := if m.oseq = 0 then 1 else 0, gen := m.gen, broken := m.oseq != 0, ackDue := none },
        if m.oseq = 0 then .pass else .refuse 0x0728)
    else if e.gen ≠ m.gen then (s, .discard)
    else if e.broken then (s, .refuse 0x0728)
    else if m.oseq = e.expect % 2 ^ 32 then (s.modTgt d m fun e => { e with expect := e.expect + 1 }, .pass)
    else (s, .refuse 0x0728)

/-- Checks 1 to 4 of a request at the head of a reservation: the plaintext when they pass; else the state after the refusal. -/
def State.reqCheck (s : State) (l : Nat) (m : RxMsg) : State × Option (List Byte) :=
  let d := linkDie l
  if hHops m.hdr ≠ 0 then ((s.bump LNK_DROP_CNT_route l).lokRefuse l m 0x0732, none)
  else if !m.valid then ((s.bump LNK_DROP_CNT_malformed l).lokRefuse l m 0x0729, none)
  else
    match s.lokOpen m with
    | none => ((s.bump LNK_DROP_CNT_auth l).lokRefuse l m 0x072A, none)
    | some p =>
      if m.passed then (s, some p)
      else
        let r := s.streamCheck d m
        match r.2 with
        | .pass => (r.1.rxMod l m.rsv fun x => { x with passed := true }, some p)
        | .discard => ((r.1.bump LNK_DROP_CNT_stale l).rxFree l m, none)
        | .refuse code => (r.1.lokRefuse l m code, none)

/-! ### Check 5 (R46, R44, R33, R49 to R51) -/

/-- Smallest code of the checks that fail; 0 when all hold (R510). (Log 12 DEDUCED) -/
def smallest (l : List (Bool × Nat)) : Nat := (l.filter fun p => !p.1).foldl (fun a p => if a = 0 ∨ p.2 < a then p.2 else a) 0

/-- Check 5 for an access of b blocks at a global address, by a request of a span. A request of the management class is Aselo's, which
carries no span tag (R514). (Log 167 DESIGN CHOICE) -/
def State.remoteCheck (s : State) (opcode addr b span : Nat) (cls : Nat := 1) : Nat :=
  let off := addr % 2 ^ 46
  let r := region off
  if nfld addr 62 2 ≠ 1 then 0x0724
  else if opcode ≠ 5 ∧ (addrModule addr ≠ s.moduleId ∨ nfld addr 58 4 ≠ 0) then 0x0722
  else if r = 0 then 0x0722
  else
    let ext := [(sameUnit off (off + 64 * b - 1), 0x0218), (off % 64 == 0, 0x0219)]
    if r = 4 then smallest (ext ++ [(false, 0x0724)])
    else
      let k := memCroft off
      smallest (ext ++
        [ (cls == 0 || s.get PRT_CROFT_assigned 0 k == 0 || (span != 0 && s.get PRT_CROFT_span 0 k == span), 0x0721),
          (s.get PRT_CROFT_assigned 0 k == 1 && (3 ≤ r || s.get CLU_ALIAS_CTL_en (off / 0x800000) == 1), 0x0723),
          (opcode != 4 || r == 3, 0x0724) ])

/-! ### The inbound regulator (R341) -/

/-- Whole blocks that a croft's inbound bucket holds now. -/
def State.inBlocks (s : State) (k : Nat) : Nat :=
  let x := s.lokD (croftDie k)
  let u := dieLink (croftDie k)
  let missing := tget 0 x.inTok k - s.get LNK_INRSV_rate u (k % 8) * (memCycle s.tick - tget 0 x.inStamp k)
  (s.get LNK_INRSV_depth u (k % 8) * 65536 - missing) / 65536

/-- Blocks of a message that enter the channels now: all, but that latency-critical ones of HBM3 need tokens. -/
def State.inAdmit (s : State) (m : RxMsg) : Nat :=
  let off := m.addr % 2 ^ 46
  let want := m.b - m.done
  if m.cls = 1 ∧ isHbm off = true then Nat.min want (s.inBlocks (hbmCroft off)) else want

/-- Spend the tokens of n blocks. -/
def State.inSpend (s : State) (m : RxMsg) (n : Nat) : State :=
  let off := m.addr % 2 ^ 46
  if m.cls = 1 ∧ isHbm off = true then
    let k := hbmCroft off
    let x := s.lokD (croftDie k)
    let missing := tget 0 x.inTok k - s.get LNK_INRSV_rate (dieLink (croftDie k)) (k % 8) * (memCycle s.tick - tget 0 x.inStamp k)
    s.modLok (croftDie k) fun x =>
      { x with inTok := tset 0 x.inTok k (missing + 65536 * n), inStamp := tset 0 x.inStamp k (memCycle s.tick) }
  else s

/-! ### Performing a request (Table 12.9) -/

/-- Is a request admitted at this module's boundary: a cluster takes it while its generation is that of its croft (R460). -/
def State.boundary (s : State) (off : Nat) : Bool :=
  if off < onchipTop then
    let k := memCroft off
    s.portOk (off / 0x800000) (s.get PRT_CROFT_partition 0 k) (s.get PRT_CROFT_gen 0 k)
  else true

/-- Why the memory refuses a block; 0 when it takes it. -/
def State.blockRefuse (s : State) (off cls : Nat) (op : MOp) : Nat :=
  if isHbm off then s.hbmRefuse ⟨.aselo 0, cls, off, op, 16, 0, s.tick⟩ else 0

/-- First block of a range that the memory refuses, with the code. -/
def State.rangeRefuse (s : State) (off n cls : Nat) (op : MOp) : Option (Nat × Nat) :=
  (List.range n).findSome? fun i =>
    let c := s.blockRefuse (off + 64 * i) cls op
    if c = 0 then none else some (i, c)

/-- Count a presence fault of an HBM3 block. -/
def State.notePresence (s : State) (off code : Nat) : State :=
  if code = 0x0225 ∨ code = 0x0226 ∨ code = 0x0227 then s.bump HBM_FAULT_CNT_presence (hbmChan off) else s

/-- The received tag of a message, on an event without code (Table 18.4, R524). (Log 162 DEDUCED) -/
def RxMsg.heard (m : RxMsg) : Event :=
  { Event.plain 0 0 0 0 0 0 0 with
    tag := evTag m.src m.cls false, span := m.span, oseq := if m.opcode = 5 then m.opf % 2 ^ 32 else m.oseq,
    stream := if m.opcode = 5 then nfld m.opf 32 16 else 0, tflags := b2n (m.opcode == 5) + 2 * b2n m.opn }

/-- What a received message brought about since state `s0`: its events carry its tag, and a core's access that it failed keeps the
tag for the event of the fault (R524). (Log 162 DEDUCED) -/
def State.rxTagged (s s0 : State) (l : Nat) (m : RxMsg) : State :=
  let failed := ((s.replies.drop s0.replies.length).filter fun p => p.2.reason != 0).map fun p => (p.1, m.heard)
  (if failed.isEmpty then s else s.modLok (linkDie l) fun x => { x with heard := x.heard ++ failed }).tagNew s0.evr.raised.length m.heard

/-- Event of a message that brought poisoned blocks (Table 18.6). -/
def State.rxPoison (s : State) (l : Nat) (m : RxMsg) : State :=
  let ps := (List.range (carries m.opcode m.b)).map m.poison
  if ps.any (· == true) then s.raise (m.heard.tagOf (Event.plain 0x07F5 0 0xFF 0 l 0 (poisonAddr m.addr ps))) else s

/-- Land one block with the poison of each of its words (R317): on chip every word of its own, in HBM3 the whole block (R204). -/
def State.putBlock (s : State) (off be : Nat) (bs : List Byte) (marks : List Bool) : State :=
  if isHbm off || marks.all (· == marks.headD false) then s.wrMem off (enabled be bs) (marks.any (· == true))
  else (List.range 4).foldl (fun (s : State) q => s.wrMem (off + 16 * q) (((enabled be bs).drop (16 * q)).take 16) (lget false marks q)) s

/-- Land blocks at an offset; a one-block write writes its enabled bytes. -/
def State.putBlocks (s : State) (off : Nat) (be : Nat) : List (List Byte × List Bool) → Nat → State
  | [], _ => s
  | p :: t, i => (s.putBlock (off + 64 * i) be p.1 p.2).putBlocks off be t (i + 1)

/-- Is a block that a pull read names one that the root has still to land (R349). -/
def State.pullHeld (s : State) (m : RxMsg) : Bool :=
  let off := m.addr % 2 ^ 46
  m.opcode == 9 && [0, 1].any fun d => (s.lokD d).roots.any fun r => r.ready.any fun b => decide (off ≤ b.1) && decide (b.1 < off + 64 * m.b)

/-- The newest performed write or accumulate of a stream is to be acknowledged. -/
def State.ackNote (s : State) (l : Nat) (m : RxMsg) : State :=
  s.modTgt (linkDie l) m fun e => { e with ackDue := some m.oseq, ackTtag := m.ttag, ackDie := ansDie l m, ackAddr := m.addr }

/-- What a request does once it is admitted, from block `m.done` on for `n` blocks. (Log 97 DEDUCED, 98 DEDUCED) -/
def State.perform (s : State) (l : Nat) (m : RxMsg) (plain : List Byte) (n : Nat) : State :=
  let off := m.addr % 2 ^ 46
  let data := fun i => (slice plain (64 * i) 64, m.marks i)
  if m.opcode = 1 ∨ m.opcode = 9 then
    if m.done + n < m.b then (s.inSpend m n).rxMod l m.rsv fun x => { x with done := x.done + n }
    else
      let s1 := s.inSpend m n
      match s1.rangeRefuse off m.b m.cls (.read 64) with
      | some (i, c) => (s1.notePresence (off + 64 * i) c).lokRefuse l m c false
      | none =>
        let blocks := (List.range m.b).map fun i => s1.rdMem (off + 64 * i) 64
        let poison := (List.range m.b).map fun i => s1.rdPoison (off + 64 * i) 64
        let s2 := (s1.noteRead off (64 * m.b)).stamp off (64 * m.b)
        (s2.lokAnswer (ansDie l m) l m 2 0 m.oseq blocks poison).rxFree l m
  else if m.opcode = 3 then
    let be := if m.b = 1 then m.opf else 2 ^ 64 - 1
    let at_ := off + 64 * m.done
    let r := s.rangeRefuse at_ n m.cls (.write [] 0 false)
    let k := match r with | some (i, _) => i | none => n
    let s1 := (s.inSpend m n).putBlocks at_ be ((List.range k).map fun i => data (m.done + i)) 0
    match r with
    | some (i, c) => (s1.notePresence (at_ + 64 * i) c).lokRefuse l m c false
    | none => if m.done + n < m.b then s1.rxMod l m.rsv fun x => { x with done := x.done + n }
      else ((s1.rxPoison l m).ackNote l m).rxFree l m
  else
    if m.done + n < m.b then (s.inSpend m n).rxMod l m.rsv fun x => { x with done := x.done + n }
    else
      let s1 := s.inSpend m n
      match s1.rangeRefuse off m.b m.cls (.accum 0 [] false) with
      | some (i, c) => (s1.notePresence (off + 64 * i) c).lokRefuse l m c false
      | none =>
        let r := s1.adderTake off m.opf ((List.range m.b).map fun i => (data i).1) ((List.range m.b).any fun i => m.poison i)
        if r.2 ≠ 0 then r.1.lokRefuse l m r.2 false else ((r.1.rxPoison l m).ackNote l m).rxFree l m

/-- A read request, pull read, write or accumulate at the head of a reservation (R338 to R341); each of them also takes a message
whose opcode is undefined, which check 2 refuses. (Log 97 DEDUCED) -/
def State.remoteOp (s : State) (l r opcode : Nat) : State :=
  match s.rxHead l r with
  | none => s
  | some m =>
    if (m.opcode ≠ opcode ∧ opDefined m.opcode = true) ∨ m.dst ≠ s.moduleId then s
    else
      let q := s.reqCheck l m
      match q.2 with
      | none => q.1
      | some plain =>
        let s1 := q.1
        let off := m.addr % 2 ^ 46
        let code := s1.remoteCheck opcode m.addr m.b m.span m.cls
        if code ≠ 0 then s1.lokRefuse l m code
        else if m.cls = 1 ∧ isHbm off = true ∧ s1.get LNK_INRSV_depth (dieLink (croftDie (hbmCroft off))) (hbmCroft off % 8) = 0 then
          s1.lokRefuse l m 0x0726
        else if s1.boundary off = false then (s1.stale (memCroft off)).rxFree l m
        else if s1.pullHeld m then s1
        else
          let n := s1.inAdmit m
          if n = 0 ∧ m.done < m.b then s1 else s1.perform l m plain n

/-- Is a reduction-control block well formed: a subtype of Table 13.5, and zero in its reserved fields (R6). -/
def redBlockOk (b : List Byte) : Bool := decide (1 ≤ leAt b 8 2) && decide (leAt b 8 2 ≤ 6) && zeroAt b 14 2 && zeroAt b 28 36

/-- A reduction-control message that passes its checks: its block, to be acted on by its command; it is acknowledged with its
stream. -/
def State.redReceive (s : State) (l r : Nat) (subtype : Nat) : State × Option (Nat × List Byte) :=
  match s.rxHead l r with
  | none => (s, none)
  | some m =>
    if m.opcode ≠ 0x11 ∨ m.dst ≠ s.moduleId then (s, none)
    else
      let q := s.reqCheck l m
      match q.2 with
      | none => (q.1, none)
      | some plain =>
        if redBlockOk plain = false then ((q.1.bump LNK_DROP_CNT_malformed l).lokRefuse l m 0x0729, none)
        else if leAt plain 8 2 ≠ subtype then (s, none)
        else
          let off := m.addr % 2 ^ 46
          let code := if isHbm off then q.1.remoteCheck 3 m.addr 1 m.span m.cls else 0
          if code ≠ 0 then (q.1.lokRefuse l m code, none)
          else if m.poison 0 then (((q.1.rxPoison l m).ackNote l m).rxFree l m, none)
          else ((q.1.ackNote l m).rxFree l m, some (off, slice plain 0 64))

/-- CLOSE: the target frees the stream's entry. -/
def State.lokClose (s : State) (l r : Nat) : State :=
  match s.rxHead l r with
  | none => s
  | some m =>
    if m.opcode ≠ 10 ∨ m.dst ≠ s.moduleId then s
    else
      let q := s.reqCheck l m
      match q.2 with
      | none => q.1
      | some _ =>
        (q.1.modLok (linkDie l) fun x =>
          { x with tgt := x.tgt.filter fun e => !(e.src == m.src && e.dst == m.sdst s.moduleId && e.span == m.span && e.cls == m.cls) }).rxFree l m

/-- ACK_SEND (R341): the ack of a stream's newest performed message. -/
def State.ackSend (s : State) (d src span cls : Nat) : State :=
  match (s.lokD d).tgt.find? fun e => e.src == src && e.dst == s.moduleId && e.span == span && e.cls == cls with
  | none => s
  | some e =>
    match e.ackDue with
    | none => s
    | some o =>
      let s1 := s.modLok d fun x => { x with tgt := x.tgt.map fun y =>
        if y.src == src && y.dst == s.moduleId && y.span == span && y.cls == cls then { y with ackDue := none } else y }
      let m : Send :=
        { cls := cls, span := span, dst := src, opcode := 6, gen := e.gen, part := 16, addr := e.ackAddr,
          opf := o, blocks := [], poison := [], b := 0, who := none, ttag := some e.ackTtag, oseq := some o }
      s1.lokReply e.ackDie (dieLink d) m

/-! ### Forwarding (R331) -/

/-- A message is refused on its way: counted where the route is inconsistent, and answered when it is a request. -/
def State.forwardRefuse (s : State) (l : Nat) (m : RxMsg) (code : Nat) : State :=
  let s1 := if code = 0x0732 then s.bump LNK_DROP_CNT_route l else s
  if isRequest m.opcode then
    (s1.lokAnswer (linkDie l) l m 7 (code + 2 ^ 16 * m.oseq) 0 [] []).rxFree l m
  else s1.rxFree l m

/-- Is a message a leave or join notice, which is taken from the link whatever its dst (R560). -/
def RxMsg.hopByHop (m : RxMsg) : Bool := m.opcode == 0x10 && (m.opf == 2 || m.opf == 3)

/-- The way on of a message for another module: link, reservation and distance, or the code of its refusal (R325, R329, R331). -/
def State.wayOn (s : State) (l dst hops span cls : Nat) : Except Nat (Nat × Nat × Nat) :=
  match s.route (linkDie l) dst with
  | none => .error 0x0732
  | some (o, dist) =>
    if dist + 1 ≠ hops ∨ 24 ≤ o then .error 0x0732
    else
      let st := s.get LNK_CTL_state o
      match s.rsvOf o span cls with
      | none => .error 0x0726
      | some q => if st = lnkDown ∨ st = lnkTraining ∨ st = lnkFailed then .error 0x0733 else .ok (o, q, dist)

/-- A header with its hops set. -/
def hopsHdr (h dist : Nat) : Nat := h - hHops h * 2 ^ 29 + dist * 2 ^ 29

/-- Flits of a message that has not arrived whole go on as they stand (R332); a message that is refused waits for its end. -/
def State.cutThrough (s : State) (l r : Nat) : State :=
  let fs := tget [] (s.link l).part r
  match fs with
  | [] => s
  | f :: _ =>
    let c := tget (0, 0, 0, 0) (s.link l).cuts r
    let way := if c.1 = 0 then s.wayOn l (hDst f.hdr) (hHops f.hdr) (hSpan f.hdr) f.cls else .ok c.2
    if hDst f.hdr = s.moduleId ∨ hOpcode f.hdr = 5 ∨ hOpcode f.hdr = 0x10 ∧ c.1 = 0 ∧ f.cls ≠ 0 ∨ fs.length ≤ c.1 then s
    else match way with
      | .error _ => s
      | .ok (o, q, dist) =>
        let s1 := s.linkPut o ((fs.drop c.1).map fun f => { f with hdr := hopsHdr f.hdr dist, rsv := q, resent := 0 })
        s1.modLink l fun x =>
          { x with cuts := tset (0, 0, 0, 0) x.cuts r (fs.length, o, q, dist),
                   freed := tset 0 x.freed r (tget 0 x.freed r + (Nat.min rxHold fs.length - Nat.min rxHold c.1)) }

/-- MESSAGE_FORWARD: the oldest message of a reservation, when it is for another module; what of it has arrived goes on. (Log 96 DEDUCED) -/
def State.lokForward (s : State) (l r : Nat) : State :=
  match s.rxHead l r with
  | none => s.cutThrough l r
  | some m =>
    if m.dst = s.moduleId ∨ m.opcode = 5 ∨ m.hopByHop then s
    else match (if m.cut = 0 then s.wayOn l m.dst (hHops m.hdr) m.span m.cls else .ok m.way) with
      | .error code => s.forwardRefuse l m code
      | .ok (o, q, dist) => (s.linkPut o ((mkFlits m.cls (hopsHdr m.hdr dist) q m.words).drop m.cut)).rxFree l m

/-! ### The source's side -/

/-- Checks 1 to 3 of an answer: dropped and counted where one fails (R338). -/
def State.ansCheck (s : State) (l : Nat) (m : RxMsg) : State × Option (List Byte) :=
  if hHops m.hdr ≠ 0 then ((s.bump LNK_DROP_CNT_route l).rxFree l m, none)
  else if !m.valid then ((s.bump LNK_DROP_CNT_malformed l).rxFree l m, none)
  else
    match s.lokOpen m with
    | none => ((s.bump LNK_DROP_CNT_auth l).rxFree l m, none)
    | some p => (s, some p)

/-- The outstanding request that an answer matches, with its I/O die: by ttag alone (R338, R353), so that a forwarding module may send it. -/
def State.outFor (s : State) (l : Nat) (m : RxMsg) : Option (Nat × Out) :=
  let find := fun d => (s.lokD d).outs.find? fun o => o.ttag == m.ttag
  match find (linkDie l) with
  | some o => some (linkDie l, o)
  | none => match find (1 - linkDie l) with
    | some o => some (1 - linkDie l, o)
    | none => none

/-- Is the answer's generation the current one of the requesting partition. -/
def State.ansCurrent (s : State) (o : Out) (m : RxMsg) : Bool := m.gen == o.gen && s.genOk o.part o.gen

/-! ### Multicast landing and pulls (R346 to R350) -/

/-- The stream of a receiver. -/
def State.recvOf (s : State) (d root id : Nat) : Option McRecv := (s.lokD d).recvs.find? fun r => r.root == root && r.id == id
def State.modRecv (s : State) (d root id : Nat) (f : McRecv → McRecv) : State :=
  s.modLok d fun x => { x with recvs := x.recvs.map fun r => if r.root == root && r.id == id then f r else r }

/-- Send a notice of the management class on its stream (R560): Aselo's messages are looked up on I/O die 0 (R330). (Log 103 DEDUCED) -/
def State.notice (s : State) (dst subtype : Nat) (blk : List Byte) : State :=
  (s.lokIssue 0 { cls := 0, span := 0, dst := dst, opcode := 0x10, gen := 0, part := 16, addr := globalAddr dst 0, opf := subtype,
                  blocks := [slice blk 0 64], poison := [false], b := 1, who := none, ttag := none, oseq := none }).1

/-- Module-local offset of byte 64k of a shard's tile data in a partition (R378). -/
def State.baseOff (s : State) (p gran g k : Nat) : Nat :=
  let crofts := (List.range 16).filter fun i => nbit (s.get PRT_PART_CTL_crofts 0 p) i
  let a := 64 * k / (g * 0x10000)
  croftClu (lget 0 crofts (a / 100)) (a % 100) * 0x800000 + gran * 0x10000 + 64 * k % (g * 0x10000)

/-- Landing offset of block k of a pruned stream: the tiles of the descriptor's words 4 and 5 (R62), a base version's tile data (R378),
or the engine's run (R375). (Log 105 DEDUCED) -/
def State.pullOff (s : State) (r : McRecv) (k : Nat) : Nat :=
  if nfld r.w4 62 2 = 1 then
    let w := List.replicate 4 0 ++ [r.w4, r.w5]
    (sinkAddr w (k / 16) + 64 * (k % 16)) % 2 ^ 46
  else match s.sys.vers.find? fun v => v.state == 0 && !v.source && v.group == r.group with
    | some v => s.baseOff v.part (nfld r.w4 0 7) (nfld r.w4 8 7) k
    | none => (r.w4 + 64 * k) % 2 ^ 46

/-- The pulls of a pruned receiver that knows the final mseq: one read for each block. -/
def State.pullIssue (s : State) (d : Nat) (r : McRecv) : Nat → State × Nat
  | 0 => (s, 0)
  | n + 1 =>
    let q := s.pullIssue d r n
    if q.2 ≠ 0 then q
    else
      let k := r.pulled + n
      q.1.lokIssue d { cls := r.cls, span := r.span, dst := r.root, opcode := 9, gen := r.gen, part := 16,
                       addr := globalAddr r.root (s.pullOff r k), opf := 0, blocks := [], poison := [], b := 1,
                       who := some (.pull d r.id k), ttag := none, oseq := none }

/-- Does a partition hold a croft of a span. -/
def State.partSpan (s : State) (p span : Nat) : Bool :=
  (List.range 16).any fun k => s.get PRT_CROFT_assigned 0 k == 1 && s.get PRT_CROFT_partition 0 k == p && s.get PRT_CROFT_span 0 k == span

/-- What a receiver's Aselo keeps of the end of its pull: a base fill is complete or has lost its source, and a return whose pull failed
leaves a copy to be repaired (R376, R381). (Log 204 DEDUCED) -/
def State.pullNote (s : State) (r : McRecv) (reason : Nat) : State :=
  if nfld r.w4 62 2 = 1 then s
  else
    let ver := fun (v : Ver) => if v.state == 0 && !v.source && v.group == r.group && r.cls == 3 then { v with seen := if reason = 0 then 1 else 2 } else v
    let fix : Fix := ⟨r.root, r.id / 32 % 128, r.w4, (r.final.getD 0) / 8, 0, false⟩
    let job := fun (j : Job) =>
      if reason ≠ 0 ∧ r.cls = 2 ∧ j.ended = 0 ∧ leAt j.payload 56 1 = r.id / 4096 ∧ s.partSpan j.part r.span = true then { j with fixes := j.fixes ++ [fix] } else j
    { s with sys := { s.sys with vers := s.sys.vers.map ver, jobs := s.sys.jobs.map job } }

/-- A pruned receiver is done: it says so to the root, and its stream ends. -/
def State.pullEnd (s0 : State) (d : Nat) (r : McRecv) (reason upTo : Nat) : State :=
  let s := s0.pullNote r reason
  (s.modLok d fun x => { x with recvs := x.recvs.filter fun y => !(y.root == r.root && y.id == r.id) }).notice r.root 6
    (leBytes 2 r.id ++ leBytes 2 reason ++ leBytes 4 upTo ++ List.replicate 56 0)

/-- Pulled blocks of a receiver's buffer are written in ascending mseq, as far as they have arrived (R349); `n` bounds them. -/
def State.pullWrite (s : State) (d root id : Nat) : Nat → State
  | 0 => s
  | n + 1 =>
    match s.recvOf d root id with
    | none => s
    | some r =>
      match r.buf.find? fun b => b.1 == r.got with
      | none => s
      | some b =>
        let bad := s.blockRefuse b.2.1 r.cls (.mcast [] false)
        if bad ≠ 0 then (s.notePresence b.2.1 bad).pullEnd d r 0x0742 r.got
        else
          let r1 := { r with got := r.got + 1, buf := r.buf.filter fun x => x.1 != b.1 }
          let s1 := (s.wrData b.2.1 b.2.2.1 b.2.2.2).modRecv d root id fun _ => r1
          if r.final = some r1.got then s1.pullEnd d r1 0 r1.got else s1.pullWrite d root id n

/-- A pulled block arrives (R349). -/
def State.pullTake (s : State) (d id k root : Nat) (rep : Reply) : State :=
  match s.recvOf d root id with
  | none => s
  | some r =>
    if rep.reason ≠ 0 then s.pullEnd d r 0x0742 r.got
    else
      let buf := r.buf ++ [(k, s.pullOff r k, slice rep.data 0 64, rep.poison)]
      (s.modRecv d root id fun x => { x with buf := buf }).pullWrite d root id buf.length

/-- An outstanding request is answered: its requester takes the answer, and the request is over. -/
def State.outAnswer (s : State) (d : Nat) (o : Out) (rep : Reply) : State :=
  let s1 := s.outDone d o
  match o.who with
  | none => s1
  | some (.pull pd id k) => s1.pullTake pd id k o.dst rep
  | some w => s1.answer w o.b rep

/-- Several outstanding requests fail with one reason, oldest first. -/
def State.outsFail (s : State) (d : Nat) (os : List Out) (code : Nat) : State :=
  os.foldl (fun (s : State) o => s.outAnswer d o ⟨[], false, code⟩) s

/-- READ_RESPONSE (R353). -/
def State.readResponse (s : State) (l r : Nat) : State :=
  match s.rxHead l r with
  | none => s
  | some m =>
    if m.opcode ≠ 2 ∨ m.dst ≠ s.moduleId then s
    else
      let q := s.ansCheck l m
      match q.2 with
      | none => q.1
      | some plain =>
        match s.outFor l m with
        | none => (q.1.bump LNK_DROP_CNT_stale l).rxFree l m
        | some (d, o) =>
          if s.ansCurrent o m = false then (q.1.bump LNK_DROP_CNT_stale l).rxFree l m
          else
            (((q.1.rxPoison l m).rxFree l m).outAnswer d o
              ⟨slice plain 0 (64 * o.b), (List.range m.b).any fun i => m.poison i, 0⟩).rxTagged s l m

/-- ACK (R341): every write and accumulate of the stream up to the acknowledged oseq is complete. -/
def State.ackTake (s : State) (l r : Nat) : State :=
  match s.rxHead l r with
  | none => s
  | some m =>
    if m.opcode ≠ 6 ∨ m.dst ≠ s.moduleId then s
    else
      let q := s.ansCheck l m
      match q.2 with
      | none => q.1
      | some _ =>
        match s.outFor l m with
        | none => (q.1.bump LNK_DROP_CNT_stale l).rxFree l m
        | some (d, o) =>
          if s.ansCurrent o m = false then (q.1.bump LNK_DROP_CNT_stale l).rxFree l m
          else
            let upTo := m.opf % 2 ^ 32
            let mine := (s.lokD d).outs.filter fun x => x.dst == o.dst && x.span == o.span && x.cls == o.cls &&
              (x.opcode == 3 || x.opcode == 4 || x.opcode == 0x11) && decide (x.oseq ≤ upTo)
            mine.foldl (fun (s : State) x => s.outAnswer d x ⟨[], false, 0⟩) (q.1.rxFree l m)

/-! ### The root of a multicast (R348 to R350, R376) -/

/-- Smallest acknowledged mseq of the unpruned receivers; a receiver that has never acknowledged stands at 0. (Log 104 DEDUCED) -/
def State.mcLow (s : State) (d : Nat) (r : McRoot) : Nat :=
  if r.acks.length + r.pruned.length < s.groupRecv d r.group then 0
  else r.acks.foldl (fun a p => Nat.min a p.2) (match r.acks with | p :: _ => p.2 | [] => 0)

/-- Change a root's stream. -/
def State.modRoot (s : State) (d id : Nat) (f : McRoot → McRoot) : State :=
  s.modLok d fun x => { x with roots := x.roots.map fun r => if r.id == id then f r else r }
def State.rootAt (s : State) (d id : Nat) : Option McRoot := (s.lokD d).roots.find? fun r => r.id == id

/-- Channels and entries of a return stream end as done (R376), with the reason of a failure; `returned` goes to every receiver, also where
one of them was lost and repairs its copy. -/
def State.returnDone (s : State) (_d : Nat) (r : McRoot) (code : Nat) : State :=
  if r.origin.isSome ∨ 128 ≤ r.chan then s
  else
    let s1 := (s.put UPD_JOB_STAT_state r.chan 5 r.job).modUpd r.chan r.job fun e => { e with streaming := false }
    let s1 := if code = 0 then s1 else s1.put UPD_JOB_STAT_reason r.chan code r.job
    if code ≠ 0 ∧ code ≠ r.code then s1
    else
      let blk := redMsg (s.entryJob r.chan r.job) (s.get UPD_JOB_STEP_txn_step r.chan r.job) 6 0 0 0 0
      ((r.acks.map (·.1)) ++ r.pruned.map (·.1)).foldl
        (fun (s : State) m => if m = s.moduleId then s else (s.redSend 0 r.part r.gen r.span (.shard r.chan r.job) (globalAddr m aseloOff) blk).1) s1

/-- A root's stream ends with a reason: what waits for it is answered. -/
def State.mcEnd (s : State) (d : Nat) (r : McRoot) (code : Nat) : State :=
  let s1 := s.modLok d fun x => { x with roots := x.roots.filter fun y => y.id != r.id }
  (r.marks.foldl (fun (s : State) p => s.answer p.2.2 p.2.1 ⟨[], false, code⟩) s1).returnDone d r code

/-- Has the skein, or the engine, of a multicast stream emitted its last block. -/
def State.mcEmitted (s : State) (r : McRoot) : Bool :=
  match r.origin with
  | none =>
    if r.chan < 128 then decide (s.runUnits r.chan r.job ≤ (s.updE r.chan r.job).next) && (s.updE r.chan r.job).handed.isEmpty
    else r.final == some r.sent
  | some (c, no) =>
    match s.sk c no with
    | none => true
    | some k => k.ended || k.cancelled || (match k.stages.getLast? with | some st => st.finished && st.outq.isEmpty | none => true)

/-- What follows from a change at the root: the final mseq and the end notices, the marks that every receiver has passed, and the
end of the stream (R349, R350). -/
def State.mcCheck (s : State) (d id : Nat) : State :=
  match s.rootAt d id with
  | none => s
  | some r =>
    let allOut := r.ready.isEmpty && s.mcEmitted r
    let endBlk := leBytes 2 r.id ++ leBytes 2 0 ++ leBytes 4 r.sent ++ List.replicate 56 0
    let s1 := if allOut && !r.ended then r.pruned.foldl (fun (s : State) p => if p.2 then s else s.notice p.1 5 endBlk) s else s
    let low := s.mcLow d r
    let done := r.pruned.all (·.2)
    if allOut && decide (r.sent ≤ low) && done then s1.mcEnd d r r.code
    else
      let waiting := fun (p : Nat × Nat × Who) => decide (low < p.1) || (!done && decide (r.sent + r.ready.length ≤ p.1))
      let change := fun (x : McRoot) => { x with ended := allOut, final := (if allOut then some r.sent else x.final), marks := x.marks.filter waiting }
      (r.marks.filter fun p => !(waiting p)).foldl (fun (s : State) p => s.answer p.2.2 p.2.1 ⟨[], false, 0⟩) (s1.modRoot d id change)

/-- A receiver that reports a broken stream breaks the group's stream at the root, which opens it anew (R344). -/
def State.mcBroken (s : State) (d : Nat) (r : McRoot) (code : Nat) : State :=
  if code = 0x0728 then s.modSrc d (4096 + r.group) r.span r.cls fun e => { e with broken := true } else s

/-- A fault response acts on what it answers (R344). -/
def State.faultAct (s : State) (l : Nat) (m : RxMsg) : State :=
  let q := s.ansCheck l m
  match q.2 with
  | none => q.1
  | some _ =>
    let code := nfld m.opf 0 16
    let s1 := q.1.rxFree l m
    match s.outFor l m with
    | some (d, o) =>
      if s.ansCurrent o m = false then s1.bump LNK_DROP_CNT_stale l
      else if code = 0x0728 then
        let mine := (s.lokD d).outs.filter fun x => x.dst == o.dst && x.span == o.span && x.cls == o.cls &&
          (decide (m.oseq ≤ x.oseq) || x.ttag == o.ttag)
        (s1.modSrc d o.dst o.span o.cls fun e => { e with broken := true }).outsFail d mine code
      else s1.outAnswer d o ⟨[], false, code⟩
    | none =>
      let root := fun d => (s.lokD d).roots.find? fun x => x.ttag == m.ttag
      match root (linkDie l), root (1 - linkDie l) with
      | some x, _ => (s1.mcBroken (linkDie l) x code).mcEnd (linkDie l) x code
      | none, some x => (s1.mcBroken (1 - linkDie l) x code).mcEnd (1 - linkDie l) x code
      | none, none => s1.bump LNK_DROP_CNT_stale l

/-- FAULT_RESPONSE (R344, R524). -/
def State.faultTake (s : State) (l r : Nat) : State :=
  match s.rxHead l r with
  | none => s
  | some m => if m.opcode ≠ 7 ∨ m.dst ≠ s.moduleId then s else (s.faultAct l m).rxTagged s l m

/-- TRANSACTION_TIMEOUT (R351, R511). (Log 4 DESIGN CHOICE) -/
def State.txnTimeout (s : State) (d ttag : Nat) : State :=
  match (s.lokD d).outs.find? fun o => o.ttag == ttag with
  | none => s
  | some o => (s.event 0x0731 0xFFFF (if o.part < 16 then o.part else 0xFF) 0).outAnswer d o ⟨[], false, 0x0731⟩

/-! ### Multicast -/

/-- Links on which a module copies a group's messages, each with its reservation, or with the code of the refusal that it meets there
(R325, R329). -/
def State.groupOut (s : State) (d g span cls : Nat) : List (Nat × Nat × Nat) :=
  ((List.range 24).filter fun l => nbit (s.get LNK_GROUP_links (dieLink d) g) l).map fun l =>
    let st := s.get LNK_CTL_state l
    match s.rsvOf l span cls with
    | none => (l, 0, 0x0726)
    | some r => (l, r, if st = lnkUp ∨ st = lnkRetraining then 0 else 0x0733)

/-- Links and reservations on which copies go out. -/
def State.groupLinks (s : State) (d g span cls : Nat) : List (Nat × Nat) :=
  (s.groupOut d g span cls).filterMap fun p => if p.2.2 = 0 then some (p.1, p.2.1) else none

/-- Why a copy of a root's message is refused at issue, the smallest code; 0 when none is. -/
def State.groupCode (s : State) (d g span cls : Nat) : Nat := smallest ((s.groupOut d g span cls).map fun p => (p.2.2 == 0, p.2.2))

/-- Units that the update engine has handed over join their channel's return stream (R374): the high-half plane of each, in
ascending position. A unit waits while its page is absent or moving (R37). -/
def State.mcFeed (s : State) (d id : Nat) : State :=
  match s.rootAt d id with
  | none => s
  | some r =>
    if r.origin.isSome ∨ 128 ≤ r.chan then s
    else
      let run := s.chNum r.chan (s.recEntry r.chan r.job + 24) 4
      let off := s.get UPD_JOB_RET_copy_off r.chan r.job * 64
      let here := fun (pos : Nat) => s.chHere r.chan ((run + pos) * 2048) 512
      let go := (s.updE r.chan r.job).handed.takeWhile here
      let blocks := go.flatMap fun pos => (List.range 8).map fun b =>
        let a := chanOffset r.chan ((run + pos) * 2048 + 64 * b)
        (off + 512 * pos + 64 * b, s.rdMem a 64, s.rdPoison a 64)
      let s1 := go.foldl (fun (s : State) pos => s.chNote r.chan ((run + pos) * 2048) 512) s
      let s2 := if ((s.updE r.chan r.job).handed.drop go.length).isEmpty then s1 else s1.bump HBM_FAULT_CNT_presence r.chan
      (s2.modRoot d id fun x => { x with ready := x.ready ++ blocks }).modUpd r.chan r.job fun e => { e with handed := e.handed.drop go.length }

/-- Why a receiver refuses a multicast block of b blocks at a global address: its group entry must name the root, span and class, and the
offset passes check 5 (R346, R46, R50 to R52). (Log 201 DEDUCED) -/
def State.mcRefuse (s : State) (d g root span cls addr b : Nat) : Nat :=
  let u := dieLink d
  if s.get LNK_GROUP_valid u g == 1 && s.get LNK_GROUP_root u g == root && s.get LNK_GROUP_span u g == span && s.get LNK_GROUP_class u g == cls
  then s.remoteCheck 5 addr b span else 0x0721

/-- Why the root's own copy of n blocks is refused, with the offset: its entry must have local set (R346). (Log 201 DEDUCED) -/
def State.mcOwn (s : State) (d : Nat) (r : McRoot) (off n : Nat) : Option (Nat × Nat) :=
  if s.get LNK_GROUP_local (dieLink d) r.group = 0 then some (off, 0x0721)
  else
    let code := s.mcRefuse d r.group s.moduleId r.span r.cls (globalAddr r.group off) n
    if code ≠ 0 then some (off, code) else (s.rangeRefuse off n r.cls (.mcast [] false)).map fun p => (off + 64 * p.1, p.2)

/-- Blocks at the head of a list whose offsets follow the first's within one access unit (R51). -/
def runBlocks (a : Nat) : List (Nat × List Byte × Bool) → Nat → Nat
  | [], n => n
  | b :: t, n => if b.1 = a + 64 * n ∧ sameUnit a (b.1 + 63) = true then runBlocks a t (n + 1) else n

/-- Blocks of the next message of a stream: a run of a skein's tile, at most 32 blocks of a base image, or 1 to 4 whole units of a return
(R374). (Log 51 DESIGN CHOICE) -/
def McRoot.msgLen (r : McRoot) : Nat :=
  let limit := match r.origin, r.marks.find? fun p => decide (r.sent < p.1) with
    | some _, some p => p.1 - r.sent
    | _, _ => 32
  match r.ready with
  | [] => 0
  | b :: _ => Nat.min limit (runBlocks b.1 r.ready 0)

/-- Does the window keep the next message back (R348). -/
def State.mcHeld (s : State) (d : Nat) (r : McRoot) : Bool := decide (s.mcLow d r + 1024 < r.sent + r.msgLen)

/-- A message of the stream goes out to the links of the group, and onto the root's own memory. -/
def State.mcGo (s : State) (d key : Nat) (r : McRoot) (e : SrcStream) : State :=
  let n := r.msgLen
  let off := match r.ready with | b :: _ => b.1 | [] => 0
  let go := r.ready.take n
  let next := if e.broken then 0 else e.next
  let had := ((s.lokD d).findSrc (4096 + r.group) r.span r.cls).isSome
  let s1 := if had then s.modSrc d (4096 + r.group) r.span r.cls fun e => { e with next := next + 1, broken := false }
    else s.modLok d fun x => { x with src := x.src ++ [{ e with next := 1 }] }
  let m : Send :=
    { cls := r.cls, span := r.span, dst := r.group, opcode := 5, gen := r.gen, part := r.part,
      addr := globalAddr r.group off, opf := r.sent % 2 ^ 32 + r.id * 2 ^ 32, blocks := go.map (·.2.1), poison := go.map (·.2.2),
      b := n, who := none, ttag := some r.ttag, oseq := none }
  let s2 := s1.lokEmit d (s.groupLinks d r.group r.span r.cls) key m 0 r.ttag (next % 2 ^ 32) (next == 0)
  let s3 := (go.foldl (fun (s : State) b => s.wrData b.1 b.2.1 b.2.2) s2).modRoot d r.id fun x =>
    { x with ready := r.ready.drop n, sent := r.sent + n, landed := r.sent + n,
             acks := x.acks.map fun p => if p.1 = s.moduleId then (p.1, r.sent + n) else p }
  s3.mcCheck d r.id

/-- The next message that is ready and lies within the window goes out (R347, R348). -/
def State.mcSendBlock (s0 : State) (d id : Nat) : State :=
  let s := s0.mcFeed d id
  match s.rootAt d id with
  | none => s
  | some r =>
    match r.ready with
    | [] => s.mcCheck d id
    | b :: _ =>
      if s.mcHeld d r then s
      else
        let code := s.groupCode d r.group r.span r.cls
        let src := (s.lokD d).findSrc (4096 + r.group) r.span r.cls
        match s.mcOwn d r b.1 r.msgLen with
        | some p => (s.notePresence p.1 p.2).mcEnd d r p.2
        | none =>
          if code ≠ 0 then s.mcEnd d r code
          else if src.isNone && decide (streamCap ≤ (s.lokD d).src.length) then s.mcEnd d r 0x0727
          else
            match s.sendSlot r.cls r.span with
            | none => s.mcEnd d r 0x072A
            | some key => s.mcGo d key r (src.getD ⟨4096 + r.group, r.span, r.cls, 0, false, []⟩)

/-- The next n blocks of a multicast write land (R341, R347). -/
def State.mcLand (s : State) (l : Nat) (m : RxMsg) (v : McRecv) (plain : List Byte) (n : Nat) : State :=
  let off := m.addr % 2 ^ 46
  let at_ := off + 64 * m.done
  match s.rangeRefuse at_ n m.cls (.mcast [] false) with
  | some (i, c) => (s.notePresence (at_ + 64 * i) c).lokRefuse l m c false
  | none =>
    let s1 := ((s.inSpend m n).putBlocks at_ (2 ^ 64 - 1) ((List.range n).map fun i => (slice plain (64 * (m.done + i)) 64, m.marks (m.done + i))) 0).modRecv
      (linkDie l) v.root v.id fun (x : McRecv) => { x with landed := x.landed + n, ackDie := ansDie l m, ackTtag := m.ttag, ackSeq := m.oseq }
    if m.done + n < m.b then s1.rxMod l m.rsv fun x => { x with done := x.done + n } else (s1.rxPoison l m).rxFree l m

/-- Does a receiver's stream hold a landing buffer: blocks of it are not yet acknowledged, or it pulls (R347). (Log 202 DESIGN CHOICE) -/
def McRecv.holds (v : McRecv) : Bool := v.pruned || v.acked != v.landed

/-- Is a receiver's stream over, as its root starts another under the same identifier. (Log 202 DESIGN CHOICE) -/
def McRecv.spent (v : McRecv) (mseq done : Nat) : Bool := mseq == 0 && done == 0 && v.landed != 0 && !v.pruned

/-- MULTICAST_WRITE: copied to the links of the group's entry, and landed in mseq order where the entry says so (R346, R347). -/
def State.mcReceive (s : State) (l r : Nat) : State :=
  match s.rxHead l r with
  | none => s
  | some m =>
    if m.opcode ≠ 5 then s
    else
      let d := linkDie l
      let u := dieLink d
      let g := m.dst
      let id := nfld m.opf 32 16
      let mseq := nfld m.opf 0 32
      let s0 := if m.passed ∨ s.get LNK_GROUP_valid u g = 0 then s else
        (s.groupOut d g m.span m.cls).foldl (fun (s : State) p =>
          if p.1 = l then s
          else if p.2.2 ≠ 0 then s.lokAnswer d l m 7 (p.2.2 + 2 ^ 16 * m.oseq) 0 [] []
          else s.linkPut p.1 (mkFlits m.cls m.hdr p.2.1 m.words)) s
      if s.get LNK_GROUP_valid u g = 1 ∧ s.get LNK_GROUP_local u g = 0 then s0.rxFree l m
      else
        let q := s0.reqCheck l m
        match q.2 with
        | none => q.1
        | some plain =>
          let s1 := q.1
          let off := m.addr % 2 ^ 46
          let code := s1.mcRefuse d g m.src m.span m.cls m.addr m.b
          if code ≠ 0 then s1.lokRefuse l m code
          else
            let known := match s1.recvOf d m.src id with | some v => !(v.spent mseq m.done) | none => false
            if !known && decide (32 ≤ ((s1.lokD d).recvs.filter McRecv.holds).length) then s1
            else
              let fresh : McRecv := ⟨m.src, id, g, m.cls, m.span, m.gen, 0, 0, [], false, 0, 0, none, 0, 0, 0, 0, 0⟩
              let s2 := if known then s1 else s1.modLok d fun x =>
                { x with recvs := (x.recvs.filter fun v => !(v.root == m.src && v.id == id)) ++ [fresh] }
              match s2.recvOf d m.src id with
              | none => s2
              | some v =>
                if v.pruned ∨ mseq + m.done ≠ v.landed then s2.rxFree l m
                else if m.cls = 1 ∧ isHbm off = true ∧ s2.get LNK_INRSV_depth (dieLink (croftDie (hbmCroft off))) (hbmCroft off % 8) = 0 then
                  s2.lokRefuse l m 0x0726
                else if s2.boundary off = false then (s2.stale (memCroft off)).rxFree l m
                else if s2.inAdmit m = 0 ∧ m.done < m.b then s2
                else s2.mcLand l m v plain (s2.inAdmit m)

/-- MULTICAST_ACK_SEND (R347). -/
def State.mcAckSend (s : State) (d root id : Nat) : State :=
  match s.recvOf d root id with
  | none => s
  | some v =>
    if v.landed = v.acked ∨ v.pruned then s
    else
      (s.modRecv d root id fun x => { x with acked := x.landed }).lokReply v.ackDie (dieLink d)
        { cls := v.cls, span := v.span, dst := root, opcode := 8, gen := v.gen, part := 16, addr := 0, opf := v.landed + id * 2 ^ 32, blocks := [],
          poison := [], b := 0, who := none, ttag := some v.ackTtag, oseq := some v.ackSeq }

/-- Record an acknowledged mseq of a receiver. -/
def ackPut (l : List (Nat × Nat)) (m v : Nat) : List (Nat × Nat) :=
  if l.any fun p => p.1 == m then l.map fun p => if p.1 = m then (m, Nat.max p.2 v) else p else l ++ [(m, v)]

/-- I/O die that holds a root's stream. -/
def State.rootDie (s : State) (l id : Nat) : Nat := if (s.rootAt (linkDie l) id).isSome then linkDie l else 1 - linkDie l

/-- MULTICAST_ACK (R348). -/
def State.mcAck (s : State) (l r : Nat) : State :=
  match s.rxHead l r with
  | none => s
  | some m =>
    if m.opcode ≠ 8 ∨ m.dst ≠ s.moduleId then s
    else
      let q := s.ansCheck l m
      match q.2 with
      | none => q.1
      | some _ =>
        let id := nfld m.opf 32 16
        let d := s.rootDie l id
        match s.rootAt d id with
        | none => (q.1.bump LNK_DROP_CNT_stale l).rxFree l m
        | some x =>
          if x.gen ≠ m.gen ∨ s.genOk x.part x.gen = false then (q.1.bump LNK_DROP_CNT_stale l).rxFree l m
          else if x.pruned.any fun p => p.1 == m.src then q.1.rxFree l m
          else ((q.1.rxFree l m).modRoot d id fun x => { x with acks := ackPut x.acks m.src (nfld m.opf 0 32) }).mcCheck d id

/-- PRUNE_TIMEOUT (R348, R349): the receivers that hold the smallest value are pruned; the root never is. A receiver that has
never acknowledged is not known by name. (Log 104 DEDUCED, 166 DEDUCED) -/
def State.pruneTimeout (s : State) (d id : Nat) : State :=
  match s.rootAt d id with
  | none => s
  | some r =>
    let low := s.mcLow d r
    if r.ready.isEmpty ∨ s.mcHeld d r = false then s
    else
      let slow := r.acks.filter fun p => p.2 == low && p.1 != s.moduleId
      let unknown := s.groupRecv d r.group - (r.acks.length + r.pruned.length)
      let blank := if low = 0 then List.replicate unknown ((0xFFFF, false) : Nat × Bool) else []
      let s1 := slow.foldl (fun (s : State) p =>
        let blk := leBytes 2 r.id ++ leBytes 2 0 ++ leBytes 4 p.2 ++ leBytes 8 r.w4 ++ leBytes 8 r.w5 ++ List.replicate 40 0
        let next := match (s.lokD 0).findSrc p.1 0 0 with | some e => if e.broken then 0 else e.next % 2 ^ 32 | none => 0
        (s.notice p.1 4 blk).raise { Event.plain 0x07F3 0 (if r.part < 16 then r.part else 0xFF) r.gen 0xFFFF 0
            (packDetail [(p.1, 2), (p.2, 4)]) with tag := evTag p.1 0 true, oseq := next, tflags := 2 * b2n (next == 0) }) s
      let lostEv := Event.plain 0x07F3 0 (if r.part < 16 then r.part else 0xFF) r.gen 0xFFFF 0 (packDetail [(0xFFFF, 2), (0, 4)])
      let s1 := blank.foldl (fun (s : State) _ => s.raise lostEv) s1
      (s1.modRoot d id fun x => { x with acks := x.acks.filter fun p => !(slow.contains p),
                                         pruned := x.pruned ++ slow.map (fun p => (p.1, false)) ++ blank }).mcCheck d id

/-! ### Notices (R352, R559, R560) -/

/-- Does a notice block hold zero outside the bytes of its subtype (Table 12.26). (Log 208 DEDUCED) -/
def noticeOk (subtype : Nat) (b : List Byte) : Bool :=
  if subtype = 4 then zeroAt b 2 2 && zeroAt b 24 40 else if subtype = 5 then zeroAt b 2 2 && zeroAt b 8 56
  else if subtype = 6 then zeroAt b 8 56 else true

/-- A management notice addressed to this module that passes its checks: its block. A reserved subtype fails check 2 under any of the
commands. (Log 208 DEDUCED) -/
def State.noticeTake (s : State) (l r subtype : Nat) : State × Option (RxMsg × List Byte) :=
  match s.rxHead l r with
  | none => (s, none)
  | some m =>
    if m.opcode ≠ 0x10 ∨ m.dst ≠ s.moduleId ∨ (m.opf ≠ subtype ∧ 1 ≤ m.opf ∧ m.opf ≤ 6) then (s, none)
    else
      let q := s.reqCheck l m
      match q.2 with
      | none => (q.1, none)
      | some p =>
        if noticeOk subtype p then (q.1.rxFree l m, some (m, p))
        else ((q.1.bump LNK_DROP_CNT_malformed l).lokRefuse l m 0x0729, none)

/-- PRUNE (R349): later blocks are dropped, and what the landing buffer holds unwritten is discarded. -/
def State.pruneTake (s : State) (l r : Nat) : State :=
  let q := s.noticeTake l r 4
  match q.2 with
  | none => q.1
  | some (m, b) =>
    let d := linkDie l
    let id := leAt b 0 2
    let start := leAt b 4 4
    let upd := fun (v : McRecv) => { v with pruned := true, buf := [], pulled := start, got := start, w4 := leAt b 8 8, w5 := leAt b 16 8 }
    let die := if (s.recvOf d m.src id).isSome then d else 1 - d
    if (s.recvOf die m.src id).isSome then q.1.modRecv die m.src id upd else q.1

/-- END_OF_STREAM (R349): the missing blocks are pulled. -/
def State.endTake (s : State) (l r : Nat) : State :=
  let q := s.noticeTake l r 5
  match q.2 with
  | none => q.1
  | some (m, b) =>
    let d := linkDie l
    let id := leAt b 0 2
    let fin := leAt b 4 4
    let die := if (s.recvOf d m.src id).isSome then d else 1 - d
    match s.recvOf die m.src id with
    | none => q.1
    | some v =>
      let s1 := q.1.modRecv die m.src id fun x => { x with final := some fin }
      if fin ≤ v.pulled then s1.pullEnd die v 0 fin
      else
        let p := s1.pullIssue die v (fin - v.pulled)
        if p.2 ≠ 0 then p.1.pullEnd die v 0x0742 v.got else p.1

/-- A receiver of a stream is lost (R350, R376): a skein's stream ends with the reason; an engine's goes on without the receiver, and
ends with it. (Log 203 DEDUCED) -/
def State.mcLost (s : State) (d : Nat) (r : McRoot) (m code : Nat) : State :=
  if r.origin.isSome then s.mcEnd d r code
  else
    (s.modRoot d r.id fun x =>
      { x with acks := x.acks.filter (fun p => p.1 != m), pruned := x.pruned.filter (fun p => p.1 != m) ++ [(m, true)], code := code }).mcCheck d r.id

/-- PULL_DONE (R350). -/
def State.pullDone (s : State) (l r : Nat) : State :=
  let q := s.noticeTake l r 6
  match q.2 with
  | none => q.1
  | some (m, b) =>
    let id := leAt b 0 2
    let d := s.rootDie l id
    match s.rootAt d id with
    | none => q.1
    | some x =>
      if leAt b 2 2 ≠ 0 then q.1.mcLost d x m.src 0x0742
      else (q.1.modRoot d id fun y => { y with pruned := y.pruned.map fun p => if p.1 = m.src then (p.1, true) else p }).mcCheck d id

/-- Leave or join copies on the other links: on each that is up, or, for a join, when it comes up. -/
def State.flood (s : State) (from_ subtype m inc : Nat) : State :=
  (List.range 24).foldl (fun (s : State) l =>
    if l = from_ then s
    else if s.get LNK_CTL_state l = lnkUp then s.hopNotice l subtype m inc
    else if subtype = 3 then s.modLink l fun x => { x with joinDue := x.joinDue ++ [(m, inc)] } else s) s

/-- What a module's leaving does (R352): its outstanding work fails, its stream entries are freed, and its receivers are lost. -/
def State.moduleLeft (s : State) (m : Nat) : State :=
  let fail := fun (s : State) d => s.outsFail d ((s.lokD d).outs.filter fun o => o.dst == m) 0x0725
  let s1 := fail (fail { s with left := if s.left.contains m then s.left else s.left ++ [m] } 0) 1
  let clean := fun (s : State) d => s.modLok d fun x =>
    { x with src := x.src.filter (fun e => e.dst != m), tgt := x.tgt.filter (fun e => e.src != m), recvs := x.recvs.filter fun v => v.root != m }
  let orphan := fun (s : State) d => (s.lokD d).recvs.any fun v => v.root == m && v.cls == 3
  let gone := fun (v : Ver) =>
    if (orphan s1 0 || orphan s1 1) && v.state == 0 && !v.source && v.seen == 0 &&
        [0, 1].any (fun d => (s1.lokD d).recvs.any fun r => r.root == m && r.group == v.group && !(v.olds.contains (r.root, r.id)))
    then { v with seen := 2 } else v
  let s2 := clean (clean { s1 with sys := { s1.sys with vers := s1.sys.vers.map gone } } 0) 1
  let lost := fun (s : State) d =>
    ((s.lokD d).roots.filter fun r => r.acks.any (fun p => p.1 == m) || r.pruned.any (fun p => p.1 == m && !p.2)).foldl
      (fun (s : State) r => s.mcLost d r m 0x0725) s
  lost (lost s2 0) 1

/-- LEAVE and JOIN: taken from the link after checks 1 to 3, once for each module and incarnation. -/
def State.hopTake (s : State) (l r subtype : Nat) : State :=
  match s.rxHead l r with
  | none => s
  | some m =>
    if m.opcode ≠ 0x10 ∨ m.opf ≠ subtype then s
    else
      let q := s.ansCheck l m
      match q.2 with
      | none => q.1
      | some b =>
        let who := leAt b 0 2
        let inc := leAt b 4 4
        let s1 := q.1.rxFree l m
        if s.notices.contains (subtype, who, inc) ∨ who = s.moduleId then s1
        else
          let s2 := { s1 with notices := s1.notices ++ [(subtype, who, inc)] }
          if subtype = 2 then
            (((s2.raise (Event.plain 0x07F4 0 0xFF 0 l 0 (packDetail [(who, 2), (inc, 4)]))).moduleLeft who).flood l 2 who inc).rxTagged
              s l m
          else ({ s2 with left := s2.left.filter (· != who) }).flood l 3 who inc

/-- ASELO_RELAY (R559): the contents are Aselo's own; whether this Aselo can interpret them is left open. (Log 110 DESIGN CHOICE) -/
def State.relayTake (s : State) (l r : Nat) : State :=
  let q := s.noticeTake l r 1
  match q.2 with
  | none => q.1
  | some (m, b) =>
    let s1 := { q.1 with opens := s.opens + 1 }
    if Config.free 559 s.opens m.src 0 % 2 = 0 then { s1 with relays := s1.relays ++ [(m.src, b)] }
    else (s1.event 0x0906 l 0xFF 0).rxTagged s l m

/-! ### The commands -/

/-- MESSAGE_FORWARD (R331). -/
def execMessageForward (l : Lnk) (r : Fin 64) (s : State) : Host.Outcome State Fault Refusal := .next (s.lokForward l r)

/-- READ_REQUEST (R340). -/
def execReadRequest (l : Lnk) (r : Fin 64) (s : State) : Host.Outcome State Fault Refusal := .next (s.remoteOp l r 1)

/-- REMOTE_WRITE (R340). -/
def execRemoteWrite (l : Lnk) (r : Fin 64) (s : State) : Host.Outcome State Fault Refusal := .next (s.remoteOp l r 3)

/-- ACCUMULATE (R361). -/
def execAccumulate (l : Lnk) (r : Fin 64) (s : State) : Host.Outcome State Fault Refusal := .next (s.remoteOp l r 4)

/-- PULL_READ (R349). -/
def execPullRead (l : Lnk) (r : Fin 64) (s : State) : Host.Outcome State Fault Refusal := .next (s.remoteOp l r 9)

/-- CLOSE (R342). -/
def execClose (l : Lnk) (r : Fin 64) (s : State) : Host.Outcome State Fault Refusal := .next (s.lokClose l r)

/-- READ_RESPONSE (R353). -/
def execReadResponse (l : Lnk) (r : Fin 64) (s : State) : Host.Outcome State Fault Refusal := .next (s.readResponse l r)

/-- ACK (R341). -/
def execAck (l : Lnk) (r : Fin 64) (s : State) : Host.Outcome State Fault Refusal := .next (s.ackTake l r)

/-- ACK_SEND (R341). -/
def execAckSend (d : Die) (src span cls : Nat) (s : State) : Host.Outcome State Fault Refusal := .next (s.ackSend d src span cls)

/-- MULTICAST_WRITE (R347). -/
def execMulticastWrite (l : Lnk) (r : Fin 64) (s : State) : Host.Outcome State Fault Refusal := .next (s.mcReceive l r)

/-- MULTICAST_ACK (R348). -/
def execMulticastAck (l : Lnk) (r : Fin 64) (s : State) : Host.Outcome State Fault Refusal := .next (s.mcAck l r)

/-- MULTICAST_ACK_SEND (R347). -/
def execMulticastAckSend (d : Die) (root id : Nat) (s : State) : Host.Outcome State Fault Refusal := .next (s.mcAckSend d root id)

/-- MULTICAST_BLOCK_SEND (R348). -/
def execMulticastBlockSend (d : Die) (id : Nat) (s : State) : Host.Outcome State Fault Refusal := .next (s.mcSendBlock d id)

/-- FAULT_RESPONSE (R344). -/
def execFaultResponse (l : Lnk) (r : Fin 64) (s : State) : Host.Outcome State Fault Refusal := .next (s.faultTake l r)

/-- PRUNE_TIMEOUT (R348). -/
def execPruneTimeout (d : Die) (id : Nat) (s : State) : Host.Outcome State Fault Refusal := .next (s.pruneTimeout d id)

/-- PRUNE (R349). -/
def execPrune (l : Lnk) (r : Fin 64) (s : State) : Host.Outcome State Fault Refusal := .next (s.pruneTake l r)

/-- END_OF_STREAM (R349). -/
def execEndOfStream (l : Lnk) (r : Fin 64) (s : State) : Host.Outcome State Fault Refusal := .next (s.endTake l r)

/-- PULL_DONE (R350). -/
def execPullDone (l : Lnk) (r : Fin 64) (s : State) : Host.Outcome State Fault Refusal := .next (s.pullDone l r)

/-- TRANSACTION_TIMEOUT (R351). -/
def execTransactionTimeout (d : Die) (ttag : Nat) (s : State) : Host.Outcome State Fault Refusal := .next (s.txnTimeout d ttag)

/-- LEAVE (R352). -/
def execLeave (l : Lnk) (r : Fin 64) (s : State) : Host.Outcome State Fault Refusal := .next (s.hopTake l r 2)

/-- JOIN (R352). -/
def execJoin (l : Lnk) (r : Fin 64) (s : State) : Host.Outcome State Fault Refusal := .next (s.hopTake l r 3)

/-- ASELO_RELAY (R559). -/
def execAseloRelay (l : Lnk) (r : Fin 64) (s : State) : Host.Outcome State Fault Refusal := .next (s.relayTake l r)

end Sys2Proof.Machine
end

