-- ==== Sys2Proof/Machine/UpdCmds.lean ====
section
/-!
DEFINITION. The commands of the home channels' update path (chapter "Rank-ordered reduction, parameter return and weight
distribution") that need no job of Aselo's: the engine, its enables, its timers, the norm root and the return streams.
-/
namespace Sys2Proof.Machine

open Sys2Proof

/-- Where a reduction-control message comes from: the head of a reservation of a link, or the module itself. -/
abbrev RedFrom := Option (Lnk × Fin 64)

/-- Take a reduction-control message of a subtype: offset and block. -/
def State.redTake (s : State) (m : RedFrom) (subtype : Nat) : State × Option (Nat × List Byte) :=
  match m with
  | some (l, r) => s.redReceive l r subtype
  | none =>
    match s.redIn.find? fun p => leAt p.2 8 2 == subtype with
    | none => (s, none)
    | some p => ({ s with redIn := lrem (fun q => leAt q.2 8 2 == subtype) s.redIn }, some p)

/-- A message to a record-table entry: the channel and job entry act on it. -/
def State.redAtEntry (s : State) (m : RedFrom) (subtype : Nat) (f : State → Nat → Nat → List Byte → State) : State :=
  let q := s.redTake m subtype
  match q.2 with
  | none => q.1
  | some (off, blk) => match q.1.entryAt off with
    | none => q.1
    | some (ch, n) => f q.1 ch n blk

/-- Identifier of a channel's return stream (R374). -/
def returnId (ch n txn : Nat) : Nat := n * 4096 + ch * 32 + txn % 32

/-- Entries of an I/O die's channels whose return has units to carry and no stream yet, in ascending channel number. -/
def State.returnDue (s : State) (d : Nat) : List (Nat × Nat) :=
  (s.upd.filter fun p => p.1 / 16 / 64 == d && !p.2.streaming && !p.2.handed.isEmpty).map fun p => (p.1 / 16, p.1 % 16)

/-- RETURN_STREAM_START: at most four return streams on an I/O die. -/
def State.returnStart (s : State) (d : Nat) : State :=
  match s.returnDue d with
  | [] => s
  | (ch, n) :: _ =>
    if 4 ≤ ((s.lokD d).roots.filter fun r => r.origin.isNone && decide (r.chan < 128)).length then s
    else
      let id := returnId ch n (s.get UPD_JOB_STEP_txn_step ch n)
      let r : McRoot :=
        { id := id, ttag := s.freshTag d, group := s.get UPD_JOB_RET_group ch n, cls := 2, span := s.chSpan ch, gen := s.chGen ch,
          part := s.chPart ch, origin := none, chan := ch, job := n, w4 := s.get UPD_JOB_RET_copy_off ch n * 64, w5 := 0, ready := [], sent := 0,
          final := none, marks := [], acks := [(s.moduleId, 0)], pruned := [], landed := 0, ended := false, code := 0 }
      (s.modLok d fun x => { x with nextTtag := (r.ttag + 1) % 65536, roots := x.roots ++ [r] }).modUpd ch n fun e => { e with streaming := true }

/-! ### The commands -/

/-- UPD_CMD_APPLY (R301). -/
def execUpdCmdApply (ch : Chan) (v : Word) (s : State) : Host.Outcome State Fault Refusal := .next (s.updApply ch (nfld v.toNat 0 4))

/-- UPD_CMD_VOID (R371). -/
def execUpdCmdVoid (ch : Chan) (v : Word) (s : State) : Host.Outcome State Fault Refusal := .next (s.updCmdVoid ch (nfld v.toNat 0 4))

/-- UPD_CTL_EN (R384). -/
def execUpdCtlEn (ch : Chan) (v : Word) (s : State) : Host.Outcome State Fault Refusal :=
  .next (s.enable UPD_CTL_en UPD_CTL_reason ch 0 0 v (updCtlChecks ch))

/-- UPD_JOB_VALID (R384). -/
def execUpdJobValid (ch : Chan) (n : Part) (v : Word) (s : State) : Host.Outcome State Fault Refusal := .next (s.updJobEnable ch n v)

/-- RANK_WAIT_EXPIRY (R365). -/
def execRankWaitExpiry (ch : Chan) (n : Part) (s : State) : Host.Outcome State Fault Refusal := .next (s.rankWait ch n)

/-- SHARD_SEND (R366). -/
def execShardSend (ch : Chan) (n : Part) (s : State) : Host.Outcome State Fault Refusal := .next (s.shardSend ch n)

/-- SHARD_COMPLETE (R367). -/
def execShardComplete (m : Option (Lnk × Fin 64)) (s : State) : Host.Outcome State Fault Refusal :=
  .next (s.redAtEntry m 1 fun s ch n b => s.shardTake ch n b)

/-- SHARD_WAIT_EXPIRY (R367). -/
def execShardWaitExpiry (ch : Chan) (n : Part) (s : State) : Host.Outcome State Fault Refusal := .next (s.shardWait ch n)

/-- RETURN_STREAM_START (R374). -/
def execReturnStreamStart (d : Die) (s : State) : Host.Outcome State Fault Refusal := .next (s.returnStart d)

end Sys2Proof.Machine
end

