-- ==== Sys2Proof/Machine/Chan.lean ====
section
/-!
DEFINITION. The command channels (chapter "Host attachment and command channels"): doorbells, slot reads, acceptance, the
duplicate window, references, completions and closing.
-/
namespace Sys2Proof.Machine

open Sys2Proof

/-! ### Partitions as Aselo keeps them (Tables 16.2 and 16.5) -/

/-- The manager as an owner. -/
def manager : Nat := 16

/-- Aselo's record of a partition. -/
def State.part (s : State) (p : Nat) : PartInfo := tget PartInfo.init s.sys.parts p

/-- Change Aselo's own state. -/
def State.modSys (s : State) (f : Aselo → Aselo) : State := { s with sys := f s.sys }

/-- Change Aselo's record of a partition. -/
def State.modPart (s : State) (p : Nat) (f : PartInfo → PartInfo) : State :=
  s.modSys fun x => { x with parts := tmod PartInfo.init x.parts p f }

/-- A field of the applied PART_CREATE payload. -/
def State.pf (s : State) (p off n : Nat) : Nat := leAt (s.part p).payload off n

/-- Does a partition exist. -/
def State.partExists (s : State) (p : Nat) : Bool := decide (p < 16) && s.get PRT_PART_CTL_state 0 p != 0

/-- Crofts of a partition in alias order (R41: ascending physical number). -/
def State.partCrofts (s : State) (p : Nat) : List Nat := (List.range 16).filter fun k => nbit (s.get PRT_PART_CTL_crofts 0 p) k

/-- Service pages of alias croft j (R456). -/
def State.servicePages (s : State) (p j : Nat) : Nat := cdiv (25 * s.pf p 6 1) 32 + (if j = 0 then cdiv (s.pf p 12 2) 16 else 0)

/-- First service page of alias croft j. -/
def State.serviceBase (s : State) (p j : Nat) : Nat := 6144 - s.pf p 8 2 - s.servicePages p j

/-- First page above the bale pages of alias croft j. -/
def State.balePages (s : State) (p j : Nat) : Nat := s.serviceBase p j - (if j = 0 then s.pf p 10 2 else 0)

/-- Module-local offset of byte `o` of a croft's HBM3. -/
def croftOff (k o : Nat) : Nat := hbmBase + k * croftBytes + o

/-- Module-local offset of byte `o` of a partition's staging area, inside the area only (R395). -/
def State.stagingOff (s : State) (p o : Nat) : Option Nat :=
  match s.partCrofts p with
  | [] => none
  | k :: _ => if o < s.pf p 10 2 * 2 ^ 21 then some (croftOff k (s.balePages p 0 * 2 ^ 21 + o)) else none

/-! ### A channel -/

/-- Owner of a channel: its partition, or the manager. -/
def State.chOwner (s : State) (ch : Nat) : Nat := if s.get CHN_CTL_manager ch = 1 then manager else s.get CHN_CTL_partition ch

/-- Slots of the submission ring and entries of the completion ring. -/
def State.sqSlots (s : State) (ch : Nat) : Nat := 2 ^ (s.get CHN_CTL_sq_order ch + 4)
def State.cqEntries (s : State) (ch : Nat) : Nat := 2 ^ (s.get CHN_CTL_cq_order ch + 4)

/-- Difference of two sequence numbers modulo 2^32. -/
def seqDiff (a b : Nat) : Nat := (a + 2 ^ 32 - b % 2 ^ 32) % 2 ^ 32

/-- Next sequence number. -/
def seqNext (a : Nat) : Nat := (a + 1) % 2 ^ 32

/-- Place of sequence number `q` in a ring of `n` (R400). -/
def ringPlace (q n : Nat) : Nat := seqDiff q 1 % n

/-- An access to host memory made for a channel. -/
def State.chAcc (s : State) (ch : Nat) (who : Who) (iova : Nat) (op : HostOp) : HostAcc :=
  let p := s.chOwner ch
  ⟨who, p, if p < 16 then s.get PRT_PART_CTL_gen 0 p else 0, s.get CHN_CTL_pasid ch, iova, op⟩

/-- IOVA of a slot. -/
def State.slotAddr (s : State) (ch cseq : Nat) : Nat := s.get CHN_SQ_BASE_base ch * 4096 + ringPlace cseq (s.sqSlots ch) * 128

/-- IOVA of a completion entry. -/
def State.cplAddr (s : State) (ch q : Nat) : Nat := s.get CHN_CQ_BASE_base ch * 4096 + ringPlace q (s.cqEntries ch) * 32

/-! ### The channel bucket of a partition (R401, R213) -/

/-- Tokens missing from a partition's bucket now, in 1/65,536 block. (Log 63 DEDUCED) -/
def State.chMissing (s : State) (p : Nat) : Nat :=
  tget 0 s.pcie.tok p - s.get PCI_CHRATE_rate 0 p * (memCycle s.tick - tget 0 s.pcie.tokAt p)

/-- May an owner's channels move n blocks: the manager's are not regulated. (Log 63 DEDUCED) -/
def State.chRoom (s : State) (p n : Nat) : Bool := decide (16 ≤ p) || decide (n * 65536 + s.chMissing p ≤ s.get PCI_CHRATE_depth 0 p * 65536)

/-- Spend the tokens of n blocks. (Log 63 DEDUCED) -/
def State.chSpend (s : State) (p n : Nat) : State :=
  if 16 ≤ p then s
  else s.modPcie fun x => { x with tok := tset 0 x.tok p (s.chMissing p + n * 65536), tokAt := tset 0 x.tokAt p (memCycle s.tick) }

/-- Does a channel fetch: open, not halted, not closing, and the link not lost (Table 14.6). -/
def State.chFetches (s : State) (ch : Nat) : Bool :=
  s.get CHN_CTL_open ch == 1 && s.get PCI_LINK_STAT_up 0 == 1 && s.get CHN_CTL_halted ch == 0 && (s.hch ch).closing.isNone

/-! ### Completions (R411 to R416) -/

/-- Queue a completion. -/
def State.cplPut (s : State) (ch : Nat) (c : Cpl) : State := s.modCh ch fun x => { x with wait := x.wait ++ [c] }

/-- The reposts of a final completion for its duplicates; the last one returns the original's buffer as well as its own. -/
def reposts (c : Cpl) : List (Nat × Bool) → List Cpl
  | [] => []
  | d :: t => { c with cseq := d.1, irq := d.2, repost := true, frees := if t.isEmpty then 2 else 1 } :: reposts c t

/-- Post a command's final completion: its window entry keeps it, the duplicates attached to it follow at once (R416). -/
def State.chanFinal (s : State) (ch cseq reason result outLen : Nat) : State :=
  match (s.hch ch).cmds.find? fun c => c.cseq == cseq with
  | none => s
  | some c =>
    let f : Cpl := { client := c.client, cseq := cseq, reason := reason, final := true, repost := false, torn := false, result := result,
                     outLen := outLen, irq := nbit c.flags 1, frees := if c.dups.isEmpty then 1 else 0 }
    s.modCh ch fun x =>
      let fin := fun (w : Nat × Option Cpl) => if c.client != 0 && w.1 == c.client && w.2.isNone then (w.1, some f) else w
      { x with cmds := lrem (fun d => d.cseq == cseq) x.cmds, window := x.window.map fin, wait := x.wait ++ (f :: reposts f c.dups) }

/-- Post a completion of a command that is not its final one. -/
def State.chanToken (s : State) (ch cseq result outLen : Nat) : State :=
  match (s.hch ch).cmds.find? fun c => c.cseq == cseq with
  | none => s
  | some c => s.cplPut ch ⟨c.client, cseq, 0, false, false, false, result, outLen, false, 0⟩

/-- Bytes 0 to 27 of a completion entry (Table 14.5). -/
def Cpl.bytes (c : Cpl) : List Byte :=
  leBytes 8 c.client ++ leBytes 4 c.cseq ++ leBytes 2 c.reason ++
    leBytes 1 (b2n c.final + 2 * b2n c.repost + 4 * b2n c.torn) ++ leBytes 1 0 ++ leBytes 8 c.result ++ leBytes 4 c.outLen

/-! ### References (Table 14.4, R403) -/

/-- A reference: address, length, does the module write it, does it lie in the staging area. -/
structure Ref where
  addr : Nat
  len : Nat
  out : Bool
  staging : Bool
  deriving DecidableEq, Repr

/-- Has a command references. -/
def Cmd.hasRefs (c : Cmd) : Bool := nbit c.flags 0

/-- The references of a command. -/
def Cmd.refs (c : Cmd) : List Ref :=
  if c.hasRefs then
    (List.range (c.length % 8)).map fun i =>
      ⟨leAt c.payload (16 * i) 8, leAt c.payload (16 * i + 8) 4, nbit (leAt c.payload (16 * i + 12) 1) 0, nbit (leAt c.payload (16 * i + 12) 1) 1⟩
  else []

/-- A range of host memory cut at 1 KiB boundaries, so that every piece fits the smallest bucket (Table 16.2): (address, length). (Log 55 DEDUCED) -/
def pagePieces (addr len : Nat) : List (Nat × Nat) :=
  (List.range ((addr % 1024 + len + 1023) / 1024)).map fun i =>
    let lo := if i = 0 then addr else addr - addr % 1024 + 1024 * i
    (lo, Nat.min (addr + len) (addr - addr % 1024 + 1024 * (i + 1)) - lo)

/-- Blocks of 64 B that a piece touches. -/
def pieceBlocks (p : Nat × Nat) : Nat := (p.1 % 64 + p.2 + 63) / 64

/-- The pieces of host memory that a command reads. (Log 55 DEDUCED) -/
def Cmd.pieces (c : Cmd) : List (Nat × Nat) := (c.refs.filter fun r => !r.out && !r.staging).flatMap fun r => pagePieces r.addr r.len

/-- Have all of them been read. -/
def Cmd.complete (c : Cmd) : Bool := (List.range c.pieces.length).all fun i => c.got.any fun g => g.1 == i

/-- The input of a command: its inline payload, or its input references in order as one string; none when staging data that
it names reads poisoned. -/
def State.cmdInput (s : State) (ch : Nat) (c : Cmd) : Option (List Byte) :=
  if !c.hasRefs then some (c.payload.take c.length)
  else
    let p := s.chOwner ch
    let r := (c.refs.filter fun r => !r.out).foldl
      (fun (a : List Byte × Nat × Bool) r =>
        if r.staging then
          match s.stagingOff p r.addr with
          | some o => (a.1 ++ s.rdMem o r.len, a.2.1, a.2.2 || s.rdPoison o r.len)
          | none => (a.1 ++ List.replicate r.len 0, a.2.1, a.2.2)
        else
          let k := (pagePieces r.addr r.len).length
          let mine := (List.range k).flatMap fun i => match c.got.find? fun g => g.1 == a.2.1 + i with | some g => g.2 | none => []
          (a.1 ++ mine, a.2.1 + k, a.2.2)) ([], 0, false)
    if r.2.2 then none else some r.1

/-- The command's output references. -/
def Cmd.outs (c : Cmd) : List Ref := c.refs.filter fun r => r.out

/-- Number from which the pieces of output references count. -/
def outPiece : Nat := 2 ^ 32

/-- Blocks that an access of a channel moves. -/
def HostAcc.blocks (a : HostAcc) : Nat := match a.op with | .read n => pieceBlocks (a.iova, n) | .write d _ _ => pieceBlocks (a.iova, d.length)

/-- Writes of output references go out in order while the bucket holds their tokens. -/
def State.outIssue (ch : Nat) : Nat → State → State
  | 0, s => s
  | fuel + 1, s =>
    match (s.hch ch).outs with
    | [] => s
    | a :: t =>
      if s.chRoom (s.chOwner ch) a.blocks = false then s
      else State.outIssue ch fuel (((s.modCh ch fun x => { x with outs := t }).chSpend (s.chOwner ch) a.blocks).hostAccess a)

/-- Write bytes to a command's output reference (R388: with Relaxed Ordering). -/
def State.refOut (s : State) (ch cseq : Nat) (r : Ref) (bytes : List Byte) : State :=
  if r.staging then
    match s.stagingOff (s.chOwner ch) r.addr with
    | some o => s.wrData o (bytes.take r.len) false false
    | none => s
  else
    let acc := fun (p : (Nat × Nat) × Nat) => s.chAcc ch (.ref ch cseq (outPiece + p.2)) p.1.1
      (.write (slice bytes (p.1.1 - r.addr) p.1.2) (2 ^ p.1.2 - 1) true)
    let s1 := s.modCh ch fun x => { x with outs := x.outs ++ (pagePieces r.addr (Nat.min bytes.length r.len)).zipIdx.map acc }
    State.outIssue ch (s1.hch ch).outs.length s1

/-- Has a command a write that still waits for tokens or for a translation. -/
def State.refBusy (s : State) (ch cseq : Nat) : Bool :=
  let mine := fun (w : Who) => match w with | .ref a b _ => a == ch && b == cseq | _ => false
  ((s.hch ch).outs.any fun a => mine a.who) || (s.pcie.waits.any fun a => mine a.who) || (s.pcie.prs.any fun a => mine a.who) || (s.pcie.prWait.any fun a => mine a.who)

/-! ### Hand-over to the services (R409, R430) -/

/-- Channel opcodes of Table 15.5, and whether a manager channel may carry them. -/
def chanOpcodes : List (Nat × Bool) :=
  [(0x0201, false), (0x0202, false), (0x0211, false), (0x0212, false), (0x0213, false), (0x0221, true), (0x0231, false), (0x0232, false)]

/-- May the next command be handed over: with fence set, every earlier command has posted its final completion. -/
def State.fenceOk (s : State) (ch : Nat) (c : Cmd) : Bool :=
  let x := s.hch ch
  let before := fun (q : Nat) => decide (q ≠ c.cseq) && decide (seqDiff c.cseq q < 2 ^ 31)
  !(nbit c.flags 2) ||
    (!(x.cmds.any fun d => before d.cseq) && !(x.wait.any fun d => d.final && before d.cseq) &&
     !(x.seqOut.any fun d => d.2.final && before d.2.cseq))

/-- Hand a command over: an unknown opcode and one that the owner may not issue are answered (R430), else its input references
will be read. -/
def State.handOver (s : State) (ch : Nat) (c : Cmd) : State :=
  let s1 := s.modCh ch fun x => { x with cmds := x.cmds.map fun d => if d.cseq = c.cseq then { d with handed := true } else d }
  match chanOpcodes.find? fun o => o.1 == c.opcode with
  | none => s1.chanFinal ch c.cseq 0x0901 0 0
  | some o =>
    if s.chOwner ch = manager ∧ o.2 = false then s1.chanFinal ch c.cseq 0x0902 0 0
    else s1

/-- Pieces of input references still to be read by the commands handed over. -/
def State.refsDue (s : State) (ch : Nat) : Option Cmd := (s.hch ch).cmds.find? fun c => c.handed && decide (c.asked < c.pieces.length)

/-- Input references are read piece by piece, in order, while the bucket holds their tokens. -/
def State.refIssue (ch : Nat) : Nat → State → State
  | 0, s => s
  | fuel + 1, s =>
    match s.refsDue ch with
    | none => s
    | some c =>
      let p := lget (0, 0) c.pieces c.asked
      if s.chRoom (s.chOwner ch) (pieceBlocks p) = false then s
      else
        let s1 := s.modCh ch fun x => { x with cmds := x.cmds.map fun d => if d.cseq = c.cseq then { d with asked := c.asked + 1 } else d }
        State.refIssue ch fuel ((s1.chSpend (s.chOwner ch) (pieceBlocks p)).hostAccess (s.chAcc ch (.ref ch c.cseq c.asked) p.1 (.read p.2)))

/-- Hand over the commands that may be, in sequence order, at most `fuel`. -/
def State.chanPump (ch : Nat) : Nat → State → State
  | 0, s => s
  | fuel + 1, s =>
    match (s.hch ch).cmds.find? fun c => !c.handed with
    | none => s
    | some c => if s.fenceOk ch c then State.chanPump ch fuel (s.handOver ch c) else s

/-! ### Intake (R404 to R408) -/

/-- Command buffers that an owner holds, bodies being read included. -/
def State.buffersHeld (s : State) (p : Nat) : Nat :=
  ((List.range 1024).filter fun ch => s.get CHN_CTL_open ch == 1 && s.chOwner ch == p).foldl
    (fun n ch => n + s.get CHN_REASON_buffers ch + b2n ((s.hch ch).slots.any fun r => r.body)) 0

/-- Does a channel wait to have a body read: its next slot is current. -/
def State.bodyDue (s : State) (ch : Nat) : Bool :=
  s.chFetches ch &&
  (match (s.hch ch).slots with
   | r :: _ => r.current && !r.body && r.cseq == seqNext (s.get CHN_SQ_STAT_consumed ch)
   | [] => false)

/-- Read bodies for an owner, one slot at a time in round-robin order of its channels, while it has a free buffer. (Log 55 DEDUCED) -/
def State.bodyIssue (p : Nat) : Nat → State → State
  | 0, s => s
  | fuel + 1, s =>
    let last := tget 0 s.rr p
    let due := (List.range 1024).map (fun i => (last + 1 + i) % 1024) |>.filter fun ch => s.chOwner ch == p && s.bodyDue ch
    match due with
    | [] => s
    | ch :: _ =>
      if s.get PCI_CHRATE_quota 0 p ≤ s.buffersHeld p ∨ s.chRoom p 2 = false then s
      else match (s.hch ch).slots with
        | [] => s
        | r :: t =>
          let s1 := (({ s with rr := tset 0 s.rr p ch }).chSpend p 2).modCh ch fun x => { x with slots := { r with body := true } :: t }
          State.bodyIssue p fuel (s1.hostAccess (s1.chAcc ch (.chan ch r.cseq) (s1.slotAddr ch r.cseq) (.read 124)))

/-- Read the sequence words of up to 8 consecutive slots (R405). -/
def State.seqIssue (ch : Nat) : Nat → State → State
  | 0, s => s
  | fuel + 1, s =>
    let x := s.hch ch
    let next := match x.slots.getLast? with | some r => seqNext r.cseq | none => seqNext (s.get CHN_SQ_STAT_consumed ch)
    if !(s.chFetches ch) || decide (8 ≤ x.slots.length) || decide (2 ^ 31 ≤ seqDiff (s.get CHN_SQ_STAT_tail ch) next) then s
    else
      let s1 := s.modCh ch fun x => { x with slots := x.slots ++ [⟨next, 0, 0, false, false⟩] }
      State.seqIssue ch fuel (s1.hostAccess (s1.chAcc ch (.chan ch next) (s1.slotAddr ch next + 124) (.read 4)))

/-- Most re-reads of a sequence word (R406). (Log 62 DEDUCED) -/
def rereads : Nat := 8

/-- Slots at the front whose eighth re-read has failed are torn, in order (R406). (Log 62 DEDUCED) -/
def State.tornOut (ch : Nat) : Nat → State → State
  | 0, s => s
  | fuel + 1, s =>
    match (s.hch ch).slots with
    | [] => s
    | r :: t =>
      if !r.current && decide (rereads < r.reads) then
        let s1 := ((s.put CHN_SQ_STAT_consumed ch r.cseq).bump CHN_CNT_torn ch).modCh ch fun x => { x with slots := t }
        State.tornOut ch fuel (s1.cplPut ch ⟨0, r.cseq, 0x0822, true, false, true, 0, 0, false, 0⟩)
      else s

/-- What a channel does of itself after an event: torn slots are consumed, further slots are read, bodies are read, commands
are handed over, and their references are read and written. -/
def State.chanRun (s : State) (ch : Nat) : State :=
  let s1 := State.seqIssue ch 8 (State.tornOut ch 8 s)
  let s2 := State.chanPump ch ((s1.hch ch).cmds.length + 1) (State.bodyIssue (s1.chOwner ch) 1024 s1)
  let s3 := State.refIssue ch (((s2.hch ch).cmds.map fun c => c.pieces.length).sum) s2
  State.outIssue ch (s3.hch ch).outs.length s3

/-- Channels that waited for tokens go on (R401). -/
def State.chansPoll (s : State) : State :=
  s.chans.foldl (fun (s : State) p => if s.bodyDue p.1 || (s.refsDue p.1).isSome || !(s.hch p.1).outs.isEmpty then s.chanRun p.1 else s) s

/-- CHN_SQ_DB (R404). -/
def State.sqDoorbell (s : State) (ch t : Nat) : State :=
  if s.get CHN_CTL_open ch = 0 ∨ s.get CHN_CTL_halted ch = 1 ∨ 2 ^ 31 ≤ seqDiff t (s.get CHN_SQ_STAT_tail ch) then s.bump CHN_CNT_bad_db ch
  else if s.sqSlots ch < seqDiff t (s.get CHN_SQ_STAT_consumed ch) then
    (s.chanHalt ch 0x0827).event 0x0827 ch (if s.chOwner ch < 16 then s.chOwner ch else 0xFF) 0
  else (s.put CHN_SQ_STAT_tail ch t).chanRun ch

/-- The outstanding read that a channel's slot waits for, of a length. -/
def State.slotRead (s : State) (ch cseq len : Nat) : Option HostRead :=
  (s.pcie.reads.take 768).find? fun r => r.acc.who == .chan ch cseq && r.acc.op == .read len

/-- Take a host read out of the endpoint. -/
def State.readDrop (s : State) (id : Nat) : State := s.modPcie fun x => { x with reads := lrem (fun r => r.id == id) x.reads }

/-- A sequence-word read returns (R405, R406). -/
def State.seqResult (s : State) (ch cseq word : Nat) : State :=
  let upd := fun (r : SlotRd) =>
    if r.cseq ≠ cseq ∨ r.current then r
    else if word = cseq then { r with current := true }
    else { r with reads := r.reads + 1 }
  let s1 := s.modCh ch fun x => { x with slots := x.slots.map upd }
  s1.chanRun ch

/-- SLOT_REREAD_TIMER (R406): 250 ns to 2 µs after the first result, in steps of 250 ns, the sequence word is read again. -/
def State.reread (s : State) (ch cseq : Nat) : State :=
  match (s.hch ch).slots.find? fun r => r.cseq == cseq with
  | none => s
  | some r =>
    if r.current ∨ r.reads = 0 ∨ rereads ≤ r.again then s
    else
      let s1 := s.modCh ch fun x =>
        let up := fun (q : SlotRd) => if q.cseq = cseq then { q with again := q.again + 1 } else q
        { x with slots := x.slots.map up }
      s1.hostAccess (s1.chAcc ch (.chan ch cseq) (s1.slotAddr ch cseq + 124) (.read 4))

/-! ### Acceptance (R402, R407, R415, R416) -/

/-- Is a byte range zero. -/
def zeros (l : List Byte) (off n : Nat) : Bool := (slice l off n).all (· == 0)

/-- Does a reference entry keep Table 14.4. -/
def refOk (b : List Byte) (off : Nat) : Bool :=
  let f := leAt b (off + 12) 1
  decide (f < 4) && zeros b (off + 13) 3 && decide (leAt b (off + 8) 4 ≠ 0) && (nbit f 1 || decide (leAt b off 8 < 2 ^ 57))

/-- Does a slot body keep Tables 14.3 and 14.4. (Log 60 DEDUCED) -/
def slotOk (b : List Byte) : Bool :=
  let flags := leAt b 2 1
  let len := leAt b 4 4
  decide (flags < 8) && zeros b 3 1 && zeros b 120 4 &&
  (if nbit flags 0 then
     decide (1 ≤ len) && decide (len ≤ 6) && (List.range len).all (fun i => refOk b (16 + 16 * i)) && zeros b (16 + 16 * len) (96 - 16 * len)
   else decide (len ≤ 95) && zeros b (16 + len) (96 - len))

/-- Commands that the duplicate window covers (R415). -/
def windowCap : Nat := 4096

/-- Enter a client identifier in the window, the oldest leaving a full one. -/
def windowPut (w : List (Nat × Option Cpl)) (client : Nat) (f : Option Cpl) : List (Nat × Option Cpl) :=
  if client = 0 then w else (if windowCap ≤ w.length then w.drop 1 else w) ++ [(client, f)]

/-- A slot body has arrived (R407 to R409, R415, R416). (Log 60 DEDUCED) -/
def State.bodyResult (s : State) (ch cseq : Nat) (b : List Byte) : State :=
  match (s.hch ch).slots with
  | [] => s
  | r :: t =>
    if r.cseq ≠ cseq ∨ r.body = false then s
    else
      let client := leAt b 8 8
      let irq := nbit (leAt b 2 1) 1
      let s1 := ((s.put CHN_SQ_STAT_consumed ch cseq).put CHN_REASON_buffers ch (s.get CHN_REASON_buffers ch + 1)).modCh ch fun x => { x with slots := t }
      let fin : Cpl := { client := client, cseq := cseq, reason := 0x0821, final := true, repost := false, torn := false, result := 0,
                         outLen := 0, irq := irq, frees := 1 }
      let s2 :=
        if !(slotOk b) then
          ((s1.bump CHN_CNT_malformed ch).modCh ch fun x => { x with window := windowPut x.window client (some fin) }).cplPut ch fin
        else match (if client = 0 then none else (s.hch ch).window.find? fun w => w.1 == client) with
          | some (_, some f) => (s1.bump CHN_CNT_dup ch).cplPut ch { f with cseq := cseq, irq := irq, repost := true, frees := 1 }
          | some (_, none) =>
            (s1.bump CHN_CNT_dup ch).modCh ch fun x =>
              { x with cmds := x.cmds.map fun c => if c.client = client then { c with dups := c.dups ++ [(cseq, irq)] } else c }
          | none =>
            let c : Cmd := { cseq := cseq, opcode := leAt b 0 2, flags := leAt b 2 1, length := leAt b 4 4, client := client,
                             payload := slice b 16 96, object := leAt b 112 8, handed := false, taken := false, asked := 0, got := [], dups := [] }
            s1.modCh ch fun x => { x with cmds := x.cmds ++ [c], window := windowPut x.window client none }
      s2.chanRun ch

/-- SLOT_SEQ_READ_RETURN. -/
def State.seqReturn (s : State) (ch cseq word : Nat) : State :=
  match s.slotRead ch cseq 4 with
  | none => s
  | some r => (s.readDrop r.id).seqResult ch cseq word

/-- SLOT_BODY_ACCEPT. -/
def State.bodyAccept (s : State) (ch cseq : Nat) (b : List Byte) : State :=
  match s.slotRead ch cseq 124 with
  | none => s
  | some r => (s.readDrop r.id).bodyResult ch cseq b

/-! ### Closing (Table 14.15, R421) -/

/-- Prepare a mailbox's response: payload after the header that R425 gives (handle as stated by the service). -/
def State.mbxRespond (s : State) (b reason handle : Nat) (payload : List Byte) : State :=
  let m := tget MbxSt.init s.mbx b
  let hdr := slice m.req 0 2 ++ leBytes 2 (s.get MBX_STAT_accepted b) ++ leBytes 2 (32 + payload.length) ++ leBytes 2 reason ++
    leBytes 8 handle ++ slice m.req 16 8 ++ List.replicate 8 0
  { s with mbx := tset MbxSt.init s.mbx b { m with rsp := hdr ++ payload, stage := 3 } }

/-- Order 4 of Table 14.15, once nothing of the channel is left: its buffers return, its window is released, open clears. -/
def State.closeCheck (s : State) (ch : Nat) : State :=
  let x := s.hch ch
  match x.closing with
  | none => s
  | some b =>
    if x.cmds.isEmpty && x.wait.isEmpty && x.seqOut.isEmpty then
      (((s.put CHN_CTL_open ch 0).put CHN_REASON_buffers ch 0).modCh ch fun _ => HChan.init).mbxRespond b 0 0 []
    else s

/-- Orders 1 and 2: no further slot is read; every command but a serving request ends with 0x0829 (the serving loop ends its
own at the next boundary). -/
def State.closeStart (s : State) (ch b : Nat) (serving : List Nat) : State :=
  let s1 := s.modCh ch fun x => { x with closing := some b, slots := [] }
  (((s1.hch ch).cmds.filter fun c => !(serving.contains c.cseq)).foldl (fun (s : State) c => s.chanFinal ch c.cseq 0x0829 0 0) s1).closeCheck ch

/-- CLOSE_ROOM_TIMEOUT: completions still without room are discarded, with one event that carries their count. -/
def State.closeRoom (s : State) (ch : Nat) : State :=
  let x := s.hch ch
  if x.closing.isSome ∧ x.cmds.isEmpty ∧ x.wait.isEmpty = false then
    ((s.modCh ch fun x => { x with wait := [] }).event 0x0829 ch (if s.chOwner ch < 16 then s.chOwner ch else 0xFF) (packDetail [(x.wait.length, 4)])).closeCheck ch
  else s

/-- A channel closed by a partition's reset or removal: open commands end without completion (R421). -/
def State.chanKill (s : State) (ch : Nat) : State :=
  (((s.put CHN_CTL_open ch 0).put CHN_REASON_reason ch 0x0828).put CHN_REASON_buffers ch 0).modCh ch fun _ => HChan.init

/-! ### Completion traffic (R412 to R414, R419) -/

/-- Blocks that a completion moves: its body, its sequence word, and its interrupt (R401). -/
def Cpl.blocks (c : Cpl) : Nat := 2 + b2n (c.final && c.irq)

/-- COMPLETION_WRITE: the next completion, while the ring and the owner's bucket have room: body, then sequence word. -/
def State.cplWrite (s : State) (ch : Nat) : State :=
  let x := s.hch ch
  match x.wait with
  | [] => s
  | c :: t =>
    let q := seqNext x.nextQ
    if s.get CHN_CTL_open ch = 0 ∨ s.cqEntries ch < seqDiff q (s.get CHN_CQ_STAT_head ch) ∨ (c.final = true ∧ s.refBusy ch c.cseq = true) ∨
        s.get PCI_LINK_STAT_up 0 = 0 ∨ s.chRoom (s.chOwner ch) c.blocks = false then s
    else
      let a := s.cplAddr ch q
      let s1 := ((s.modCh ch fun x => { x with wait := t, nextQ := q, seqOut := x.seqOut ++ [(q, c)] }).chSpend (s.chOwner ch) c.blocks).hostIssue
        (s.chAcc ch (.cpl ch q) a (.write c.bytes (2 ^ 28 - 1) false))
      s1.hostIssue (s.chAcc ch (.cpl ch q) (a + 28) (.write (leBytes 4 q) 0xF false)) (.seqWord ch q)

/-- COMPLETION_SEQ_ACK: the oldest sequence word that has left the endpoint is acknowledged, unless the link is lost (R419); posted advances and the interrupt
is sent (R414, R419). (Log 61 DEDUCED) -/
def State.cplAck (s : State) (ch : Nat) : State :=
  match (s.hch ch).seqOut with
  | [] => s
  | (q, c) :: t =>
    if (s.pcie.tx.any fun x => x.kind == .seqWord ch q) ∨ s.get PCI_LINK_STAT_up 0 = 0 then s
    else
      let s1 := (s.put CHN_CQ_STAT_posted ch q).modCh ch fun x => { x with seqOut := t }
      let s2 := if c.final && c.irq && s.get CHN_CTL_irq_en ch == 1 then s1.msixSend (s.get CHN_CTL_vector ch) else s1
      (s2.chanRun ch).closeCheck ch

/-- A sequence word has been transmitted: the buffers that it returns are free (R408). -/
def State.seqSent (s : State) (ch q : Nat) : State :=
  match (s.hch ch).seqOut.find? fun x => x.1 == q with
  | none => s
  | some (_, c) =>
    let s1 := s.put CHN_REASON_buffers ch (s.get CHN_REASON_buffers ch - c.frees)
    State.bodyIssue (s.chOwner ch) 1024 s1

/-- CHN_CQ_DB (R413). -/
def State.cqDoorbell (s : State) (ch h : Nat) : State :=
  let head := s.get CHN_CQ_STAT_head ch
  if s.get CHN_CTL_open ch = 0 ∨ seqDiff (s.get CHN_CQ_STAT_posted ch) head < seqDiff h head then s.bump CHN_CNT_bad_db ch
  else s.put CHN_CQ_STAT_head ch h

/-! ### The commands -/

/-- CHN_SQ_DB (R404). -/
def execChnSqDb (ch : HCh) (v : Word) (s : State) : Host.Outcome State Fault Refusal := .next (s.sqDoorbell ch (nfld v.toNat 0 32))

/-- SLOT_SEQ_READ_RETURN (R405). -/
def execSlotSeqReadReturn (ch : HCh) (cseq word : Nat) (s : State) : Host.Outcome State Fault Refusal := .next (s.seqReturn ch cseq word)

/-- SLOT_REREAD_TIMER (R406). -/
def execSlotRereadTimer (ch : HCh) (cseq : Nat) (s : State) : Host.Outcome State Fault Refusal := .next (s.reread ch cseq)

/-- SLOT_BODY_ACCEPT (R407). -/
def execSlotBodyAccept (ch : HCh) (cseq : Nat) (body : List Byte) (s : State) : Host.Outcome State Fault Refusal := .next (s.bodyAccept ch cseq body)

/-- CHN_CQ_DB (R413). -/
def execChnCqDb (ch : HCh) (v : Word) (s : State) : Host.Outcome State Fault Refusal := .next (s.cqDoorbell ch (nfld v.toNat 0 32))

/-- COMPLETION_WRITE (R412). (Log 2 DESIGN CHOICE) -/
def execCompletionWrite (ch : HCh) (s : State) : Host.Outcome State Fault Refusal := .next (s.cplWrite ch)

/-- COMPLETION_SEQ_ACK (R419). -/
def execCompletionSeqAck (ch : HCh) (s : State) : Host.Outcome State Fault Refusal := .next (s.cplAck ch)

/-- CLOSE_ROOM_TIMEOUT (R410). -/
def execCloseRoomTimeout (ch : HCh) (s : State) : Host.Outcome State Fault Refusal := .next (s.closeRoom ch)

end Sys2Proof.Machine
end

