-- ==== Sys2Proof/Machine/BaleFmt.lean ====
section
/-!
DEFINITION. The bale container, manifest, schedule and cluster map as byte layouts (Tables 9.1 to 9.8).
-/
namespace Sys2Proof.Machine

open Sys2Proof

/-- Header fields (Table 9.1). -/
def bCls (b : List Byte) : Nat := leAt b 9 1
def bCrofts (b : List Byte) : Nat := leAt b 10 1
def bSecs (b : List Byte) : Nat := leAt b 11 1
def bId (b : List Byte) : Nat := leAt b 16 8
def bSigner (b : List Byte) : Nat := leAt b 24 8
def bTotal (b : List Byte) : Nat := leAt b 32 8
def bBase (b : List Byte) : List Byte := slice b 64 64

/-- A section entry (Table 9.2). -/
structure Sec where
  ty : Nat
  off : Nat
  len : Nat
  digest : List Byte
  deriving DecidableEq, Repr

/-- Section entry i. -/
def bSec (b : List Byte) (i : Nat) : Sec :=
  let o := 128 + 96 * i
  ⟨leAt b o 2, leAt b (o + 8) 8, leAt b (o + 16) 8, slice b (o + 32) 64⟩

/-- The section entries in use. -/
def bSections (b : List Byte) : List Sec := (List.range (bSecs b)).map (bSec b)

/-- The section of a type; an empty one when the bale has none. -/
def bFind (b : List Byte) (ty : Nat) : Sec := ((bSections b).find? fun x => x.ty == ty).getD ⟨ty, 0, 0, []⟩

/-- A section's bytes. -/
def Sec.bytes (b : List Byte) (x : Sec) : List Byte := slice b x.off x.len

/-- The bale digest (R231). -/
def bDigest (b : List Byte) : List Byte := Config.sha512 (slice b 0 1664)

/-! ### The manifest (Tables 9.4 and 9.5) -/

/-- Bytes of the manifest. -/
def bMan (b : List Byte) : List Byte := (bFind b 1).bytes b

/-- Op mask of a station kind: 0 MAT, 1 VEC, 2 SUM, 3 CNV, 4 GTH, 5 ADP. -/
def mOps (m : List Byte) (i : Nat) : Nat := leAt m (4 + 2 * i) 2
def mSems (m : List Byte) : Nat := leAt m 16 2
def mAdpRate (m : List Byte) : Nat := leAt m 20 4
def mAdpQueue (m : List Byte) : Nat := leAt m 24 1
def mAdpRank (m : List Byte) : Nat := leAt m 25 1
def mAdpRows (m : List Byte) : Nat := leAt m 26 2
def mQueues (m : List Byte) : Nat := leAt m 28 4

/-- Granule mask of an alias cluster. -/
def mGrans (m : List Byte) (a : Nat) : Nat := leAt m (64 + 16 * a) 16

/-- HBM3 range of an alias croft: first page and count. -/
def mPages (m : List Byte) (j : Nat) : Nat × Nat :=
  let o := 64 + 1600 * leAt m 3 1 + 8 * j
  (leAt m o 2, leAt m (o + 2) 2)

/-- A queue entry (Table 9.5). -/
structure QEnt where
  clu : Nat
  q : Nat
  cls : Nat
  limit : Nat
  target : Nat
  croft : Nat
  dir : Nat
  rate : Nat
  depth : Nat
  deriving DecidableEq, Repr

/-- Queue entry i. -/
def mQ (m : List Byte) (i : Nat) : QEnt :=
  let o := 64 + 1608 * leAt m 3 1 + 16 * i
  ⟨leAt m o 2, leAt m (o + 2) 1, leAt m (o + 3) 1, leAt m (o + 4) 1, leAt m (o + 5) 1, leAt m (o + 6) 1, leAt m (o + 7) 1, leAt m (o + 8) 4,
   leAt m (o + 12) 2⟩

/-- The queue entries. -/
def mQs (m : List Byte) : List QEnt := (List.range (mQueues m)).map (mQ m)

/-! ### The cluster map and the pools (Tables 9.6 and 9.7) -/

/-- A cluster map entry. -/
structure CEnt where
  codeOff : Nat
  codeLen : Nat
  pc : Nat
  descOff : Nat
  descN : Nat
  descAt : Nat
  setupOff : Nat
  setupN : Nat
  saveAt : Nat
  dataOff : Nat
  dataN : Nat
  deriving DecidableEq, Repr

/-- Entry of an alias cluster. -/
def bClu (b : List Byte) (a : Nat) : CEnt :=
  let m := (bFind b 3).bytes b
  let o := 32 * a
  ⟨leAt m o 4, leAt m (o + 4) 2, leAt m (o + 6) 2, leAt m (o + 8) 4, leAt m (o + 12) 2, leAt m (o + 14) 2, leAt m (o + 16) 4, leAt m (o + 20) 2,
   leAt m (o + 22) 2, leAt m (o + 24) 4, leAt m (o + 28) 4⟩

/-- A pool's bytes: 4 code, 5 descriptors, 6 setup, 7 data. -/
def bPool (b : List Byte) (ty : Nat) : List Byte := (bFind b ty).bytes b

/-- Setup entry i of a cluster: register offset and value. -/
def bSetup (b : List Byte) (e : CEnt) (i : Nat) : Nat × Nat :=
  let o := 16 * (e.setupOff + i)
  (leAt (bPool b 6) o 4, leAt (bPool b 6) (o + 8) 8)

/-- Data extent i of a cluster: window offset, length, offset in the pool, in bytes. -/
def bExtent (b : List Byte) (e : CEnt) (i : Nat) : Nat × Nat × Nat :=
  let o := 16 * (e.dataOff + i)
  (64 * leAt (bPool b 7) o 4, 64 * leAt (bPool b 7) (o + 4) 4, 64 * leAt (bPool b 7) (o + 8) 8)

/-- Loaded or loading instances of a partition, in load order. -/
def State.instsOf (s : State) (p : Nat) : List Inst := s.sys.insts.filter fun i => i.part == p

/-- Does a loaded instance of a partition hold a host read queue (R398). -/
def State.hostReaders (s : State) (p : Nat) : Bool :=
  (s.instsOf p).any fun i => i.loaded && (mQs (bMan i.bale)).any fun q => q.target == 2 && q.dir == 0

end Sys2Proof.Machine
end

