-- ==== Sys2Proof/Machine/HostCmds.lean ====
section
/-!
DEFINITION. The PCI Express endpoint's commands (chapter "Host attachment and command channels"): host reads, transmission,
invalidation, the BAR windows, training and link loss.
-/
namespace Sys2Proof.Machine

open Sys2Proof

/-! ### Command references (R403) -/

/-- A reference of a command failed: the command ends with the reason; one whose final completion waits for the write gets it. -/
def State.refFail (s : State) (ch cseq code : Nat) : State :=
  if (s.hch ch).cmds.any fun c => c.cseq == cseq then s.chanFinal ch cseq code 0 0
  else s.modCh ch fun x =>
    let mark := fun (c : Cpl) => if c.cseq = cseq ∧ c.reason = 0 then { c with reason := code } else c
    { x with wait := x.wait.map mark }

/-- A piece of a command's input references has been read. (Log 116 DESIGN CHOICE) -/
def State.refGot (s : State) (ch cseq i : Nat) (data : List Byte) : State :=
  s.modCh ch fun x =>
    let add := fun (c : Cmd) => if c.cseq = cseq then { c with got := c.got ++ [(i, data)] } else c
    { x with cmds := x.cmds.map add }

/-- Refusals that wait for the commands' references. -/
def State.refSettle (s : State) : State :=
  s.replies.foldl (fun (s : State) p => match p.1 with
    | .ref ch cseq _ => ((s.take p.1).refFail ch cseq p.2.reason).chanRun ch
    | _ => s) s

/-- REFERENCE_PAGE_TIMEOUT: a reference's Page Request got no response within 100 ms. -/
def State.refTimeout (s : State) (ch cseq : Nat) : State :=
  let mine := fun (r : PageReq) => match r.who with | .ref a b _ => a == ch && b == cseq | _ => false
  if s.pcie.prs.any mine then
    (((s.modPcie fun x => { x with prs := x.prs.filter fun r => !(mine r) }).prNext.event 0x0824 ch
      (if s.chOwner ch < 16 then s.chOwner ch else 0xFF) 0).refFail ch cseq 0x0824).chanRun ch
  else s

/-! ### Reads (R390, R391, R459) -/

/-- A read that returns to a cluster under another generation than its own is stale (Table 16.6). -/
def State.readStale (s : State) (a : HostAcc) : Option Nat :=
  let at_ := fun (c : Nat) => if s.cluPG c = (a.part, a.gen) then none else some (cluCroft c)
  match a.who with
  | .str c _ _ _ _ => at_ c
  | .retry c _ _ => at_ c
  | .load c _ => at_ c
  | .spill c _ _ _ => at_ c
  | _ => none

/-- The result of a host read finds its way. -/
def State.hostRead (s : State) (a : HostAcc) (r : Reply) : State :=
  match s.readStale a with
  | some k => s.stale k
  | none =>
    match a.who with
    | .dirty p w => if r.reason = 0 ∧ r.poison = false then s.dirtyRead p w (leNat r.data) else s.dirtyFail p
    | .chan ch cseq =>
      if s.get CHN_CTL_halted ch = 1 ∨ ((s.hch ch).slots.any fun x => x.cseq == cseq) = false then s
      else if r.reason ≠ 0 ∨ r.poison then s.chanHalt ch 0x0826
      else if a.op = .read 4 then s.seqResult ch cseq (leNat r.data)
      else s.bodyResult ch cseq r.data
    | .ref ch cseq i => if r.reason ≠ 0 ∨ r.poison then (s.refFail ch cseq 0x0823).chanRun ch else s.refGot ch cseq i r.data
    | w => s.answer w 1 r

/-- An invalidation whose accesses have all finished is completed (R389). -/
def State.invCheck (s : State) : State :=
  let p := s.pcie
  let gone := fun (v : Inval) => !(v.reads.any fun i => p.reads.any fun r => r.id == i) && !(v.txs.any fun i => p.tx.any fun t => t.id == i)
  let n := (p.invs.filter gone).length
  (List.range n).foldl (fun (s : State) _ => s.txPut .invDone ⟨.aselo 0, 16, 0, 0, 0, .write [] 0 false⟩ 2)
    (s.modPcie fun x => { x with invs := x.invs.filter fun v => !(gone v) })

/-- Non-posted requests outstanding at once (Table 14.1). (Log 54 DESIGN CHOICE) -/
def readCap : Nat := 768

/-- The outstanding read with a number. (Log 54 DESIGN CHOICE) -/
def State.readAt (s : State) (id : Nat) : Option HostRead := (s.pcie.reads.take readCap).find? fun r => r.id == id

/-- HOST_READ_COMPLETION. -/
def State.readDone (s : State) (id : Nat) (data : List Byte) (ep fail : Bool) : State :=
  match s.readAt id with
  | none => s
  | some r =>
    let len := match r.acc.op with | .read n => n | .write _ _ _ => 0
    let s1 := s.readDrop id
    let s2 := if fail then s1.bump PCI_ERR_CNT_ur_ca 0 else if ep then s1.bump PCI_ERR_CNT_poisoned_in 0 else s1
    (s2.hostRead r.acc (if fail then ⟨[], false, 0x0832⟩ else ⟨slice data 0 len, ep, 0⟩)).invCheck

/-- HOST_READ_TIMEOUT. -/
def State.readTimeout (s : State) (id : Nat) : State :=
  match s.readAt id with
  | none => s
  | some r =>
    let s1 := ((s.readDrop id).bump PCI_ERR_CNT_cpl_timeout 0).event 0x0831 0xFFFF (if r.acc.part < 16 then r.acc.part else 0xFF) 0
    (s1.hostRead r.acc ⟨[], false, 0x0831⟩).invCheck

/-! ### Transmission (R388, R417, R421, R464) -/

/-- Does the endpoint send: the link is up, does not retrain, and PERST# is not asserted. -/
def State.pcieSends (s : State) : Bool := s.get PCI_LINK_STAT_up 0 == 1 && !s.pcie.retraining && !s.pcie.perst

/-- The next entry that may be sent: no write of a partition passes one of its bitmap writes whose word is still being read. -/
def txPick : List Nat → List Tx → Option Tx
  | _, [] => none
  | held, t :: rest =>
    match t.kind with
    | .bitmapWait p _ _ => txPick (p :: held) rest
    | .data => if held.contains t.acc.part then txPick held rest else some t
    | .seqWord _ _ => if held.contains t.acc.part then txPick held rest else some t
    | .bitmap => some t
    | .msix _ => some t
    | .pageReq _ => some t
    | .invDone => some t

/-- Is a queued write of a partition's old generation (R421). -/
def State.txStale (s : State) (t : Tx) : Bool := decide (t.acc.part < 16) && s.get PRT_PART_CTL_gen 0 t.acc.part != t.acc.gen

/-- What happens once an entry has been transmitted. -/
def State.txSent (s : State) (t : Tx) : State :=
  match t.kind with
  | .seqWord ch q => s.seqSent ch q
  | .invDone => s.modPcie fun x => { x with invSent := x.invSent + 1 }
  | .data => (match t.acc.who with
    | .str c u q id blk => s.answer (.str c u q id blk) 1 ⟨[], false, 0⟩
    | .retry c u q => s.answer (.retry c u q) 1 ⟨[], false, 0⟩
    | .store c id => s.reply (.store c id) ⟨[], false, 0⟩
    | _ => s)
  | _ => s

/-- One entry of the endpoint's queue leaves: sent, or discarded when its generation is stale. -/
def State.txOne (s : State) : State :=
  if !s.pcieSends then s
  else match txPick [] s.pcie.tx with
    | none => s
    | some t =>
      let s1 := s.modPcie fun x => { x with tx := lrem (fun u => u.id == t.id) x.tx }
      (if s.txStale t then s1.bump PCI_DROP_CNT_stale_gen 0 else s1.txSent t).invCheck

/-- ATS_INVALIDATION (R389). -/
def State.invalidate (s : State) (pasid page pages : Nat) : State :=
  let hit := fun (ps pg : Nat) => ps == pasid && decide (page ≤ pg) && decide (pg < page + pages)
  let acc := fun (a : HostAcc) => hit a.pasid (a.iova / 4096)
  (s.modPcie fun x =>
    { x with atc := x.atc.filter fun e => !(hit e.1 e.2.1),
             invs := x.invs ++ [⟨(x.reads.filter fun r => acc r.acc).map HostRead.id, (x.tx.filter fun t => acc t.acc).map Tx.id⟩] }).invCheck

/-! ### The BAR windows (R393, R395 to R398) -/

/-- BAR2_READ. (Log 206 DESIGN CHOICE) -/
def State.bar2Read (s : State) (off len : Nat) : State :=
  let p := off / 2 ^ 32
  let o := off % 2 ^ 32
  -- what the host reads through a channel that performs no request is a free value
  let bytes := (List.range len).map fun i => match s.stagingOff p (o + i) with
    | some a => if s.get HBM_CTL_en (hbmChan a) = 1 then s.rdByte a else BitVec.ofNat 8 (Config.free 227 s.opens a i)
    | none => 0
  let inside := (List.range len).all fun i => (s.stagingOff p (o + i)).isSome
  let s1 := if inside then s else s.bump PCI_DROP_CNT_bar2_miss 0
  match s.stagingOff p o with
  | none => { s1 with hostOut := (bytes, false) }
  | some a =>
    let n := ((List.range len).filter fun i => (s.stagingOff p (o + i)).isSome).length
    { s1.noteRead a n with hostOut := (bytes, s.rdPoison a n), opens := s.opens + 1 }

/-- BAR2_WRITE: bytes beyond the staging area, and those whose channel takes no write (R209, R227), are not written. (Log 58 DEDUCED, 206 DESIGN CHOICE) -/
def State.bar2Write (s : State) (off : Nat) (data : List Byte) : State :=
  let p := off / 2 ^ 32
  let o := off % 2 ^ 32
  let s1 := if s.hostReaders p then s.event 0x08F3 0xFFFF p (packDetail [(p, 1), (o, 4)]) else s
  let inside := (List.range data.length).all fun i => (s.stagingOff p (o + i)).isSome
  let s2 := if inside then s1 else s1.bump PCI_DROP_CNT_bar2_miss 0
  match s.stagingOff p o with
  | none => s2
  | some a => s2.wrMem a ((List.range data.length).map fun i => if (s.stagingOff p (o + i)).any s.chanTakes then some (lget 0 data i) else none) false false

/-- Is a host write of a size to a BAR0 offset permitted (R393): a doorbell's WO field, a mailbox field of Table 15.1, PCI_REG_WIN,
the MSI-X table. -/
def bar0Permitted (off size : Nat) : Bool :=
  (size == 4 || size == 8) && off % size == 0 &&
  ((decide (off < 0x400000) && (off % 0x1000 == 0 || (size == 4 && off % 0x1000 == 4) || off % 0x1000 == 8 || (size == 4 && off % 0x1000 == 12))) ||
   (decide (0x400000 ≤ off) && decide (off < 0x520000) &&
     (decide (off % 0x10000 < 0x1000) || (decide (0x2000 ≤ off % 0x10000) && decide (off % 0x10000 < 0x2008)) ||
      (decide (0x2010 ≤ off % 0x10000) && decide (off % 0x10000 < 0x2018)))) ||
   (decide (0x700020 ≤ off) && decide (off < 0x700028)) ||
   (decide (0x800000 ≤ off) && decide (off < 0x808000)))

/-- BAR0_IGNORED_WRITE: a write that is not permitted is counted. -/
def State.bar0Ignored (s : State) (off size : Nat) : State := if bar0Permitted off size then s else s.bump PCI_ERR_CNT_ign_write 0

/-! ### Training, retrain and link loss (R387, R417 to R420) -/

/-- PCIE_LINK_UP: training, or the end of a retrain. -/
def State.pcieUp (s : State) (speed width : Nat) : State :=
  if s.pcie.perst ∨ s.pwr.pwrok = false then s
  else
    let bad := !(speed == 5 && width == 16)
    let s1 := (((s.put PCI_LINK_STAT_speed 0 speed).put PCI_LINK_STAT_width 0 width).put PCI_LINK_STAT_up 0 1).put PCI_LINK_STAT_degraded 0 (b2n bad)
    let s2 := s1.modPcie fun x => { x with retraining := false }
    if bad then s2.event 0x08F1 0xFFFF 0xFF (s2.rreg PCI_LINK_STAT 0) else s2

/-- PCIE_RETRAIN: TLPs are held; nothing is lost. -/
def State.pcieRetrain (s : State) : State :=
  if s.get PCI_LINK_STAT_up 0 = 0 then s
  else
    let s1 := (s.bump PCI_LINK_STAT_retrains 0).modPcie fun x => { x with retraining := true }
    s1.event 0x08F0 0xFFFF 0xFF (s1.rreg PCI_LINK_STAT 0)

/-- Entry of a channel in the resume record (Table 14.12). -/
def State.resumeEntry (s : State) (ch : Nat) : Nat × Nat × Nat × Nat × Nat :=
  (s.get CHN_SQ_STAT_consumed ch, s.get CHN_CQ_STAT_posted ch, s.get CHN_CQ_STAT_head ch,
   s.get CHN_CTL_open ch + 2 * s.get CHN_CTL_manager ch + 4 * s.get CHN_CTL_halted ch, s.get CHN_CTL_partition ch)

/-- Is the start-up under way: the rails are up, and neither Aselo runs nor the root of trust has stopped. (Log 147 DESIGN CHOICE) -/
def State.booting (s : State) : Bool := s.pwr.pwrok && !s.sys.up && s.get SEC_STAT_reason 0 == 0

/-- Does a module reset run: one has been triggered, or its start-up, which is part of it, has not ended (R545, R546). (Log 161 DEDUCED) -/
def State.resetRuns (s : State) : Bool := s.resetDue != 0 || s.booting

/-- Copy the live record into the BAR0 region (Table 14.11); a copy of the reset under way stays (R545). (Log 161 DEDUCED) -/
def State.resumeCopy (s : State) (cause : Nat) : State :=
  if s.resetRuns then s
  else
    { s with resetDue := cause,
             resume := ⟨cause, s.incarnation + 1, s.tick,
               (List.range 1024).foldl (fun t ch => tset (0, 0, 0, 0, 0) t ch (s.resumeEntry ch)) []⟩ }

/-- Leave notices on every link that is up (R352). -/
def State.leaveAll (s : State) : State :=
  ((List.range 24).filter fun l => s.get LNK_CTL_state l == lnkUp).foldl
    (fun (s : State) l => s.hopNotice l 2 s.moduleId s.incarnation) s

/-- LINK_LOSS: orders 1 to 3 of Table 14.6. -/
def State.linkLoss (s : State) : State :=
  if s.get PCI_LINK_STAT_up 0 = 0 then s
  else
    let s1 := (s.resumeCopy 1).put PCI_LINK_STAT_up 0 0
    let s2 := s1.modPcie fun x => { x with tx := [], reads := [], waits := [], asked := [], prs := [], prWait := [], invs := [], retraining := false }
    (s2.event 0x08F2 0xFFFF 0xFF (s2.rreg PCI_LINK_STAT 0)).leaveAll

/-- Is a register of the event recorder, which lives in always-on SRAM. -/
def isEvrReg (a : Nat) : Bool := decide (0x8030060000 ≤ a) && decide (a < 0x8030070000)

/-- A module reset other than power-on (Table 19.7): everything outside always-on SRAM returns to its reset value; the reset
starts again at order 4 of Table 19.8. (Log 5 DESIGN CHOICE) -/
def State.moduleReset (s : State) (cause : Nat) : State :=
  let r := State.reset
  { r with regs := s.regs.filter fun p => isEvrReg p.1, evr := s.evr, resume := s.resume, incarnation := s.incarnation + 1,
           rot := { Rot.init with draws := s.rot.draws, epoch := s.rot.epoch, flash := s.rot.flash, svnMin := s.rot.svnMin, unlocked := s.rot.unlocked },
           pwr := s.pwr, tap := s.tap, tick := s.tick, opens := s.opens, pending := s.pending,
           pcie := { Pcie.init with perst := s.pcie.perst } }
    |>.put PWR_STATE_cause 0 cause

/-- Is a warm module reset absorbed: the start-up of one of its kind, or of a power-on, is under way (R545). (Log 161 DEDUCED) -/
def State.absorbs (s : State) : Bool := s.booting && s.get PWR_STATE_cause 0 != 1

/-- A warm module reset that is not absorbed. Over a link-loss reset, which is narrower, it takes over with the first trigger's cause,
and where that one had entered its start-up it does not count as completed (R544, R545). (Log 161 DEDUCED) -/
def State.resetWarm (s : State) : State :=
  if s.booting then { s.moduleReset 1 with incarnation := s.incarnation }
  else if s.resetDue = 1 then s.moduleReset 1 else (s.resumeCopy 2).moduleReset 2

/-- The channels that stand failed: only a warm or a power-on reset clears that (R209). (Log 192 DEDUCED) -/
def State.keepFailed (s t : State) : State :=
  ((List.range 128).filter fun ch => s.get HBM_CTL_failed ch == 1).foldl (fun (t : State) ch => t.put HBM_CTL_failed ch 1) t

/-- LINK_LOSS_RESET_ENTRY: order 4. (Log 192 DEDUCED) -/
def State.lossReset (s : State) : State := if s.resetDue = 1 then s.keepFailed (s.moduleReset 1) else s

/-! ### The commands -/

/-- Does a Page Request serve a command's reference. -/
def PageReq.isRef (r : PageReq) : Bool := match r.who with | .ref _ _ _ => true | _ => false

/-- PAGE_REQUEST_RESPONSE (R221, R403). -/
def execPageRequestResponse (i code : Nat) (s : State) : Host.Outcome State Fault Refusal :=
  .next (if (s.pcie.prs[i]?).any PageReq.isRef then (s.pageResponse i code).refSettle else s.pageResponse i code)

/-- HOST_READ_COMPLETION (R390). -/
def execHostReadCompletion (id : Nat) (data : List Byte) (ep fail : Bool) (s : State) : Host.Outcome State Fault Refusal :=
  .next (s.readDone id data ep fail)

/-- HOST_READ_TIMEOUT (R390). -/
def execHostReadTimeout (id : Nat) (s : State) : Host.Outcome State Fault Refusal := .next (s.readTimeout id)

/-- REFERENCE_PAGE_TIMEOUT (R403). -/
def execReferencePageTimeout (ch : HCh) (cseq : Nat) (s : State) : Host.Outcome State Fault Refusal := .next (s.refTimeout ch cseq)

/-- ATS_INVALIDATION (R389). -/
def execAtsInvalidation (pasid page pages : Nat) (s : State) : Host.Outcome State Fault Refusal := .next (s.invalidate pasid page pages)

/-- BAR0_IGNORED_WRITE (R393). -/
def execBar0IgnoredWrite (off size : Nat) (s : State) : Host.Outcome State Fault Refusal := .next (s.bar0Ignored off size)

/-- BAR2_READ (R395). -/
def execBar2Read (off len : Nat) (s : State) : Host.Outcome State Fault Refusal := .next (s.bar2Read off len)

/-- BAR2_WRITE (R395). -/
def execBar2Write (off : Nat) (data : List Byte) (s : State) : Host.Outcome State Fault Refusal := .next (s.bar2Write off data)

/-- PCIE_LINK_UP (R387). -/
def execPcieLinkUp (speed width : Nat) (s : State) : Host.Outcome State Fault Refusal := .next (s.pcieUp speed width)

/-- PCIE_RETRAIN (R417). -/
def execPcieRetrain (s : State) : Host.Outcome State Fault Refusal := .next s.pcieRetrain

/-- LINK_LOSS (R418). -/
def execLinkLoss (s : State) : Host.Outcome State Fault Refusal := .next s.linkLoss

/-- LINK_LOSS_RESET_ENTRY (R418). -/
def execLinkLossResetEntry (s : State) : Host.Outcome State Fault Refusal := .next s.lossReset

end Sys2Proof.Machine
end

