-- ==== Sys2Proof/Machine/Mbx.lean ====
section
/-!
DEFINITION. The mailboxes (chapter "Aselo firmware: mailboxes and the on-module serving and tuning loops", R424 to R431):
doorbells, acceptance, responses, and the services that only register things: bale-signing keys, channels, telemetry.
-/
namespace Sys2Proof.Machine

open Sys2Proof

/-! ### Mailboxes -/

/-- A mailbox's record. -/
def State.box (s : State) (b : Nat) : MbxSt := tget MbxSt.init s.mbx b
def State.modBox (s : State) (b : Nat) (f : MbxSt → MbxSt) : State := { s with mbx := tmod MbxSt.init s.mbx b f }

/-- Owner of a mailbox: partition b − 1, or the manager. -/
def boxOwner (b : Nat) : Nat := if b = 0 then manager else b - 1

/-- BAR0 offset of a mailbox's region. -/
def boxBase (b : Nat) : Nat := 0x400000 + 0x10000 * b

/-- A mailbox type: on which mailboxes it may come (manager, partition, root of trust), and the length of its payload where the
spec fixes it. -/
structure MbxType where
  code : Nat
  mgr : Bool
  part : Bool
  rot : Bool
  len : Option Nat
  deriving DecidableEq, Repr

/-- Tables 15.4 and 17.5, with the payload lengths of Tables 15.12 to 15.17, 15.6 and 16.2. (Log 113 DESIGN CHOICE) -/
def mbxTypes : List MbxType :=
  [ ⟨0x0101, true, false, false, some 128⟩, ⟨0x0102, true, false, false, some 8⟩, ⟨0x0103, true, false, false, some 8⟩,
    ⟨0x0104, true, true, false, some 8⟩, ⟨0x0111, true, false, false, some 48⟩, ⟨0x0112, true, false, false, some 16⟩,
    ⟨0x0121, true, true, false, some 32⟩, ⟨0x0122, true, true, false, some 0⟩, ⟨0x0131, true, true, false, some 16⟩,
    ⟨0x0132, true, true, false, some 0⟩, ⟨0x0141, false, true, false, some 16⟩, ⟨0x0142, false, true, false, some 0⟩,
    ⟨0x0143, false, true, false, some 8⟩, ⟨0x0144, false, true, false, some 8⟩, ⟨0x0151, false, true, false, some 64⟩,
    ⟨0x0152, false, true, false, some 0⟩, ⟨0x0161, false, true, false, none⟩, ⟨0x0162, false, true, false, some 0⟩ ] ++
  [ ⟨0x0171, true, true, false, some 0⟩, ⟨0x0172, true, true, false, none⟩, ⟨0x0173, true, false, false, none⟩,
    ⟨0x0181, true, false, false, some 0⟩,
    ⟨0x0301, false, false, true, some 72⟩, ⟨0x0302, false, false, true, none⟩, ⟨0x0303, false, false, true, none⟩,
    ⟨0x0311, false, false, true, none⟩, ⟨0x0312, false, false, true, some 624⟩, ⟨0x0313, false, false, true, none⟩,
    ⟨0x0321, false, false, true, none⟩, ⟨0x0322, false, false, true, none⟩, ⟨0x0323, false, false, true, none⟩,
    ⟨0x0324, false, false, true, none⟩, ⟨0x0325, false, false, true, none⟩, ⟨0x0331, false, false, true, none⟩,
    ⟨0x0332, false, false, true, none⟩, ⟨0x0333, false, false, true, none⟩ ]

/-- Fields of a message's header (Table 15.3) and its payload. -/
def mType (r : List Byte) : Nat := leAt r 0 2
def mSeq (r : List Byte) : Nat := leAt r 2 2
def mLen (r : List Byte) : Nat := leAt r 4 2
def mHandle (r : List Byte) : Nat := leAt r 8 8
def mPay (r : List Byte) (off n : Nat) : Nat := leAt r (32 + off) n
def mPayBytes (r : List Byte) (off n : Nat) : List Byte := slice r (32 + off) n
/-- Bytes of the payload. -/
def mPayLen (r : List Byte) : Nat := mLen r - 32

/-- Is a partition being reset or removed (order 1 of Table 16.7). -/
def State.partBusy (s : State) (p : Nat) : Bool := s.get PRT_PART_CTL_state 0 p == 3 || s.get PRT_PART_CTL_state 0 p == 4

/-- Why an accepted request is answered without a service: torn, unknown, not allowed on this mailbox, malformed, or its
partition is being reset; 0 for none (R425, R426, R430). (Log 112 DEDUCED) -/
def State.mbxRefuse (s : State) (b seq : Nat) (r : List Byte) : Nat :=
  if mSeq r ≠ seq then 0x0903
  else match mbxTypes.find? fun t => t.code == mType r with
    | none => 0x0901
    | some t =>
      if !(if b = 0 then t.mgr else if b = 17 then t.rot else t.part) then 0x0902
      else if mLen r < 32 ∨ 4096 < mLen r ∨ zeros r 24 8 = false then 0x0904
      else if (match t.len with | some n => mPayLen r != n | none => false) then 0x0904
      else if 1 ≤ b ∧ b ≤ 16 ∧ s.partBusy (b - 1) = true ∧ mType r ≠ 0x0104 then 0x0905
      else 0

/-- Raise a mailbox's vector when it is enabled. -/
def State.mbxVector (s : State) (b : Nat) : State :=
  if s.get MBX_IRQ_en b = 1 then s.msixSend (s.get MBX_IRQ_vector b) else s

/-- MBX_DB (R426). -/
def State.mbxDoorbell (s : State) (b seq : Nat) : State :=
  let a := s.get MBX_STAT_accepted b
  if s.get MBX_STAT_state b ≠ 1 then s.bump MBX_STAT_ignored b
  else if seq = a then
    (if (s.box b).rsp.isEmpty then s else (s.bar0Put (boxBase b + 0x1000) (s.box b).rsp).mbxVector b)
  else if seq = (a + 1) % 65536 then
    let r := s.bar0Bytes (boxBase b) 4096
    let s1 := ((s.put MBX_STAT_accepted b seq).put MBX_STAT_state b 2).modBox b fun x => { x with req := r, stage := 1 }
    let code := s.mbxRefuse b seq r
    if code = 0 then s1 else s1.mbxRespond b code 0 []
  else s.bump MBX_STAT_ignored b

/-- Is a key change of the HBM3 channels still draining (R492): a partition's response waits for it. -/
def State.keysBusy (s : State) : Bool := (List.range 16).any fun k => s.get SEC_HBMKEY_busy 0 k == 1

/-- MBX_RESPONSE (R427): the response is posted, and the mailbox is ready again. -/
def State.mbxPost (s : State) (b : Nat) : State :=
  let x := s.box b
  let prt := mType x.req == 0x0101 || mType x.req == 0x0102 || mType x.req == 0x0103
  if x.stage ≠ 3 ∨ (prt = true ∧ s.keysBusy = true) then s
  else
    ((((s.bar0Put (boxBase b + 0x1000) x.rsp).put MBX_STAT_responded b (s.get MBX_STAT_accepted b)).put MBX_STAT_state b 1).modBox b
      fun x => { x with stage := 0 }).mbxVector b

/-- Carry out an accepted request of a type. -/
def State.mbxServe (s : State) (b ty : Nat) (f : State → List Byte → State) : State :=
  let x := s.box b
  if x.stage = 1 ∧ mType x.req = ty then f s x.req else s

/-- The same for a request that its service may keep. -/
def State.mbxServe2 (s : State) (b ty : Nat) (f : State → List Byte → State) : State :=
  let x := s.box b
  if (x.stage = 1 ∨ x.stage = 2) ∧ mType x.req = ty then f s x.req else s

/-- A service keeps its request: the response follows from a later command. -/
def State.mbxKeep (s : State) (b : Nat) : State := s.modBox b fun x => { x with stage := 2 }

/-! ### Bale-signing keys (R232, Tables 15.12, 15.13) -/

/-- Identifier of a public key: bytes 0 to 7 of its digest. -/
def keyId (key : List Byte) : Nat := leAt (Config.sha512 key) 0 8

/-- Keys registered for a partition. -/
def State.keysOf (s : State) (p : Nat) : List BaleKey := s.sys.keys.filter fun k => k.part == p

/-- KEY_REGISTER. -/
def State.keyRegister (s : State) (b : Nat) (r : List Byte) : State :=
  let p := mPay r 0 1
  let key := mPayBytes r 8 32
  if mHandle r ≠ 0 ∨ zeros r 33 7 = false ∨ zeros r 72 8 = false then s.mbxRespond b 0x0904 0 []
  else if s.partExists p = false then s.mbxRespond b 0x0905 0 []
  else if 8 ≤ (s.keysOf p).length then s.mbxRespond b 0x0941 0 []
  else if (s.keysOf p).any fun k => k.id == keyId key then s.mbxRespond b 0x0942 0 []
  else (s.modSys fun x => { x with keys := x.keys ++ [⟨p, keyId key, key⟩] }).mbxRespond b 0 0 (leBytes 8 (keyId key))

/-- KEY_REVOKE: the key's instances stay loaded. -/
def State.keyRevoke (s : State) (b : Nat) (r : List Byte) : State :=
  let p := mPay r 0 1
  let id := mPay r 8 8
  if mHandle r ≠ 0 ∨ zeros r 33 7 = false then s.mbxRespond b 0x0904 0 []
  else if s.partExists p = false then s.mbxRespond b 0x0905 0 []
  else if (s.keysOf p).any fun k => k.id == id then
    (s.modSys fun x => { x with keys := x.keys.filter fun k => !(k.part == p && k.id == id) }).mbxRespond b 0 0 []
  else s.mbxRespond b 0x0943 0 []

/-! ### Channels (R399, R422, Tables 14.13, 15.14) -/

/-- Open channels of an owner. -/
def State.openChans (s : State) (p : Nat) : List Nat := (List.range 1024).filter fun ch => s.get CHN_CTL_open ch == 1 && s.chOwner ch == p

/-- Is a PASID bound to a partition. -/
def State.pasidBound (s : State) (p pasid : Nat) : Bool := (List.range 8).any fun i => s.pasidSlot p i == (pasid, true)

/-- Partition that a PASID is bound to, among those that exist. -/
def State.pasidTaken (s : State) (pasid : Nat) : Bool := (List.range 16).any fun p => s.partExists p && s.pasidBound p pasid

/-- Do two byte ranges overlap. -/
def overlap (a n b m : Nat) : Bool := decide (a < b + m) && decide (b < a + n)

/-- Checks of Table 14.13. -/
def chanChecks (ch : Nat) (s : State) : List (Bool × Nat) :=
  let p := s.chOwner ch
  let sq := s.get CHN_SQ_BASE_base ch * 4096
  let cq := s.get CHN_CQ_BASE_base ch * 4096
  let n := s.sqSlots ch * 128
  let m := s.cqEntries ch * 32
  [ (p == manager || s.partExists p, 0x0811),
    (decide (s.get CHN_CTL_sq_order ch ≤ 8) && decide (s.get CHN_CTL_cq_order ch ≤ 12), 0x0812),
    (decide (sq + n ≤ 2 ^ 57) && decide (cq + m ≤ 2 ^ 57) && !(overlap sq n cq m), 0x0813),
    (if p = manager then !(s.pasidTaken (s.get CHN_CTL_pasid ch)) else s.pasidBound p (s.get CHN_CTL_pasid ch), 0x0814),
    (s.pcie.pasidEn && (p == manager || decide ((s.openChans p).length < s.pf p 12 2)), 0x0815) ]

/-- First free duplicate window of a partition (R457). -/
def State.freeWindow (s : State) (p : Nat) : Nat :=
  ((List.range 1024).find? fun w => !((s.openChans p).any fun ch => (s.hch ch).winSlot == w)).getD 0

/-- Does a CHAN_OPEN payload keep Table 15.14. -/
def chanOpenOk (mgr : Bool) (r : List Byte) : Bool :=
  decide (mPay r 0 2 < 1024) && decide (mPay r 3 1 < 2) && decide (mPay r 4 1 < 16) && decide (mPay r 5 1 < 16) && decide (mPay r 6 2 < 2048) &&
  mPay r 8 8 % 4096 == 0 && mPay r 16 8 % 4096 == 0 && decide (mPay r 8 8 < 2 ^ 57) && decide (mPay r 16 8 < 2 ^ 57) && mPay r 28 4 == 0 &&
  (if mgr then mPay r 2 1 == 0 && decide (mPay r 24 4 < 2 ^ 20) else decide (mPay r 2 1 < 8) && mPay r 24 4 == 0)

/-- Aselo sets CHN_CTL.open (R399, R422): the checks of Table 14.13 decide; an opened channel starts its counters at zero. -/
def State.openChan (s : State) (ch : Nat) : State :=
  let code := firstFail (chanChecks ch s)
  if code ≠ 0 then s.put CHN_REASON_reason ch code
  else
    let w := s.freeWindow (s.chOwner ch)
    let s2 := ((s.wreg CHN_SQ_STAT ch 0 0 0).wreg CHN_CQ_STAT ch 0 0 0).modCh ch fun _ => { HChan.init with winSlot := w }
    (s2.put CHN_REASON_buffers ch 0).put CHN_CTL_open ch 1

/-- CHAN_OPEN. (Log 59 DEDUCED) -/
def State.chanOpen (s : State) (b : Nat) (r : List Byte) : State :=
  let ch := mPay r 0 2
  let p := boxOwner b
  let slot := if p = manager then (mPay r 24 4, true) else s.pasidSlot p (mPay r 2 1)
  if mHandle r ≠ 0 ∨ chanOpenOk (b == 0) r = false then s.mbxRespond b 0x0904 0 []
  else if s.get CHN_CTL_open ch = 1 then s.mbxRespond b 0x0816 0 []
  else if p ≠ manager ∧ s.pf p 12 2 ≤ (s.openChans p).length then s.mbxRespond b 0x0A0A 0 []
  else if slot.2 = false then s.mbxRespond b 0x0814 0 []
  else
    let ctl := b2n (p == manager) * 4 + (p % 16) * b2n (p != manager) * 16 + mPay r 4 1 * 2 ^ 8 + mPay r 5 1 * 2 ^ 12 + mPay r 6 2 * 2 ^ 16 +
      mPay r 3 1 * 2 ^ 27 + slot.1 * 2 ^ 32
    let s1 := ((s.wreg CHN_CTL ch 0 0 ctl).wreg CHN_SQ_BASE ch 0 0 (mPay r 8 8)).wreg CHN_CQ_BASE ch 0 0 (mPay r 16 8)
    let code := firstFail (chanChecks ch s1)
    (s1.openChan ch).mbxRespond b code (if code = 0 then ch else 0) []

/-- Commands of a channel that are serving requests: they leave at the next step boundary. -/
def State.servingCmds (s : State) (ch : Nat) : List Nat :=
  s.sys.loops.flatMap fun l => ((l.run ++ l.queue).filter fun q => q.ch == ch).map SReq.cseq

/-- CHAN_CLOSE (R410, Table 14.15): the response follows the last order. -/
def State.chanCloseReq (s : State) (b : Nat) (r : List Byte) : State :=
  let ch := mHandle r
  if 1024 ≤ ch ∨ s.get CHN_CTL_open ch = 0 ∨ s.chOwner ch ≠ boxOwner b ∨ (s.hch ch).closing.isSome = true then s.mbxRespond b 0x0905 0 []
  else
    let keep := s.servingCmds ch
    let leave := fun (q : SReq) => if q.ch = ch ∧ q.fail = 0 then { q with fail := 0x0829 } else q
    let s1 := s.modSys fun x => { x with loops := x.loops.map fun l => { l with run := l.run.map leave, queue := l.queue.map leave } }
    (s1.mbxKeep b).closeStart ch b keep

/-! ### Telemetry -/

/-- TELEMETRY: the spec gives the counters no layout, so the payload is a free value. (Log 114 DESIGN CHOICE) -/
def State.telemetry (s : State) (b : Nat) (r : List Byte) : State :=
  if mHandle r ≠ 0 then s.mbxRespond b 0x0904 0 []
  else ({ s with opens := s.opens + 1 }).mbxRespond b 0 0 ((Config.telemetry b s.opens).take 4064)

/-! ### The commands -/

/-- MBX_DB (R426). -/
def execMbxDb (b : Mbx) (v : Word) (s : State) : Host.Outcome State Fault Refusal := .next (s.mbxDoorbell b (nfld v.toNat 0 16))

/-- MBX_RESPONSE (R427). -/
def execMbxResponse (b : Mbx) (s : State) : Host.Outcome State Fault Refusal := .next (s.mbxPost b)

/-- KEY_REGISTER (R232). -/
def execKeyRegister (b : Mbx) (s : State) : Host.Outcome State Fault Refusal := .next (s.mbxServe b 0x0111 fun s r => s.keyRegister b r)

/-- KEY_REVOKE (R431). -/
def execKeyRevoke (b : Mbx) (s : State) : Host.Outcome State Fault Refusal := .next (s.mbxServe b 0x0112 fun s r => s.keyRevoke b r)

/-- CHAN_OPEN (R399). -/
def execChanOpen (b : Mbx) (s : State) : Host.Outcome State Fault Refusal := .next (s.mbxServe b 0x0121 fun s r => s.chanOpen b r)

/-- CHAN_CLOSE (R410). -/
def execChanClose (b : Mbx) (s : State) : Host.Outcome State Fault Refusal := .next (s.mbxServe b 0x0122 fun s r => s.chanCloseReq b r)

/-- TELEMETRY (R430). -/
def execTelemetry (b : Mbx) (s : State) : Host.Outcome State Fault Refusal := .next (s.mbxServe b 0x0171 fun s r => s.telemetry b r)

end Sys2Proof.Machine
end

