-- ==== Sys2Proof/Machine/Pool.lean ====
section
/-!
DEFINITION. The resident pool and the adapter directory (chapters "Common, Hayloft and bank ownership", R186 to R192, and
"Adapter layers and the adapter station", R269 to R279): granule uses, eviction, copies, contracts, pins, leases, homes.
What holds a granule follows from the objects: instances, base versions, contracts and cached copies.
-/
namespace Sys2Proof.Machine

open Sys2Proof

/-! ### Clusters of a partition -/

/-- Crofts of a partition: m of the chapter "Bales". -/
def State.partM (s : State) (p : Nat) : Nat := (s.partCrofts p).length

/-- Clusters of a partition, by physical index. -/
def State.partClus (s : State) (p : Nat) : List Nat := (s.partCrofts p).flatMap croftClus

/-- Physical index of alias cluster a of a partition (R41). -/
def State.aliasClu (s : State) (p a : Nat) : Nat := croftClu (lget 0 (s.partCrofts p) (a / 100)) (a % 100)

/-- Alias clusters of a partition. -/
def State.aliases (s : State) (p : Nat) : List Nat := List.range (100 * s.partM p)

/-- Clear the granules of a mask in a cluster (R185). (Log 74 DEDUCED) -/
def State.wipeMask (s : State) (c mask : Nat) : State :=
  let in_ := fun a => a / 0x800000 == c && nbit mask (a % 0x800000 / 0x10000)
  let s1 := ((List.range 32).filter fun k => s.get CLU_BSLOT_valid c k == 1 && nbit mask (s.get CLU_BSLOT_line c k / 4)).foldl
    (fun (s : State) k => s.dirtyLines (c * 0x800000 + s.get CLU_BSLOT_line c k * 0x4000) 0x4000) s
  { s1 with mem := s1.mem.filter fun p => !(in_ p.1), ecc := s1.ecc.filter fun p => !(in_ p.1) }

/-- Clear granules of a cluster (R185). (Log 74 DEDUCED) -/
def State.wipeGrans (s : State) (c first n : Nat) : State :=
  let lo := c * 0x800000 + first * 0x10000
  (s.dirtyLines lo (n * 0x10000)).wipe lo (n * 0x10000)

/-! ### Objects -/

/-- A base version of a partition, and a change of it. -/
def State.verAt (s : State) (p tag : Nat) : Option Ver := s.sys.vers.find? fun v => v.part == p && v.tag == tag
def State.modVer (s : State) (p tag : Nat) (f : Ver → Ver) : State :=
  s.modSys fun x => { x with vers := x.vers.map fun v => if v.part == p && v.tag == tag then f v else v }

/-- A directory record, and changes of it. -/
def State.recAt (s : State) (slot : Nat) : Option Rec := tfind s.sys.dir slot
def State.putRec (s : State) (slot : Nat) (r : Rec) : State := s.modSys fun x => { x with dir := tins slot r x.dir }
def State.modRec (s : State) (slot : Nat) (f : Rec → Rec) : State :=
  match s.recAt slot with
  | some r => s.putRec slot (f r)
  | none => s

/-- Generation of a directory slot. -/
def State.slotGen (s : State) (slot : Nat) : Nat := tget 0 s.sys.dirGen slot

/-- Free a record: its generation rises (R269). -/
def State.dropRec (s : State) (slot : Nat) : State :=
  s.modSys fun x => { x with dir := tdel slot x.dir, dirGen := tset 0 x.dirGen slot ((tget 0 x.dirGen slot + 1) % 65536) }

/-- Records of a partition: slot and record. -/
def State.recsOf (s : State) (p : Nat) : List (Nat × Rec) := s.sys.dir.filter fun e => e.2.part == p

/-- The record that a slot and generation name, of a partition's own adapters (R269). -/
def State.adapter (s : State) (p slot gen : Nat) : Option Rec :=
  match s.recAt slot with
  | some r => if r.part = p ∧ s.slotGen slot = gen then some r else none
  | none => none

/-- Granules of a copy (R255). -/
def Rec.grans (r : Rec) : Nat := cdiv (r.rank * r.c) 65536

/-- Contracts of a partition. -/
def State.contractsOf (s : State) (p : Nat) : List Contract := s.sys.contracts.filter fun k => k.part == p
def State.contractAt (s : State) (p h : Nat) : Option Contract := (s.contractsOf p).find? fun k => k.handle == h

/-- Does a copy lie in a contract's granules. -/
def State.inContract (s : State) (p g : Nat) : Bool := (s.contractsOf p).any fun k => k.grans.contains g

/-- A fresh handle. -/
def State.newHandle (s : State) : State × Nat := (s.modSys fun x => { x with nextHandle := x.nextHandle + 1 }, s.sys.nextHandle)

/-! ### Granule uses (Table 7.4) -/

/-- Does an object other than a cached copy hold granule g of an alias cluster. (Log 70 DESIGN CHOICE) -/
def State.granFixed (s : State) (p a g : Nat) : Bool :=
  ((s.instsOf p).any fun i => i.hold != 0 && nbit (mGrans (bMan i.bale) a) g) ||
  (s.sys.vers.any fun v => v.part == p && decide (v.gran ≤ g) && decide (g < v.gran + v.g)) ||
  s.inContract p g

/-- The adapter whose cached copy holds granule g. (Log 70 DESIGN CHOICE) -/
def State.granCopy (s : State) (p g : Nat) : Option Nat :=
  ((s.recsOf p).find? fun e => match e.2.copy with
    | some (f, _) => decide (f ≤ g) && decide (g < f + e.2.grans) && !(s.inContract p f)
    | none => false).map (·.1)

/-- Does the earlier place of a copy still hold granule g (R192). (Log 70 DESIGN CHOICE) -/
def State.granOld (s : State) (p g : Nat) : Bool :=
  (s.recsOf p).any fun e => e.2.olds.any fun o => decide (o.1 ≤ g) && decide (g < o.1 + e.2.grans)

/-- Is granule index g free in every cluster of the partition. (Log 70 DESIGN CHOICE) -/
def State.granFree (s : State) (p g : Nat) : Bool :=
  (s.aliases p).all (fun a => !(s.granFixed p a g)) && (s.granCopy p g).isNone && !(s.granOld p g)

/-- Lowest run of n free granule indices from `lo` to 119 that avoids a list. -/
def State.freeRun (s : State) (p lo n : Nat) (avoid : List Nat) : Option Nat :=
  ((List.range (120 - lo)).find? fun i => decide (lo + i + n ≤ 120) &&
    (List.range n).all fun d => s.granFree p (lo + i + d) && !(avoid.contains (lo + i + d))).map (lo + ·)

/-- First granule of Hayloft in a window. (Log 71 DEDUCED) -/
def hayGran : Nat := 32

/-! ### Copies and their eviction (R187, R189 to R191) -/

/-- Clear a place of a copy in every cluster of its partition. -/
def State.wipeCopy (s : State) (r : Rec) (f : Nat) : State := (s.partClus r.part).foldl (fun (s : State) c => s.wipeGrans c f r.grans) s

/-- Take a copy away: its granules held sealed plaintext and are cleared (R186). (Log 74 DEDUCED, 77 DEDUCED) -/
def State.evictCopy (s : State) (slot : Nat) : State :=
  match s.recAt slot with
  | none => s
  | some r => match r.copy with
    | none => s
    | some (f, _) => (s.wipeCopy r f).modRec slot fun r => { r with copy := none, drainN := 0 }

/-- A copy is released: an unpin that waited for it is complete (R272). -/
def State.copyGone (s : State) (slot : Nat) : State :=
  (s.evictCopy slot).modRec slot fun r => if r.unpin then { r with contract := none, unpin := false } else r

/-- A new copy at a place: it fills. -/
def Rec.place (r : Rec) (f : Nat) : Rec := { r with copy := some (f, 0), copyNo := r.copyNo + 1, drainN := 0 }

/-- Free the earlier places that only a step's table named (R192): at a boundary no table names them. -/
def State.freeOlds (s : State) (p : Nat) : State :=
  (s.recsOf p).foldl (fun (s : State) e =>
    if e.2.olds.isEmpty then s
    else ((e.2.olds.filter fun o => o.2.2 == 0).foldl (fun (s : State) o => s.wipeCopy e.2 o.1) s).modRec e.1
      fun r => { r with olds := r.olds.filter fun o => o.2.2 != 0 }) s

/-- Latest use stamp of granule indices in a partition (R187). -/
def State.lastUse (s : State) (p f n : Nat) : Nat :=
  lmax ((s.partClus p).flatMap fun c => (List.range n).map fun g => s.get MEM_STAMP_stamp c (f + g))

/-- An object that may be evicted: its latest use, and what it is: an adapter's slot, or a base version's tag. -/
inductive Evict where
  | copy (slot : Nat)
  | ver (tag : Nat)
  deriving DecidableEq, Repr

/-- Insert by age, the oldest first; equal ages stay in order. -/
def ageIns (x : Nat × Evict) : List (Nat × Evict) → List (Nat × Evict)
  | [] => [x]
  | y :: t => if x.1 < y.1 then x :: y :: t else y :: ageIns x t

/-- Sort by age. -/
def ageSort (l : List (Nat × Evict)) : List (Nat × Evict) := l.foldl (fun a x => ageIns x a) []

/-- Copies that age eviction may choose: cached, resident, not leased (R190). -/
def State.evictCopies (s : State) (p : Nat) : List (Nat × Evict) :=
  ageSort ((s.recsOf p).filterMap fun e => match e.2.copy with
    | some (f, 1) => if e.2.leases = 0 ∧ s.inContract p f = false then some (s.lastUse p f e.2.grans, .copy e.1) else none
    | _ => none)

/-- Is a base version referenced by a loaded instance or a contract (R191). -/
def State.verHeld (s : State) (p tag : Nat) : Bool :=
  ((s.instsOf p).any fun i => i.base == tag) || ((s.contractsOf p).any fun k => k.base == tag)

/-- Versions that may be evicted. -/
def State.evictVers (s : State) (p : Nat) : List (Nat × Evict) :=
  ageSort ((s.sys.vers.filter fun v => v.part == p && v.state != 0 && !(s.verHeld p v.tag)).map fun v => (s.lastUse p v.gran v.g, .ver v.tag))

/-- Evict one object. -/
def State.evict (s : State) (p : Nat) : Evict → State
  | .copy slot => s.evictCopy slot
  | .ver tag => s.modSys fun x => { x with vers := x.vers.filter fun v => !(v.part == p && v.tag == tag) }

/-- Evict in order until the need is met; nothing when all of it would not do (R190). -/
def evictUntil (p : Nat) (enough : State → Bool) : List (Nat × Evict) → State → Option State
  | [], s => if enough s then some s else none
  | x :: t, s => if enough s then some s else evictUntil p enough t (s.evict p x.2)

/-- Make room under R190: cached copies by age, then base versions. -/
def State.makeRoom (s : State) (p : Nat) (enough : State → Bool) : Option State :=
  evictUntil p enough (s.evictCopies p ++ s.evictVers p) s

/-- Claim a run of granules. -/
def State.claimRun (s : State) (p lo n : Nat) : Option (State × Nat) :=
  match s.makeRoom p fun t => (t.freeRun p lo n []).isSome with
  | none => none
  | some t => (t.freeRun p lo n []).map fun f => (t, f)

/-- Runs of n granules, k of them. (Log 71 DEDUCED) -/
def State.freeRuns (s : State) (p n : Nat) : Nat → List Nat → Option (List Nat)
  | 0, acc => some acc
  | k + 1, acc => match s.freeRun p hayGran n acc with
    | none => none
    | some f => s.freeRuns p n k (acc ++ (List.range n).map (f + ·))

/-! ### Filling a copy (R255, R270) -/

/-- Stamp granules with the present tick, as a fill's end does (R189). -/
def State.stampGrans (s : State) (c first n : Nat) : State :=
  (List.range n).foldl (fun s g => s.put MEM_STAMP_stamp c s.stampNow (first + g)) s

/-- Copy bytes from HBM3 into on-chip memory block by block, by Aselo: no stamp, poison kept. -/
def State.copyBlocks (s : State) (src dst n : Nat) : State :=
  (List.range (n / 64)).foldl (fun (s : State) b =>
    (s.noteRead (src + 64 * b) 64).wrData (dst + 64 * b) (s.rdMem (src + 64 * b) 64) (s.rdPoison (src + 64 * b) 64) false) s

/-- Records of a cluster: home record, copy record and wt of each defined down or up op (R253, Table 10.7). (Log 73 DEDUCED) -/
def State.adpRecords (s : State) (c : Nat) : List (Nat × Nat × Nat) :=
  ((s.adpOps c).filter fun o => nfld o 1 2 == 1 || nfld o 1 2 == 2).map fun o => (nfld o 16 24, nfld o 40 14, adpWt o)

/-- Fill one cluster's part of a copy from its croft's home part. (Log 73 DEDUCED) -/
def State.fillClu (s : State) (c : Nat) (r : Rec) (f : Nat) : State :=
  (s.adpRecords c).foldl (fun (s : State) e =>
    let n := 256 * r.rank * e.2.2
    let off := e.2.1 * 256 * r.rank
    if off + n ≤ r.grans * 0x10000 then
      s.copyBlocks (croftOff (cluCroft c) (r.home * 1024 + e.1 * 256 * r.rank)) (c * 0x800000 + f * 0x10000 + off) n
    else s) s

/-- POOL_FILL_DONE (R189, R270): the copy becomes resident with every granule stamped, or its granules are freed. One marked draining
is draining now, or released where no lease holds it. -/
def State.fillDone (s : State) (slot : Nat) (ok : Bool) : State :=
  match s.recAt slot with
  | none => s
  | some r =>
    let full := fun (f st : Nat) =>
      ((s.partClus r.part).foldl (fun (s : State) c => (s.fillClu c r f).stampGrans c f r.grans) s).modRec slot fun r => { r with copy := some (f, st) }
    match r.copy with
    | some (f, 0) => if ok then full f 1 else (s.evictCopy slot).modRec slot fun r => { r with contract := none, unpin := false }
    | some (f, 3) => if ok = true ∧ r.drainN ≠ 0 then full f 2 else s.copyGone slot
    | _ => s

/-- Promotion (R270): a ready adapter without a copy claims granules and its fill starts; where no room can be made it is skipped, with
reason 0x0531. (Log 182 DEDUCED) -/
def State.promote (s : State) (slot : Nat) : State :=
  match s.recAt slot with
  | none => s
  | some r =>
    if r.state ≠ 1 ∨ r.copy.isSome = true then s
    else match s.claimRun r.part hayGran r.grans with
      | none => s.event 0x0531 0xFFFF r.part (packDetail [(slot, 2)])
      | some (s1, f) => s1.modRec slot fun r => r.place f

/-! ### Homes (R254, R255) -/

/-- Bytes of a home part, whole KiB. (Log 72 DEDUCED) -/
def homeKib (rank h : Nat) : Nat := cdiv (rank * h) 1024

/-- Bounds of the adapter store in KiB of croft-relative offset, without the step record areas. -/
def State.storeLo (s : State) (p : Nat) : Nat := (6144 - s.pf p 8 2) * 2048
def storeHi : Nat := 6144 * 2048 - 256

/-- Lowest place for a home of n KiB that no other home of the partition overlaps. (Log 72 DEDUCED) -/
def State.homePlace (s : State) (p n : Nat) : Option Nat :=
  let used := (s.recsOf p).map fun e => (e.2.home, homeKib e.2.rank e.2.h)
  let ok := fun o => decide (s.storeLo p ≤ o) && decide (o + n ≤ storeHi) && used.all fun u => !(overlap o n u.1 u.2)
  let cand := (s.storeLo p :: used.map fun u => u.1 + u.2).filter ok
  match cand with
  | [] => none
  | x :: t => some (t.foldl Nat.min x)

/-- Zero an adapter's home in every croft (Table 10.11). -/
def State.homeZero (s : State) (r : Rec) : State :=
  (s.partCrofts r.part).foldl (fun (s : State) k => s.zero (croftOff k (r.home * 1024)) (r.rank * r.h)) s

/-! ### Leases and pins (R272, R273, R275) -/

/-- Take a lease. -/
def State.leaseTake (s : State) (slot : Nat) : State := s.modRec slot fun r => { r with leases := r.leases + 1 }

/-- Number up to which the copies of an adapter are not held by a lease granted now: a draining copy takes no new lease (R191). -/
def State.leaseSpare (s : State) (slot : Nat) : Nat :=
  match s.recAt slot with
  | none => 0
  | some r => match r.copy with
    | some (_, st) => if 2 ≤ st then r.copyNo else r.copyNo - 1
    | none => r.copyNo

/-- Release a lease, which does not hold the copies up to number `spare`: a draining copy ends with the last lease that holds it (R191,
R272, R275). -/
def State.leaseDrop (s : State) (slot spare : Nat) : State :=
  let less := fun (o : Nat × Nat × Nat) => if spare < o.2.1 then (o.1, o.2.1, o.2.2 - 1) else o
  match s.recAt slot with
  | none => s
  | some r =>
    let draining := (match r.copy with | some (_, st) => decide (2 ≤ st) | none => false) && decide (spare < r.copyNo)
    let olds := (r.olds.filter fun o => o.2.2 != 0).map less
    let s1 := s.modRec slot fun r =>
      { r with leases := r.leases - 1, drainN := if draining then r.drainN - 1 else r.drainN,
               olds := (r.olds.filter fun o => o.2.2 == 0) ++ olds.filter fun o => o.2.2 != 0 }
    let s2 := (olds.filter fun o => o.2.2 == 0).foldl (fun (s : State) o => s.wipeCopy r o.1) s1
    match r.copy with
    | some (_, 2) => if draining && r.drainN ≤ 1 then s2.copyGone slot else s2
    | _ => s2

/-- Evict a copy explicitly: at once, or it is draining until its fill is over and its last lease ends (R191). -/
def State.drainCopy (s : State) (slot : Nat) : State :=
  match s.recAt slot with
  | none => s
  | some r => match r.copy with
    | some (f, 0) => s.modRec slot fun r => { r with copy := some (f, 3), drainN := r.leases }
    | some (f, 1) => if r.leases = 0 then s.evictCopy slot else s.modRec slot fun r => { r with copy := some (f, 2), drainN := r.leases }
    | _ => s

/-- Adapters that a contract pins. -/
def State.pinsOf (s : State) (h : Nat) : List (Nat × Rec) := s.sys.dir.filter fun e => e.2.contract == some h

/-- Drop a pin without waiting (R276). -/
def State.pinDrop (s : State) (slot : Nat) : State := s.modRec slot fun r => { r with contract := none, unpin := false }

/-- End a contract (R272): every pin is dropped, a leased copy leaving with its last lease, and the reservation is released. -/
def State.contractEnd (s : State) (h : Nat) : State :=
  let s1 := (s.pinsOf h).foldl (fun (s : State) e => (s.drainCopy e.1).pinDrop e.1) s
  s1.modSys fun x => { x with contracts := x.contracts.filter fun k => k.handle != h }

/-- CONTRACT_CREATE (R271). (Log 71 DEDUCED) -/
def State.contractCreate (s : State) (b : Nat) (r : List Byte) : State :=
  let p := boxOwner b
  let owner := mPay r 0 4
  let tag := mPay r 4 2
  let pins := mPay r 6 2
  let rm := mPay r 8 1
  if mHandle r ≠ 0 ∨ zeros r 41 7 = false ∨ pins = 0 ∨ 4096 < pins ∨ [4, 8, 16, 32, 64].contains rm = false then s.mbxRespond b 0x0904 0 []
  else match s.verAt p tag with
    | none => s.mbxRespond b 0x0905 0 []
    | some v =>
      if v.state ≠ 1 then s.mbxRespond b 0x0905 0 []
      else
        let n := cdiv (rm * v.c) 65536
        match s.makeRoom p fun t => (t.freeRuns p n pins []).isSome with
        | none => s.mbxRespond b 0x0533 0 []
        | some t =>
          let h := t.newHandle
          let k : Contract := { handle := h.2, part := p, owner := owner, base := tag, pins := pins, rankMax := rm, grans := (t.freeRuns p n pins []).getD [] }
          (h.1.modSys fun x => { x with contracts := x.contracts ++ [k] }).mbxRespond b 0 h.2 []

/-- CONTRACT_END (R272): with a pin that a lease holds, its eviction is deferred and the response says so (R191). -/
def State.contractEndReq (s : State) (b : Nat) (r : List Byte) : State :=
  match s.contractAt (boxOwner b) (mHandle r) with
  | none => s.mbxRespond b 0x0905 0 []
  | some k =>
    let held := (s.pinsOf k.handle).any fun e => e.2.leases != 0
    (s.contractEnd k.handle).mbxRespond b (if held then 0x0534 else 0) 0 []

/-- A place among a contract's granules: one for each pin, of the size that its largest rank needs, the lowest that no copy holds. (Log 75 DEDUCED) -/
def State.contractRun (s : State) (k : Contract) : Option Nat :=
  let n := k.grans.length / k.pins
  let taken := fun g => (s.recsOf k.part).any fun e =>
    ((match e.2.copy with | some (f, _) => [f] | none => []) ++ e.2.olds.map Prod.fst).any fun f => decide (f ≤ g) && decide (g < f + e.2.grans)
  ((List.range k.pins).map fun i => (k.grans.drop (n * i)).take n).findSome? fun gs => if gs.any taken then none else gs.head?

/-- Is a copy named by the table of a step that is prepared or runs. -/
def State.inTable (s : State) (p slot : Nat) : Bool := s.sys.loops.any fun l => l.part == p && l.phase != 0 && l.adapters.contains slot

/-- Move a resident copy to other granules: the bytes are read and written by Aselo, whose accesses stamp nothing (R187); the old granules
are cleared once no step's table names them (R192). -/
def State.copyMove (s : State) (slot : Nat) (r : Rec) (f g : Nat) : State :=
  let n := r.grans * 0x10000
  let s1 := (s.partClus r.part).foldl (fun (s : State) c => s.copyBlocks (c * 0x800000 + f * 0x10000) (c * 0x800000 + g * 0x10000) n) s
  if s.inTable r.part slot then s1.modRec slot fun r => { r with copy := some (g, 1), olds := r.olds ++ [(f, r.copyNo, 0)] }
  else (s1.wipeCopy r f).modRec slot fun r => { r with copy := some (g, 1) }

/-- Place the copy of an adapter that is pinned: a resident copy moves; one that drains is made anew, and its old place is free when its
last lease ends. -/
def State.pinPlace (s : State) (slot : Nat) (a : Rec) (g : Nat) : State :=
  match a.copy with
  | some (f, 1) => s.copyMove slot a f g
  | some (f, 2) => s.modRec slot fun r => { r with olds := r.olds ++ [(f, r.copyNo, r.drainN)] }.place g
  | some (f, _) => (s.wipeCopy a f).modRec slot fun r => r.place g
  | none => s.modRec slot fun r => r.place g

/-- PIN (R272). While every place of the contract still holds a copy of a pin that was dropped by force (R276), the request waits. (Log 75 DEDUCED) -/
def State.pinReq (s : State) (b : Nat) (r : List Byte) : State :=
  let p := boxOwner b
  let slot := mPay r 0 2
  if zeros r 36 4 = false then s.mbxRespond b 0x0904 0 []
  else match s.contractAt p (mHandle r) with
    | none => s.mbxRespond b 0x0905 0 []
    | some k => match s.adapter p slot (mPay r 2 2) with
      | none => s.mbxRespond b 0x0D22 0 []
      | some a =>
        if a.state = 2 then s.mbxRespond b 0x0D22 0 []
        else if a.state = 0 then s.mbxRespond b 0x0D27 0 []
        else if a.owner ≠ k.owner ∨ a.contract.isSome = true then s.mbxRespond b 0x0905 0 []
        else if a.base ≠ k.base then s.mbxRespond b 0x0D23 0 []
        else if k.rankMax < a.rank then s.mbxRespond b 0x0D24 0 []
        else if k.pins ≤ (s.pinsOf k.handle).length then s.mbxRespond b 0x0D25 0 []
        else match s.contractRun k with
          | none => s
          | some g => ((s.pinPlace slot a g).modRec slot fun x => { x with contract := some k.handle, unpin := false }).mbxRespond b 0 0 []

/-- UNPIN (R272): a leased copy is draining and stays where it is until its last lease ends. -/
def State.unpinReq (s : State) (b : Nat) (r : List Byte) : State :=
  let p := boxOwner b
  let slot := mPay r 0 2
  if zeros r 36 4 = false then s.mbxRespond b 0x0904 0 []
  else match s.contractAt p (mHandle r) with
    | none => s.mbxRespond b 0x0905 0 []
    | some k => match s.adapter p slot (mPay r 2 2) with
      | none => s.mbxRespond b 0x0D22 0 []
      | some a =>
        if a.contract ≠ some k.handle then s.mbxRespond b 0x0905 0 []
        else if a.leases = 0 then ((s.evictCopy slot).pinDrop slot).mbxRespond b 0 0 []
        else ((s.drainCopy slot).modRec slot fun x => { x with unpin := true }).mbxRespond b 0x0534 0 []

/-- Is a load or an unload of a partition under way for another mailbox: the messages that load, unload or change its pool wait for it,
one at a time (R242). -/
def State.opBusy (s : State) (p b : Nat) : Bool :=
  ((s.instsOf p).any fun i => !i.loaded) ||
  [0, p + 1].any fun m => m != b && (s.box m).stage == 2 && mType (s.box m).req == 0x0132 &&
    s.sys.insts.any fun i => i.handle == mHandle (s.box m).req && i.part == p

/-- Serve a pool operation of a partition's mailbox, in its turn. -/
def State.poolServe (s : State) (b ty : Nat) (f : State → List Byte → State) : State :=
  if s.opBusy (boxOwner b) b then s else s.mbxServe b ty f

/-! ### The commands -/

/-- POOL_FILL_DONE (R189). -/
def execPoolFillDone (slot : Nat) (ok : Bool) (s : State) : Host.Outcome State Fault Refusal := .next (s.fillDone slot ok)

/-- CONTRACT_CREATE (R271). -/
def execContractCreate (b : Mbx) (s : State) : Host.Outcome State Fault Refusal := .next (s.poolServe b 0x0141 fun s r => s.contractCreate b r)

/-- CONTRACT_END (R272). -/
def execContractEnd (b : Mbx) (s : State) : Host.Outcome State Fault Refusal := .next (s.poolServe b 0x0142 fun s r => s.contractEndReq b r)

/-- PIN (R272). -/
def execPin (b : Mbx) (s : State) : Host.Outcome State Fault Refusal := .next (s.poolServe b 0x0143 fun s r => s.pinReq b r)

/-- UNPIN (R272). -/
def execUnpin (b : Mbx) (s : State) : Host.Outcome State Fault Refusal := .next (s.poolServe b 0x0144 fun s r => s.unpinReq b r)

end Sys2Proof.Machine
end

