-- ==== Sys2Proof/Machine/Ctxt.lean ====
section
/-!
DEFINITION. Contexts, the loaded bale instances (R467 to R478): which clusters and cores they have, running and stopping their
cores, and the channel commands of Aselo's services.
-/
namespace Sys2Proof.Machine

open Sys2Proof

/-! ### Instances -/

/-- An instance, and a change of it. -/
def State.instAt (s : State) (h : Nat) : Option Inst := s.sys.insts.find? fun i => i.handle == h
def State.modInst (s : State) (h : Nat) (f : Inst → Inst) : State :=
  s.modSys fun x => { x with insts := x.insts.map fun i => if i.handle == h then f i else i }

/-- The latency-critical instance of a partition. -/
def State.lcInst (s : State) (p : Nat) : Option Inst := (s.instsOf p).find? fun i => i.cls == 1 && i.loaded

/-- Cluster map entry of an alias cluster of an instance. -/
def Inst.entry (i : Inst) (a : Nat) : CEnt := bClu i.bale a

/-- Alias clusters whose core the instance runs: those whose code_len is not zero. -/
def State.coreAliases (s : State) (i : Inst) : List Nat := (s.aliases i.part).filter fun a => (i.entry a).codeLen != 0

/-- Physical clusters of an instance's cores. -/
def State.coreClus (s : State) (i : Inst) : List Nat := (s.coreAliases i).map (s.aliasClu i.part)

/-- Clusters that an instance holds: it runs there now. -/
def State.heldBy (s : State) (h : Nat) : List Nat := (List.range 1600).filter fun c => (s.cl c).inst == some h

/-- Does a core of an instance still run. -/
def State.instActive (s : State) (i : Inst) : Bool := (s.coreClus i).any fun c => (s.cl c).inst == some i.handle && s.coreActive c

/-- Put the instance's program into a cluster: instruction image, save area, PASID and class of its context (Table 9.11, R458). (Log 67 DESIGN CHOICE) -/
def State.bindClu (s : State) (i : Inst) (a : Nat) : State :=
  let c := s.aliasClu i.part a
  let e := i.entry a
  let code := slice (bPool i.bale 4) (64 * e.codeOff) (64 * e.codeLen)
  let imem := (List.range (16 * e.codeLen)).foldl (fun t k => tset 0 t k (BitVec.ofNat 64 (leAt code (4 * k) 4))) []
  let s1 := s.modCl c fun x =>
    { x with inst := some i.handle, pasid := some i.pasid, cls := if i.cls = 1 then 1 else 3,
             core := if e.codeLen = 0 then x.core else { x.core with imem := imem, marks := [] } }
  let s2 := (s1.put CLU_CORE_SAVE_addr c e.saveAt).put CLU_CORE_PC_pc c (e.pc / 4)
  if e.codeLen = 0 then s2 else (s2.put CLU_IMEM_LOAD_len c e.codeLen).put CLU_IMEM_LOAD_done c 1

/-- Bind every cluster of an instance's partition to it. (Log 67 DESIGN CHOICE) -/
def State.bindInst (s : State) (i : Inst) : State := (s.aliases i.part).foldl (fun s a => s.bindClu i a) s

/-- Set the dither registers of a cluster. -/
def State.setDither (s : State) (c seed step : Nat) : State := (s.wreg CLU_DITHER_SEED c 0 0 seed).put CLU_DITHER_STEP_step c step

/-- Write run = 0, the entry point, and run = 1 on each core (R435). -/
def State.startCores (s : State) (i : Inst) : State :=
  (s.coreAliases i).foldl (fun (s : State) a =>
    let c := s.aliasClu i.part a
    ((s.coreStop c 0).put CLU_CORE_PC_pc c ((i.entry a).pc / 4)).coreRun c 1) s

/-- Request a yield of every core of an instance (R469). -/
def State.askYield (s : State) (i : Inst) : State :=
  (s.coreClus i).foldl (fun (s : State) c => if (s.cl c).inst = some i.handle then s.put CLU_CORE_CTL_yield_req c 1 else s) s

/-! ### Stopping (Table 16.10, R246) -/

/-- Order 1: run = 0 on every core of the context, and a cancel in every cluster whose engine it holds. -/
def State.stopCtx (s : State) (cs : List Nat) : State := cs.foldl (fun (s : State) c => (s.coreStop c 0).cancelAll c) s

/-- Cluster that an access was issued by. -/
def whoClu : Who → Option Nat
  | .str c _ _ _ _ => some c
  | .retry c _ _ => some c
  | .load c _ => some c
  | .store c _ => some c
  | .adp c _ => some c
  | _ => none

/-- Has the context nothing outstanding (order 2): its skeins are done, its queues have no transfer, and every Lokel request of
its clusters is answered. -/
def State.ctxDrained (s : State) (cs : List Nat) : Bool :=
  cs.all (fun c => (s.cl c).eng.slots.all Skein.done && (s.cl c).strq.all fun q => q.2.xfers.isEmpty) &&
  !(s.lok.any fun d => d.2.outs.any fun o => match o.who with
    | some w => (match whoClu w with | some c => cs.contains c | none => false)
    | none => false)

/-- What the context's skeins still hold is given back. -/
def State.dropSkeins (s : State) (c : Nat) : State :=
  let s1 := (s.cl c).eng.slots.foldl (fun (s : State) k => s.skComplete c k.no) s
  let s2 := (s1.cl c).eng.slots.foldl
    (fun (s : State) k => (k.stages.foldl (fun (s : State) st => s.stnFree c st.stn) s).unbindQ c k.no) s1
  s2.modEng c fun e => { e with launch := [], slots := [], heldQ := [] }

/-- A stopped engine is disabled and enabled again (order 3). -/
def State.reviveEngine (s : State) (c : Nat) : State :=
  if (s.cl c).eng.stopped then s.modEng c fun e => { e with launch := [], stopped := false, disabling := false, starve := 0 } else s

/-- Op registers of a station kind, and their count of registers per op: 0 MAT to 5 ADP. -/
def kindOps (k : Nat) : List Reg :=
  match k with
  | 0 => [MAT_OPA, MAT_OPB]
  | 1 => [VEC_OP]
  | 2 => [SUM_OP]
  | 3 => [CNV_OP]
  | 4 => [GTH_OP]
  | _ => [ADP_OP]

/-- Clear the op entries of a mask in a cluster. -/
def State.clearOps (s : State) (c k mask : Nat) : State :=
  ((List.range 16).filter fun o => nbit mask o).foldl (fun (s : State) o =>
    (kindOps k).foldl (fun (s : State) r =>
      if k = 0 then (List.range 16).foldl (fun (s : State) m => s.wreg r c m o 0) s else s.wreg r c o 0 0) s) s

/-! ### Switching stations and blocks off and on (R245, R246, R248) -/

/-- Run actions until one reports a refusal. -/
def untilRefused {α : Type} (f : State → α → State × Nat) : List α → State → State × Nat
  | [], s => (s, 0)
  | x :: t, s => let q := f s x; if q.2 ≠ 0 then q else untilRefused f t q.1

/-- Stations of a cluster by code that are enabled: 0 to 15 MAT, 0x10 to 0x14 VEC, SUM, CNV, GTH, ADP. -/
def State.stnsOn (s : State) (c : Nat) : List Nat :=
  ((List.range 16).filter fun m => s.get MAT_CTL_en c m == 1) ++ [0x10, 0x11, 0x12, 0x13, 0x14].filter fun k => s.get (stnEn k) c == 1

/-- Switch a station off: its control register is written back with en = 0. -/
def State.stnOff (s : State) (c k : Nat) : State :=
  if k < 16 then s.matDisable c k (BitVec.ofNat 64 (nput (s.rreg MAT_CTL c k) 0 1 0))
  else
    let v := BitVec.ofNat 64 (nput (s.rreg (stnEn k).reg c) 0 1 0)
    if k = 0x14 then s.adpDisable c v else s.stnDisable c k v

/-- Switch a station on; the reason of a refusal. -/
def State.stnOn (s : State) (c k : Nat) : State × Nat :=
  if k < 16 then
    let t := s.matEnable c k (BitVec.ofNat 64 (s.rreg MAT_CTL c k ||| 1))
    if t.get MAT_CTL_en c k = 1 then (t, 0) else (t, t.get MAT_CTL_reason c k)
  else
    let v := BitVec.ofNat 64 (s.rreg (stnEn k).reg c ||| 1)
    let t := if k = 0x14 then s.adpEnable c v else s.stnEnable c k v (stnEnChecks c k)
    if t.get (stnEn k) c = 1 then (t, 0) else (t, t.get (stnReason k) c)

/-- Put back the held accumulator buffers that a cluster had, as a restore of R117 does. -/
def State.bufsBack (s old : State) (c : Nat) : State :=
  (List.range 16).foldl (fun (s : State) m =>
    match old.heldBuf c m with
    | some b =>
      let x := old.mat c m
      ((s.modMat c m fun y => { (y.setBuf b (x.buf b)) with heldMul := x.heldMul, heldFeed := x.heldFeed, heldGroup := x.heldGroup }).put
        (bufFld b) c 3 m).put MAT_STAT_held_poison c (b2n (x.buf b).poison) m
    | none => s) s

/-- Switch every enabled station of some clusters off. (Log 68 DESIGN CHOICE) -/
def State.clusOff (s : State) (cs : List Nat) : State := cs.foldl (fun (s : State) c => (s.stnsOn c).foldl (fun (s : State) k => s.stnOff c k) s) s

/-- Switch on again the stations that were enabled in `old`, with the held buffers of clusters that an instance other than `h` holds. (Log 68 DESIGN CHOICE) -/
def State.clusOn (s old : State) (cs : List Nat) (h : Nat) : State :=
  cs.foldl (fun (s : State) c =>
    let s1 := (old.stnsOn c).foldl (fun (s : State) k => (s.stnOn c k).1) s
    if (old.cl c).inst = some h then s1 else s1.bufsBack old c) s

/-- Other instances of an instance's partition that are loaded. -/
def State.others (s : State) (i : Inst) : List Inst := (s.instsOf i.part).filter fun j => j.handle != i.handle && j.loaded

/-- Does no other instance of an instance's partition run: no step, no core, no skein. Only then are its stations disabled. (Log 187 DEDUCED) -/
def State.othersQuiet (s : State) (i : Inst) : Bool :=
  (s.others i).isEmpty ||
  (!(s.sys.loops.any fun l => l.part == i.part && l.phase == 3 && l.inst != i.handle) && !((s.others i).any fun j => s.instActive j) &&
    (s.partClus i.part).all fun c => (s.cl c).inst == some i.handle || (s.cl c).eng.slots.all Skein.done)

/-- Take an instance's program out of the clusters, in the reverse of Table 9.11 order (R248): the stations are disabled, its queues are
disabled, and its op entries are cleared; the stations of the other instances are enabled again. Undoing a load also disables what the
load had switched on: skein engines before the stations, STR units after their queues. (Log 68 DESIGN CHOICE) -/
def State.unprogram (s : State) (i : Inst) (undo : Bool := false) : State :=
  let m := bMan i.bale
  let cs := s.partClus i.part
  let s1 := if undo then (i.swOn.filter fun x => x.2 == 2).foldl (fun (s : State) x => s.put CTL_SK_CTL_en x.1 0) s else s
  let s2 := s1.clusOff cs
  let s3 := (mQs m).foldl (fun (s : State) q => s.put STR_QCFG_en (s.aliasClu i.part q.clu) 0 (q.q / 32) (q.q % 32)) s2
  let s4 := if undo then (i.swOn.filter fun x => x.2 != 2).foldl (fun (s : State) x => s.put STR_CTL_en x.1 0 x.2) s3 else s3
  let s5 := cs.foldl (fun (s : State) c => (List.range 6).foldl (fun (s : State) k => s.clearOps c k (mOps m k)) s) s4
  if (s.others i).isEmpty then s5 else s5.clusOn s cs i.handle

/-- Fault an instance's context as a whole (R477): in a cluster that it holds, or noted where it holds none. -/
def State.faultInst (s : State) (i : Inst) (code : Nat) : State :=
  match s.heldBy i.handle with
  | [] => s.modInst i.handle fun i => { i with fault := if i.fault = 0 then code else i.fault }
  | c :: _ => s.ctxFault c code

/-- Lent lines of a partition become not valid without return (Table 16.10). -/
def State.lentDrop (s : State) (p : Nat) : State :=
  let s1 := (s.partClus p).foldl (fun (s : State) c => (List.range 32).foldl (fun (s : State) k => s.put CLU_BSLOT_valid c 0 k) s) s
  s1.modSys fun x => { x with insts := x.insts.map fun i => if i.part == p then { i with lent := [] } else i }

/-- Orders 6 and 7: an instance that lines are lent to, or whose lines are lent, ends the loan. Its clusters and pages are free, and its
granules once they are cleared (R186): any of them may hold plaintext of a sealed adapter. (Log 183 DESIGN CHOICE) -/
def State.dropInst (s : State) (i : Inst) : State :=
  let own := i.cls == 1 || (s.part i.part).lastBe == i.handle || (s.part i.part).be == some i.handle || !i.lent.isEmpty
  let s0 := if own then s.lentDrop i.part else s
  let s1 := if i.hold = 2 then (s0.aliases i.part).foldl (fun (s : State) a => s.wipeMask (s.aliasClu i.part a) (mGrans (bMan i.bale) a)) s0 else s0
  let s2 := (s.heldBy i.handle).foldl (fun (s : State) c =>
    s.modCl c fun x => { x with inst := none, pasid := none, faulted := 0, cls := 3 }) s1
  let s3 := s2.modSys fun x => { x with insts := lrem (fun j => j.handle == i.handle) x.insts }
  if (s.part i.part).be = some i.handle then s3.modPart i.part fun x => { x with be := none, yielding := false } else s3

/-! ### Channel commands of the services (R409, R430, R431) -/

/-- A command that its service may begin: handed over, not begun, of an opcode, with every input reference read. -/
def State.chanCmd (s : State) (ch cseq opcode : Nat) : Option Cmd :=
  (s.hch ch).cmds.find? fun c => c.cseq == cseq && c.opcode == opcode && c.handed && !c.taken && c.complete

/-- The service has begun to act on a command. -/
def State.cmdTake (s : State) (ch cseq : Nat) : State :=
  s.modCh ch fun x =>
    let up := fun (c : Cmd) => if c.cseq = cseq then { c with taken := true } else c
    { x with cmds := x.cmds.map up }

/-- A command ends; a channel that is closing may end with it, and further commands may be handed over. -/
def State.cmdFinal (s : State) (ch cseq reason result outLen : Nat) : State :=
  ((s.chanFinal ch cseq reason result outLen).chanRun ch).closeCheck ch

/-- Serve a channel command: its input must have been read without poison. -/
def State.chanServe (s : State) (ch cseq opcode : Nat) (f : State → Cmd → List Byte → State) : State :=
  match s.chanCmd ch cseq opcode with
  | none => s
  | some c => match s.cmdInput ch c with
    | none => s.cmdFinal ch cseq 0x0823 0 0
    | some b => f s c b

end Sys2Proof.Machine
end

