-- ==== Sys2Proof/Machine/Serve.lean ====
section
/-!
DEFINITION. The serving loop (chapter "Aselo firmware: mailboxes and the on-module serving and tuning loops", R434 to R444, and
R254 to R258, R273 to R279 for what it does with adapters and base versions): requests, the step boundary, the step record.
-/
namespace Sys2Proof.Machine

open Sys2Proof

/-! ### Loops -/

/-- The loop of a partition, and a change of it. -/
def State.loopOf (s : State) (p : Nat) : Option Loop := s.sys.loops.find? fun l => l.part == p
def State.modLoop (s : State) (p : Nat) (f : Loop → Loop) : State :=
  s.modSys fun x => { x with loops := x.loops.map fun l => if l.part == p then f l else l }

/-- Tokens of a request so far: its prompt and its posted tokens. -/
def SReq.toks (q : SReq) : List Nat := q.prompt ++ q.out

/-- Chunks that a request needs over its life (R439). -/
def SReq.need (q : SReq) : Nat := cdiv (q.prompt.length + q.maxNew) 256

/-- Is a request the one of a command. -/
def SReq.is (q : SReq) (ch cseq : Nat) : Bool := q.ch == ch && q.cseq == cseq

/-- Change a running request. -/
def State.modRun (s : State) (p ch cseq : Nat) (f : SReq → SReq) : State :=
  s.modLoop p fun l => { l with run := l.run.map fun q => if q.is ch cseq then f q else q }

/-- Served versions of a partition, oldest first. -/
def State.served (s : State) (p : Nat) : List Ver := s.sys.vers.filter fun v => v.part == p && v.state == 1

/-- Chunks of the pool that nothing holds. -/
def Loop.free (l : Loop) : List Nat := (List.range l.chunks).filter fun c => !(l.run.any fun q => q.chunks.contains c)

/-- Sum of the needs of the running latency-critical sequences (R439). -/
def Loop.commitment (l : Loop) : Nat := (l.run.filter fun q => q.cls == 1).foldl (fun a q => a + q.need) 0

/-- Lowest free sequence slot. -/
def Loop.freeSeat (l : Loop) : Option Nat := (List.range 1024).find? fun i => !(l.run.any fun q => q.seat == i)

/-! ### Order of rows, and the tokens of a row (R257, R438) -/

/-- Requests of a version in row order: those of one adapter stand together, in the order in which the first of each joined; those
without an adapter come last. (Log 118 DEDUCED) -/
def Loop.rowOrder (l : Loop) (tag : Nat) : List SReq :=
  let mine := l.run.filter fun q => q.base == tag
  let slots := (mine.map SReq.slot).foldl (fun a x => if x = 0xFFFF ∨ a.contains x = true then a else a ++ [x]) []
  (slots.flatMap fun x => mine.filter fun q => q.slot == x) ++ mine.filter fun q => q.slot == 0xFFFF

/-- Does a row need a chunk before it may take a token. -/
def SReq.wants (q : SReq) : Bool := q.fed % 256 == 0 && decide (q.chunks.length * 256 ≤ q.fed)

/-- New tokens of a row with `left` tokens of the step unspent. (Log 122 DEDUCED) -/
def SReq.take (q : SReq) (left : Nat) : Nat :=
  let rest := q.toks.length - q.fed
  if q.out ≠ [] ∧ rest = 1 then 1 else Nat.min rest (Nat.min (256 - q.fed % 256) left)

/-- Rows of a step: each request with its new tokens, in row order. -/
def rowTokens : Nat → List SReq → List (SReq × Nat)
  | _, [] => []
  | left, q :: t => (q, q.take left) :: rowTokens (left - q.take left) t

/-! ### Completions of requests (R441) -/

/-- The result of a request that fails. -/
def failToken : Nat := 0xFFFFFFFF

/-- Post the final completion of a request that ends with a reason, and those of the CANCEL commands that named it. -/
def State.reqEnd (s : State) (q : SReq) (reason : Nat) : State :=
  let s1 := s.cmdFinal q.ch q.cseq reason failToken q.out.length
  q.cancels.foldl (fun (s : State) c => s.cmdFinal q.ch c (if reason = 0x0921 then 0 else 0x0922) 0 0) s1

/-- Release what a request holds when it leaves. -/
def State.reqRelease (s : State) (q : SReq) : State := if q.leased then s.leaseDrop q.slot q.spare else s

/-- Take a request out of the running batch. -/
def State.runDrop (s : State) (p : Nat) (q : SReq) : State := s.modLoop p fun l => { l with run := lrem (fun x => x.is q.ch q.cseq) l.run }

/-! ### Order 1: the results (Tables 15.8 and 15.9) -/

/-- Croft-relative offset of step record area t (R256). -/
def stepArea (t : Nat) : Nat := 0x2FFFC0000 + (t % 2) * 0x20000

/-- First croft of a partition. -/
def State.croft0 (s : State) (p : Nat) : Nat := lget 0 (s.partCrofts p) 0

/-- Where the result of row i of a step stands. -/
def State.rowAt (s : State) (p step i : Nat) : Nat := croftOff (s.croft0 p) (stepArea step + 0x18800 + 8 * i)

/-- Result of row i of the step that ran: token, and whether its logits were not finite; a row whose block is poisoned counts as one
with non-finite logits (R513). -/
def State.rowResult (s : State) (p step i : Nat) : Nat × Bool :=
  let w := leNat (s.rdMem (s.rowAt p step i) 8)
  (w % 2 ^ 32, nbit w 32 || s.rdPoison (s.rowAt p step i) 8)

/-- One row's outcome: its tokens are in the KV; a row that sampled posts its token, unless its adapter is being removed. A failure of the
row ends the request with 0x0925, also where a CANCEL waits for the boundary. (Log 209 DEDUCED) -/
def State.rowDone (s : State) (p step i late : Nat) (row : Nat × Nat) : State :=
  match s.loopOf p with
  | none => s
  | some l => match l.run.find? fun q => q.seat == row.1 with
    | none => s
    | some q =>
      let fed := q.fed + row.2
      let sampled := row.2 != 0 && fed == q.toks.length
      let r := s.rowResult p step i
      let removed := q.slot != 0xFFFF && (match s.recAt q.slot with | some a => a.state == 2 | none => true)
      let s1 := s.modRun p q.ch q.cseq fun q => { q with fed := fed }
      if !sampled || (removed && q.leased) then s1
      else if r.2 then s1.modRun p q.ch q.cseq fun q => { q with fail := if q.fail = 0 ∨ q.fail = 0x0921 then 0x0925 else q.fail }
      else
        let out := q.out ++ [r.1]
        let res := r.1 + late * 2 ^ 32
        if r.1 = q.stop ∨ q.maxNew ≤ out.length then
          let s2 := s1.cmdFinal q.ch q.cseq 0 res out.length
          let s3 := q.cancels.foldl (fun (s : State) c => s.cmdFinal q.ch c 0x0922 0 0) s2
          (s3.runDrop p q).reqRelease q
        else (s1.chanToken q.ch q.cseq res out.length).modRun p q.ch q.cseq fun q => { q with out := out }

/-! ### Order 2: leaves, removals and retirement (R275, R276, R279) -/

/-- Reason with which a running request leaves at this boundary; 0 for none. -/
def State.leaveCode (s : State) (q : SReq) : Nat :=
  if q.fail ≠ 0 then q.fail
  else if q.slot ≠ 0xFFFF ∧ (match s.recAt q.slot with | some a => a.state == 2 | none => true) = true then 0x0D31
  else 0

/-- Requests that leave: by failure, cancel, a close, a stop, or forced removal. -/
def State.leaves (s : State) (p : Nat) : State :=
  match s.loopOf p with
  | none => s
  | some l =>
    let s1 := (l.run.filter fun q => s.leaveCode q != 0).foldl (fun (s : State) q => ((s.runDrop p q).reqEnd q (s.leaveCode q)).reqRelease q) s
    let gone := fun (q : SReq) => q.fail != 0 || (q.leased && s.leaveCode q != 0)
    let s2 := (l.queue.filter gone).foldl (fun (s : State) q => (s.reqEnd q (s.leaveCode q)).reqRelease q) s1
    s2.modLoop p fun l => { l with queue := l.queue.filter fun q => !(gone q) }

/-- Reason with which a waiting request of a retired version ends: its join to an adapter is refused, any other request fails. -/
def SReq.retired (q : SReq) : Nat := if q.slot = 0xFFFF ∨ q.leased = true then 0x0D32 else 0x0D23

/-- A version retires (R279): its running requests leave with 0x0D32, its contracts end, the instance's reference moves to its
successor, and it may be evicted. -/
def State.retire (s : State) (p : Nat) (v : Ver) : State :=
  let next := (s.sys.vers.find? fun w => w.part == p && w.succeeds == v.tag).map Ver.tag |>.getD 0
  let s1 := match s.loopOf p with
    | none => s
    | some l =>
      let mine := fun (q : SReq) => q.base == v.tag
      let s1 := (l.run.filter mine).foldl (fun (s : State) q => ((s.runDrop p q).reqEnd q 0x0D32).reqRelease q) s
      let s2 := (l.queue.filter mine).foldl (fun (s : State) q => (s.reqEnd q q.retired).reqRelease q) s1
      s2.modLoop p fun l => { l with queue := l.queue.filter fun q => !(mine q) }
  let s2 := ((s1.contractsOf p).filter fun k => k.base == v.tag).foldl (fun (s : State) k => s.contractEnd k.handle) s1
  let s3 := s2.modSys fun x => { x with insts := x.insts.map fun i => if i.part == p && i.base == v.tag then { i with base := next } else i }
  s3.modVer p v.tag fun v => { v with state := 2 }

/-- The older of two served versions retires at the first boundary at which no running sequence and no contract references it, or at the
first after its drain deadline. -/
def State.retireDue (s : State) (p : Nat) : State :=
  let s1 := ((s.served p).filter Ver.due).foldl (fun (s : State) v => s.retire p v) s
  match s1.served p with
  | v :: _ :: _ =>
    let used := (match s1.loopOf p with | some l => l.run.any fun q => q.base == v.tag | none => false) || (s1.contractsOf p).any fun k => k.base == v.tag
    if used then s1 else s1.retire p v
  | _ => s1

/-- Best-effort instances of a partition. -/
def State.beLoaded (s : State) (p : Nat) : List Inst := (s.instsOf p).filter fun i => i.cls == 2 && i.loaded

/-- Does an open job of a partition update an adapter, in a best-effort instance. -/
def State.jobUses (s : State) (p slot : Nat) : Bool :=
  !(s.beLoaded p).isEmpty && s.sys.jobs.any fun j => j.part == p && j.ended == 0 && j.adapters.any fun a => a.1 == slot

/-- Order 4 of Table 10.11: the best-effort contexts that update an adapter under removal fault. -/
def State.removeJobs (s : State) (p : Nat) : State :=
  if (s.recsOf p).any fun e => e.2.state == 2 && s.jobUses p e.1 then (s.beLoaded p).foldl (fun (s : State) i => s.faultInst i 0x0D31) s
  else s

/-- Orders 5 and 6 of Table 10.11 for records whose leases have all ended and that no context updates: copies are cleared, homes
zeroed, records freed; a command whose records are all gone completes with their count. -/
def State.finishRemovals (s : State) (p : Nat) : State :=
  let due := (s.recsOf p).filter fun e => e.2.state == 2 && e.2.leases == 0 && !(s.jobUses p e.1)
  let s1 := due.foldl (fun (s : State) e => ((s.evictCopy e.1).homeZero e.2).dropRec e.1) s
  let gone := fun (x : Nat × Nat × List Nat) => !(x.2.2.any fun k => match s1.recAt k with | some a => a.state == 2 | none => false)
  let mine := s1.sys.removals.filter fun x => s1.chOwner x.1 == p && gone x
  let s2 := s1.modSys fun x => { x with removals := x.removals.filter fun r => !(mine.contains r) }
  mine.foldl (fun (s : State) x => s.cmdFinal x.1 x.2.1 0 x.2.2.length 0) s2

/-! ### Orders 3 to 6: growth and joins (R439, R440) -/

/-- Give a running request a chunk. -/
def State.giveChunk (s : State) (p : Nat) (q : SReq) (c : Nat) : State := s.modRun p q.ch q.cseq fun q => { q with chunks := q.chunks ++ [c] }

/-- Suspend a best-effort sequence: it leaves the batch with its slot and chunks freed and returns to the head of the queue. -/
def State.suspend (s : State) (p : Nat) (q : SReq) : State :=
  (s.runDrop p q).modLoop p fun l => { l with queue := { q with seat := 0, chunks := [], fed := 0 } :: l.queue }

/-- The best-effort sequence that joined earliest. -/
def Loop.earliestBe (l : Loop) : Option SReq :=
  (l.run.filter fun q => q.cls == 2).foldl (fun (a : Option SReq) q => match a with
    | none => some q
    | some b => if q.order < b.order then some q else a) none

/-- Grow one row of a version if it needs a chunk for this step. -/
def State.growRow (s : State) (p tag ch cseq : Nat) : State :=
  match s.loopOf p with
  | none => s
  | some l => match (rowTokens l.maxTokens (l.rowOrder tag)).find? fun r => r.1.is ch cseq with
    | none => s
    | some (q, n) =>
      if n = 0 ∨ q.wants = false then s
      else match l.free with
        | c :: _ => s.giveChunk p q c
        | [] =>
          if q.cls = 2 then s.suspend p q
          else match l.earliestBe with
            | none => s
            | some b => match b.chunks with
              | [] => s
              | c :: _ => (s.suspend p b).giveChunk p q c

/-- Grow the running rows of a class, in row order (orders 3 and 4). -/
def State.grow (s : State) (p tag cls : Nat) : State :=
  match s.loopOf p with
  | none => s
  | some l => ((l.rowOrder tag).filter fun q => q.cls == cls).foldl (fun (s : State) q => s.growRow p tag q.ch q.cseq) s

/-- Why a join is refused (R274); 0 for none. (Log 120 DEDUCED) -/
def State.joinCode (s : State) (p : Nat) (q : SReq) : Nat :=
  if q.slot = 0xFFFF ∨ q.leased = true then 0
  else match s.adapter p q.slot q.gen with
    | none => 0x0D22
    | some a =>
      if a.state = 0 then 0x0D27
      else if a.state = 2 then 0x0D22
      else if a.base ≠ q.base then 0x0D23
      else if (match s.lcInst p with | some i => mAdpRank (bMan i.bale) | none => 0) < a.rank then 0x0D24
      else 0

/-- May the head of a class's queue be admitted (R439). (Log 121 DEDUCED) -/
def Loop.admits (l : Loop) (q : SReq) : Bool :=
  !l.free.isEmpty && l.freeSeat.isSome && decide (l.run.length < l.maxRows) && (q.cls == 2 || decide (l.commitment + q.need ≤ l.chunks))

/-- Admit the joins of a class and version in arrival order until one must wait (orders 5 and 6). (Log 119 DEDUCED, 120 DEDUCED) -/
def State.admitJoins (p tag cls : Nat) : Nat → State → State
  | 0, s => s
  | fuel + 1, s =>
    match s.loopOf p with
    | none => s
    | some l => match l.queue.find? fun q => q.cls == cls && q.base == tag with
      | none => s
      | some q =>
        if !(l.admits q) then s
        else
          let s1 := s.modLoop p fun l => { l with queue := lrem (fun x => x.is q.ch q.cseq) l.queue }
          let code := s.joinCode p q
          if code ≠ 0 then State.admitJoins p tag cls fuel ((s1.reqEnd q code).reqRelease q)
          else
            let lease := q.slot != 0xFFFF
            let s2 := if lease && !q.leased then s1.leaseTake q.slot else s1
            let j : SReq := { q with spare := if q.leased then q.spare else s1.leaseSpare q.slot, seat := (l.freeSeat).getD 0, chunks := l.free.take 1, leased := lease, order := l.joins }
            State.admitJoins p tag cls fuel (s2.modLoop p fun l => { l with run := l.run ++ [j], joins := l.joins + 1 })

/-- Orders 3 to 6 for a version. (Log 119 DEDUCED) -/
def State.planVer (s : State) (p tag : Nat) : State :=
  let n := match s.loopOf p with | some l => l.queue.length | none => 0
  let s1 := State.admitJoins p tag 1 n ((s.grow p tag 1).grow p tag 2)
  let waiting := match s1.loopOf p with | some l => l.queue.any fun q => q.cls == 1 && q.base == tag | none => true
  if waiting then s1 else State.admitJoins p tag 2 n s1

/-- The version of the next step (R442): two served versions take turns; one with no sequence to run is skipped. A step that is
prepared again keeps its version where it can. -/
def State.chooseVer (s : State) (p : Nat) (again : Bool) : State × Option Nat :=
  match s.loopOf p with
  | none => (s, none)
  | some l =>
    let tags := match (s.served p).map Ver.tag with
      | [] => [0]
      | ts =>
        let other := ts.filter fun t => t != l.tag
        let same := ts.filter fun t => t == l.tag
        if again then same ++ other else other ++ same
    tags.foldl (fun (a : State × Option Nat) t =>
      if a.2.isSome then a
      else
        let s1 := a.1.planVer p t
        match s1.loopOf p with
        | some l => if (l.run.any fun q => q.base == t) then (s1, some t) else (s1, none)
        | none => (s1, none)) (s, none)

/-! ### Order 7: the step record (R256, R257, R437) -/

/-- Scale of an adapter (Table 10.2): neither its blob nor its record holds one, so it is a free value of the record. (Log 76 DESIGN CHOICE) -/
def State.recScale (s : State) (slot : Nat) : Nat := Config.free 256 slot (s.slotGen slot) 0 % 65536

/-- Step table entry of an adapter (Table 10.2). -/
def State.stepEntry (s : State) (slot tag : Nat) : List Byte :=
  match s.recAt slot with
  | none => List.replicate 16 0
  | some a =>
    let g := match a.copy with | some (f, 1) => f | _ => 0
    leBytes 2 slot ++ leBytes 1 a.rank ++ leBytes 1 (b2n (g != 0)) ++ leBytes 2 (s.recScale slot) ++ leBytes 2 tag ++ leBytes 4 a.home ++ leBytes 1 g ++
      List.replicate 3 0

/-- Final rows of a step: a row that lacks a chunk takes nothing. (Log 122 DEDUCED) -/
def stepRows : Nat → List SReq → List (SReq × Nat)
  | _, [] => []
  | left, q :: t => let n := if q.wants then 0 else q.take left; (q, n) :: stepRows (left - n) t

/-- Row entry (R437): the input tokens of the row begin at `off`. -/
def rowEntry (slots : List Nat) (q : SReq) (n off : Nat) : List Byte :=
  let idx := if q.slot = 0xFFFF then 0xFFFF else (slots.findIdx? fun x => x == q.slot).getD 0xFFFF
  let sample := n != 0 && q.fed + n == q.toks.length
  leBytes 2 q.seat ++ leBytes 2 idx ++ leBytes 4 q.fed ++ leBytes 2 n ++ leBytes 2 off ++ leBytes 2 (b2n sample) ++ leBytes 2 q.topK ++
    leBytes 2 q.temp ++ leBytes 2 q.topP ++ leBytes 4 q.seed ++ leBytes 4 q.toks.length ++ List.replicate 4 0

/-- The row entries in order, with their token offsets. -/
def rowEntries (slots : List Nat) : Nat → List (SReq × Nat) → List Byte
  | _, [] => []
  | off, r :: t => rowEntry slots r.1 r.2 off ++ rowEntries slots (off + r.2) t

/-- Slot of the chunk map (R434). -/
def mapSlot (cs : List Nat) : List Byte := (List.range 128).flatMap fun i => leBytes 2 (lget 0xFFFF cs i)

/-- Aselo writes the same bytes at a croft-relative offset of every croft of a partition. -/
def State.croftsWrite (s : State) (p off : Nat) (bs : List Byte) : State :=
  (s.partCrofts p).foldl (fun (s : State) k => s.aseloWrite (croftOff k off) bs) s

/-- Rows of the step of a version, and the adapters of its table. -/
def Loop.plan (l : Loop) (tag : Nat) : List (SReq × Nat) × List Nat :=
  let rows := stepRows l.maxTokens (l.rowOrder tag)
  (rows, (rows.map fun r => r.1.slot).foldl (fun a x => if x = 0xFFFF ∨ a.contains x = true then a else a ++ [x]) [])

/-- The writes of order 7: the chunk map entries, the step record and the batch of the step of a version. (Log 188 DEDUCED) -/
def State.stepStore (s : State) (p tag : Nat) (l : Loop) : State :=
  let rows := (l.plan tag).1
  let slots := (l.plan tag).2
  let gran := match s.verAt p tag with | some v => v.gran | none => 0
  let area := stepArea l.step
  let sum := (rows.map Prod.snd).foldl (· + ·) 0
  let hdr := leBytes 8 l.step ++ leBytes 2 tag ++ leBytes 2 gran ++ leBytes 2 slots.length ++
    leBytes 2 (rows.filter fun r => r.1.slot != 0xFFFF).length ++ List.replicate 48 0
  let batch := leBytes 8 l.step ++ leBytes 2 rows.length ++ leBytes 2 sum ++ List.replicate 52 0
  let toks := rows.flatMap fun r => (List.range r.2).flatMap fun i => leBytes 4 (lget 0 r.1.toks (r.1.fed + i))
  let s1 := rows.foldl (fun (s : State) r => s.croftsWrite p (l.kvBase + 256 * r.1.seat) (mapSlot r.1.chunks)) s
  let s2 := (s1.croftsWrite p area hdr).croftsWrite p (area + 0x400) (slots.flatMap fun x => s.stepEntry x tag)
  ((s2.croftsWrite p (area + 0x10400) batch).croftsWrite p (area + 0x10800) (rowEntries slots 0 rows)).croftsWrite p (area + 0x1A800) toks

/-- Order 7 of a version's step; adapters that enter the table without a copy are promoted (R270). -/
def State.stepWrite (s : State) (p tag : Nat) : State :=
  match s.loopOf p with
  | none => s
  | some l =>
    let s4 := (s.stepStore p tag l).modLoop p fun l =>
      { l with tag := tag, phase := 1, rows := (l.plan tag).1.map fun r => (r.1.seat, r.2), adapters := (l.plan tag).2 }
    (l.plan tag).2.foldl (fun (s : State) x => s.promote x) s4

/-- Notices of HBM3 words that read poisoned or uncorrectable in what Aselo wrote for the prepared step: its record area, or the chunk
map (R513, R519). -/
def State.stepBad (s : State) (p : Nat) (l : Loop) : List (Nat × Nat × Nat) :=
  s.evr.aselo.filter fun x => x.1 == 0x06F1 && (s.partCrofts p).contains (x.2.1 / 8) &&
    (let a := chanOffset x.2.1 (x.2.2 % 2 ^ 31) - (hbmBase + (x.2.1 / 8) * croftBytes)
     (decide (stepArea l.step ≤ a) && decide (a < stepArea l.step + 0x20000) && !(decide (stepArea l.step + 0x18800 ≤ a) && decide (a < stepArea l.step + 0x1A800))) ||
       (decide (l.kvBase ≤ a) && decide (a < l.kvBase + 0x40000)))

/-- Before a step starts, Aselo writes again what a notice says is poisoned of the structures that the step depends on (R513). (Log 188 DEDUCED) -/
def State.stepAgain (s : State) (p : Nat) (l : Loop) : State :=
  let bad := s.stepBad p l
  if bad.isEmpty then s
  else ({ s with evr := { s.evr with aselo := s.evr.aselo.filter fun x => !(bad.contains x) } }).stepStore p l.tag l

/-- A SERVE_STOP that waits for the boundary ends every request with 0x0924 and the loop with it (R430). (Log 124 DEDUCED) -/
def State.loopEnd (s : State) (p reason : Nat) : State :=
  match s.loopOf p with
  | none => s
  | some l =>
    let s1 := (l.run ++ l.queue).foldl (fun (s : State) q => (s.reqEnd q reason).reqRelease q) s
    let s2 := s1.modSys fun x => { x with loops := x.loops.filter fun l => l.part != p }
    match l.stopBox with
    | some b => s2.mbxRespond b 0 0 []
    | none => s2

/-- The version whose hot set holds an on-chip block of a partition. -/
def State.hotVer (s : State) (p a : Nat) : Option Ver :=
  let g := a % 0x800000 / 0x10000
  s.sys.vers.find? fun v => v.part == p && v.state == 1 && decide (v.gran ≤ g) && decide (g < v.gran + v.g)

/-- Repair of one block of a hot set (R514), on the notice of a word that read uncorrectable or poison: a read of the management class
goes to another module of the version's shard set, which a free value names; a repair that cannot ask one retires the version. (Log 126 DEDUCED, 165 DEDUCED) -/
def State.repairOne (s : State) (p c off : Nat) : State :=
  let a := c * 0x800000 + off - off % 64
  match s.hotVer p a with
  | none => s
  | some v =>
    if s.rdPoison a 64 = false ∨ s.sys.repairs.any (fun r => r.addr == a) then s
    else
      let n := s.opens
      let s1 := { s with opens := n + 1 }
      let peer := Config.free 514 n a 1 % 4096
      if Config.free 514 n a 0 % 2 = 0 ∨ peer = s.moduleId then s1.retire p v
      else
        let who := Who.repair p a
        let q := s1.lokIssue 0 { cls := 0, span := 0, dst := peer, opcode := 1, gen := 0, part := 16, addr := globalAddr peer a, opf := 0,
                                 blocks := [], poison := [], b := 1, who := some who, ttag := none, oseq := none }
        if q.2 ≠ 0 then s1.retire p v
        else
          let seq := ((q.1.lokD 0).outs.find? fun o => o.who == some who).map Out.oseq |>.getD 0
          q.1.modSys fun x => { x with repairs := x.repairs ++ [⟨p, a, peer, seq⟩] }

/-- The repairs of a partition that notices call for. -/
def State.repair (s : State) (p : Nat) : State :=
  let mine := fun (x : Nat × Nat × Nat) => x.1 == 0x05F1 && (s.partClus p).contains x.2.1
  (s.evr.aselo.filter mine).foldl (fun (s : State) x => s.repairOne p x.2.1 (x.2.2 % 2 ^ 32))
    { s with evr := { s.evr with aselo := s.evr.aselo.filter fun x => !(mine x) } }

/-- Does a repair of a partition's hot set still wait for its peer. -/
def State.repairing (s : State) (p : Nat) : Bool := s.sys.repairs.any fun r => r.part == p

/-- The peer's answer to one repair: a good block is written and event 0x05F2 recorded; poison or a failure retires the version (R514). (Log 165 DEDUCED) -/
def State.repairEnd (s : State) (r : Repair) (x : Reply) : State :=
  let s1 := (s.take (.repair r.part r.addr)).modSys fun y => { y with repairs := y.repairs.filter fun q => q.addr != r.addr }
  if x.reason = 0 ∧ x.poison = false then
    let e := Event.plain 0x05F2 0 r.part (s.get PRT_PART_CTL_gen 0 r.part) (r.addr / 0x800000) 0
      (packDetail [(r.addr % 0x800000, 4), (r.peer, 2)])
    (s1.aseloWrite r.addr (slice x.data 0 64)).raise { e with tag := evTag r.peer 0 true, oseq := r.oseq, tflags := 2 * b2n (r.oseq == 0) }
  else
    match s.hotVer r.part r.addr with
    | some v => s1.retire r.part v
    | none => s1

/-- The rest of order 2: repairs, forced removals, retirement; places of copies that no table names any more are free. -/
def State.boundEnd (s : State) (p : Nat) : State := ((((s.repair p).removeJobs p).freeOlds p).finishRemovals p).retireDue p

/-- Orders 2 to 7 of the step boundary (Table 15.9). -/
def State.stepBoundary (s : State) (p : Nat) (again : Bool := false) : State :=
  let s1 := s.leaves p
  let s2 := if (match s1.loopOf p with | some l => l.stopBox.isSome | none => false) then s1.loopEnd p 0x0924 else s1
  let s3 := s2.boundEnd p
  if s3.repairing p then s3
  else
    match s3.chooseVer p again with
    | (s4, some tag) => s4.stepWrite p tag
    | (s4, none) => s4

/-- A boundary at a moment at which nothing is prepared and no step runs. -/
def State.loopKick (s : State) (p : Nat) : State :=
  match s.loopOf p with
  | some l => if l.phase = 0 then s.stepBoundary p else s
  | none => s.boundEnd p

/-- The same when a step may be prepared already: it is prepared again. -/
def State.loopRedo (s : State) (p : Nat) : State :=
  match s.loopOf p with
  | some l =>
    if l.phase = 0 then s.stepBoundary p
    else if l.phase = 3 then s
    else (s.modLoop p fun l => { l with phase := 0, rows := [], adapters := [] }).stepBoundary p true
  | none => s.boundEnd p

/-- Answers of peers that repairs wait for; the boundary goes on when a partition's last one has come. -/
def State.repairsPoll (s : State) : State :=
  s.sys.repairs.foldl (fun (s : State) r =>
    match s.replyOf (.repair r.part r.addr) with
    | none => s
    | some x => let s1 := s.repairEnd r x; if s1.repairing r.part then s1 else s1.loopKick r.part) s

/-! ### SERVE_START and SERVE_STOP (R430, R434) -/

/-- Worst-case duration that a bale's schedule states: bound_ns (Table 9.8). -/
def boundNs (bale : List Byte) : Nat := leAt ((bFind bale 2).bytes bale) 8 8

/-- Do a croft-relative range's pages all belong to an instance in every croft of its partition. -/
def State.instPages (s : State) (i : Inst) (off n : Nat) : Bool :=
  (List.range (s.partM i.part)).all fun j =>
    let r := mPages (bMan i.bale) j
    decide (r.1 ≤ off / 0x200000) && decide (off + n ≤ (r.1 + r.2) * 0x200000)

/-- Checks of Table 15.6, in its order. -/
def State.serveCode (s : State) (p : Nat) (r : List Byte) : Nat :=
  let rows := mPay r 16 2
  let toks := mPay r 18 2
  let n := mPay r 20 4
  let base := mPay r 24 8
  let kt := mPay r 32 4
  let inst := s.lcInst p
  let idOk := match inst with | some i => i.baleId == mPay r 0 8 | none => false
  let bale := match inst with | some i => i.bale | none => []
  let region := match inst with | some i => s.instPages i base (0x40000 + n * 256 * kt) | none => false
  let table := firstFail
    [(idOk, 0x0911),
     (decide (1 ≤ rows) && decide (rows ≤ 1024) && (mAdpRate (bMan bale) == 0 || decide (rows ≤ mAdpRows (bMan bale))), 0x0913),
     (decide (1 ≤ toks) && decide (toks ≤ 4096), 0x0913),
     (decide (1 ≤ n), 0x0914),
     (base % 0x10000 == 0, 0x0914),
     (kt % 64 == 0 && kt != 0 && region, 0x0914),
     (zeros r 68 28, 0x0904)]
  if mHandle r ≠ 0 then 0x0904
  else if (s.loopOf p).isSome then (if table = 0 then 0x0912 else Nat.min table 0x0912)
  else table

/-- SERVE_START (R434). (Log 121 DEDUCED) -/
def State.serveStart (s : State) (b : Nat) (r : List Byte) : State :=
  let p := boxOwner b
  let code := s.serveCode p r
  if code ≠ 0 then s.mbxRespond b code 0 []
  else
    let h := match s.lcInst p with | some i => i.handle | none => 0
    let l : Loop := { part := p, inst := h, seed := mPay r 8 8, maxRows := mPay r 16 2, maxTokens := mPay r 18 2, chunks := mPay r 20 4,
                      kvBase := mPay r 24 8, kvTok := mPay r 32 4, step := 0, tag := 0, phase := 0, rows := [], run := [], queue := [], joins := 0,
                      started := 0, begun := 0, stopBox := none, adapters := [], starve0 := 0 }
    (s.modSys fun x => { x with loops := x.loops ++ [l] }).mbxRespond b 0 0 []

/-- SERVE_STOP (R430): the loop ends at the next boundary, at once while no step is prepared or running. (Log 124 DEDUCED) -/
def State.serveStop (s : State) (b : Nat) (r : List Byte) : State :=
  let p := boxOwner b
  if mHandle r ≠ 0 then s.mbxRespond b 0x0904 0 []
  else match s.loopOf p with
    | none => s.mbxRespond b 0x0915 0 []
    | some _ => ((s.modLoop p fun l => { l with stopBox := some b }).mbxKeep b).loopKick p

/-! ### SUBMIT and CANCEL (R436, R444) -/

/-- Does a SUBMIT keep Table 15.7. (Log 117 DEDUCED) -/
def submitOk (c : Cmd) (b : List Byte) : Bool :=
  let n := leAt b 28 4
  c.object == 0 && decide (1 ≤ n) && decide (n ≤ 32767) && b.length == 32 + 4 * n &&
  (leAt b 6 1 == 1 || leAt b 6 1 == 2) && zeros b 7 1 && decide (1 ≤ leAt b 8 4) && decide (leAt b 8 4 ≤ 32767) && zeros b 22 2 &&
  (if c.hasRefs then decide (15 < n) && c.refs.length == 1 else decide (n ≤ 15))

/-- SUBMIT (R436). (Log 117 DEDUCED, 123 DEDUCED) -/
def State.submit (s : State) (ch cseq : Nat) (c : Cmd) (b : List Byte) : State :=
  let p := s.chOwner ch
  let n := leAt b 28 4
  let maxNew := leAt b 8 4
  let tags := (s.served p).map Ver.tag
  let tag := if leAt b 0 2 = 0 then tags.getLast?.getD 0 else leAt b 0 2
  if submitOk c b = false then s.cmdFinal ch cseq 0x0904 0 0
  else match s.loopOf p with
    | none => s.cmdFinal ch cseq 0x0915 0 0
    | some l =>
      if 32768 < n + maxNew ∨ l.chunks < cdiv (n + maxNew) 256 then s.cmdFinal ch cseq 0x0916 0 0
      else if tag ≠ 0 ∧ tags.contains tag = false then s.cmdFinal ch cseq 0x0917 0 0
      else
        let q : SReq := { ch := ch, cseq := cseq, base := tag, slot := leAt b 2 2, gen := leAt b 4 2, cls := leAt b 6 1, maxNew := maxNew,
                          stop := leAt b 12 4, temp := leAt b 16 2, topP := leAt b 18 2, topK := leAt b 20 2, seed := leAt b 24 4,
                          prompt := (List.range n).map fun i => leAt b (32 + 4 * i) 4, out := [], fed := 0, seat := 0, chunks := [],
                          leased := false, spare := 0, fail := 0, cancels := [], order := 0 }
        ((s.cmdTake ch cseq).modLoop p fun l => { l with queue := l.queue ++ [q] }).loopKick p

/-- CANCEL (R444). -/
def State.cancelReq (s : State) (ch cseq : Nat) (c : Cmd) : State :=
  let p := s.chOwner ch
  let k := c.object
  let open_ := match s.loopOf p with | some l => (l.run ++ l.queue).any fun q => q.is ch k | none => false
  if c.length ≠ 0 ∨ c.hasRefs = true then s.cmdFinal ch cseq 0x0904 0 0
  else if open_ then
    let mark := fun (q : SReq) => if q.is ch k then { q with fail := if q.fail = 0 then 0x0921 else q.fail, cancels := q.cancels ++ [cseq] } else q
    ((s.cmdTake ch cseq).modLoop p fun l => { l with run := l.run.map mark, queue := l.queue.map mark }).loopKick p
  else s.cmdFinal ch cseq 0x0922 0 0

/-! ### The end of a step (R435, R441) -/

/-- Starvation counts of a partition's engines. -/
def State.starveSum (s : State) (p : Nat) : Nat := ((s.partClus p).map fun c => (s.cl c).eng.starve).foldl (· + ·) 0

/-- SERVE_STEP_DONE: every core of the step has halted; the results are read and the boundary applies. The delay of the start counts
against the step's latency (R470, R537). (Log 207 DEDUCED) -/
def State.stepDone (s : State) (p : Nat) : State :=
  match s.loopOf p with
  | none => s
  | some l => match s.instAt l.inst with
    | none => s
    | some i =>
      if l.phase ≠ 3 ∨ ((s.coreClus i).all fun c => s.get CLU_CORE_CTL_state c == 5) = false then s
      else
        let dur := (l.begun - l.started) + (s.tick - l.begun)
        let late := decide (l.starve0 < s.starveSum p) || decide (boundNs i.bale < dur)
        let s1 := if late then s.event 0x09F0 0xFFFF p (packDetail [(l.step, 8), (dur, 8)]) else s
        let s2 := l.rows.zipIdx.foldl (fun (s : State) r => (s.noteRead (s.rowAt p l.step r.2) 8).rowDone p l.step r.2 (b2n late) r.1) s1
        ((s2.modLoop p fun l => { l with step := l.step + 1, phase := 0, rows := [], adapters := [] }).modPart p
          fun x => { x with since := s.tick + 1 }).stepBoundary p

/-! ### Retirement (R279) -/

/-- DRAIN_DEADLINE_EXPIRY (R279, R511): the older version retires, at the boundary of a step that runs. -/
def State.drainExpire (s : State) (p tag : Nat) : State :=
  match s.verAt p tag with
  | none => s
  | some v => if v.state = 1 ∧ v.drained = true ∧ v.due = false then ((s.event 0x0D32 0xFFFF p 0).modVer p tag fun v => { v with due := true }).loopRedo p else s

/-! ### The commands -/

/-- SERVE_START (R434). -/
def execServeStart (b : Mbx) (s : State) : Host.Outcome State Fault Refusal := .next (s.mbxServe b 0x0151 fun s r => s.serveStart b r)

/-- SERVE_STOP (R430). -/
def execServeStop (b : Mbx) (s : State) : Host.Outcome State Fault Refusal := .next (s.mbxServe b 0x0152 fun s r => s.serveStop b r)

/-- SUBMIT (R436). -/
def execSubmit (ch : HCh) (cseq : Nat) (s : State) : Host.Outcome State Fault Refusal :=
  .next (s.chanServe ch cseq 0x0201 fun s c b => s.submit ch cseq c b)

/-- CANCEL (R444). -/
def execCancel (ch : HCh) (cseq : Nat) (s : State) : Host.Outcome State Fault Refusal :=
  .next (s.chanServe ch cseq 0x0202 fun s c _ => s.cancelReq ch cseq c)

/-- SERVE_STEP_DONE (R435). -/
def execServeStepDone (p : Part) (s : State) : Host.Outcome State Fault Refusal := .next (s.stepDone p)

/-- DRAIN_DEADLINE_EXPIRY (R279). -/
def execDrainDeadlineExpiry (p : Part) (tag : Nat) (s : State) : Host.Outcome State Fault Refusal := .next (s.drainExpire p tag)

end Sys2Proof.Machine
end

