-- ==== Sys2Proof/Machine/Seal.lean ====
section
/-!
DEFINITION. Sealed adapters (chapter "Root of trust, sealing and attestation", R500 to R503): import, export, and the blob of a
checkpoint.
-/
namespace Sys2Proof.Machine

open Sys2Proof

/-! ### Draws and blobs -/

/-- A fresh value of the true random generator for the root of trust; the event recorder's nonces are drawn apart. -/
def State.rand (s : State) : State × Nat := ({ s with rot := { s.rot with draws := s.rot.draws + 1 } }, Config.trng (2 ^ 64 + s.rot.draws))

/-- Magic of a sealed adapter and of a checkpoint. -/
def sealMagic : Nat := 0x4C414553
def ckMagic : Nat := 0x54504B43

/-- Blob header (Table 17.12). -/
def sealHdr (magic rank crofts owner h : Nat) (key : List Byte) (nonce : Nat) (tail : List Byte) : List Byte :=
  leBytes 4 magic ++ leBytes 2 1 ++ leBytes 1 rank ++ leBytes 1 crofts ++ leBytes 4 owner ++ leBytes 4 h ++ slice key 0 16 ++ leBytes 12 nonce ++
    List.replicate 20 0 ++ slice tail 0 64

/-- A blob: header, ciphertext, tag (R500). -/
def sealBlob (key hdr body : List Byte) : List Byte :=
  let c := Config.gcmSeal key (slice hdr 32 12) hdr body
  hdr ++ c.1 ++ c.2

/-! ### ADAPTER_IMPORT (R501) -/

/-- Is a blob's header well formed. -/
def blobOk (b : List Byte) : Bool :=
  decide (144 ≤ b.length) && leAt b 0 4 == sealMagic && leAt b 4 2 == 1 && zeros b 44 20 && b.length == 144 + leAt b 7 1 * leAt b 6 1 * leAt b 12 4

/-- The pending key that a blob names. -/
def State.pendKey (s : State) (p : Nat) (b : List Byte) : Option PendKey :=
  s.rot.pend.find? fun k => k.part == p && k.keyId == slice b 16 16 && k.owner == leAt b 8 4

/-- The served version that a blob belongs to. -/
def State.blobVer (s : State) (p : Nat) (b : List Byte) : Option Ver := (s.served p).find? fun v => v.baseDigest == slice b 64 64

/-- Does a policy list every bale loaded in a partition. -/
def State.policyOk (s : State) (p : Nat) (policy : List (List Byte)) : Bool := (s.instsOf p).all fun i => policy.contains i.digest

/-- Lowest slot of the 65,536 that a directory leaves free (R269). -/
def freeSlot : Nat → Tab Rec → Nat
  | n, [] => n
  | n, e :: t => if e.1 = n then freeSlot (n + 1) t else n

/-- Checks of an import, in the order of R501, and the quota and store of R269. -/
def State.importCode (s : State) (p : Nat) (b : List Byte) : Nat :=
  let key := s.pendKey p b
  let ver := s.blobVer p b
  firstFail
    [(blobOk b, 0x0B21), (key.isSome, 0x0B22),
     (leAt b 7 1 == s.partM p && [4, 8, 16, 32, 64].contains (leAt b 6 1) && (match ver with | some v => v.h == leAt b 12 4 | none => false), 0x0B23),
     ((match key with | some k => s.policyOk p k.policy | none => false), 0x0B27),
     (decide ((s.recsOf p).length < s.pf p 16 4) && decide (freeSlot 0 s.sys.dir < 65536) &&
       (s.homePlace p (homeKib (leAt b 6 1) (leAt b 12 4))).isSome, 0x0D21)]

/-- Write the plaintext of an adapter into its home parts. -/
def State.homeWrite (s : State) (r : Rec) (body : List Byte) : State :=
  let n := r.rank * r.h
  (s.partCrofts r.part).zipIdx.foldl (fun (s : State) k => s.aseloWrite (croftOff k.1 (r.home * 1024)) (slice body (n * k.2) n)) s

/-- ADAPTER_IMPORT: the blob is checked and decrypted; a failed tag zeroes the home and frees the record. -/
def State.adapterImport (s : State) (ch cseq : Nat) (c : Cmd) (b : List Byte) : State :=
  let p := s.chOwner ch
  let code := s.importCode p b
  if c.object ≠ 0xFFFF ∨ c.refs.length ≠ 1 then s.cmdFinal ch cseq 0x0904 0 0
  else if code ≠ 0 then s.cmdFinal ch cseq code 0 0
  else match s.pendKey p b, s.blobVer p b with
    | some k, some v =>
      let slot := freeSlot 0 s.sys.dir
      let rank := leAt b 6 1
      let r : Rec := { part := p, owner := k.owner, base := v.tag, rank := rank, state := 0, home := (s.homePlace p (homeKib rank v.h)).getD 0, copy := none,
                        copyNo := 0, drainN := 0, olds := [],
                       h := v.h, c := v.c, contract := none, unpin := false, leases := 0, digest := Config.sha512 b, keyId := k.keyId, key := k.key,
                       policy := k.policy, baseDigest := v.baseDigest, seals := 0 }
      let s1 := s.putRec slot r
      let n := s.partM p * rank * v.h
      match Config.gcmOpen k.key (slice b 32 12) (slice b 0 128) (slice b 128 n) (slice b (128 + n) 16) with
      | none => ((s1.homeZero r).dropRec slot).cmdFinal ch cseq 0x0B24 0 0
      | some body =>
        let s2 := (s1.homeWrite r body).modRec slot fun r => { r with state := 1 }
        let s3 := { s2 with rot := { s2.rot with pend := s2.rot.pend.filter fun q => !(q.part == p && q.keyId == k.keyId) } }
        s3.cmdFinal ch cseq 0 (slot + 65536 * s3.slotGen slot) 0
    | _, _ => s

/-! ### Sealing under a record's key (R503) -/

/-- Seal a body under the key of an adapter: the state after the draw, and the blob. -/
def State.sealUnder (s : State) (slot : Nat) (r : Rec) (hdr : Nat → List Byte) (body : List Byte) : State × List Byte :=
  let q := s.rand
  (q.1.modRec slot fun r => { r with seals := r.seals + 1 }, sealBlob r.key (hdr q.2) body)

/-- Seals that one key may make. -/
def sealLimit : Nat := 2 ^ 32

/-- ADAPTER_EXPORT (R503): the home is sealed again and written to the output reference. -/
def State.adapterExport (s : State) (ch cseq : Nat) (c : Cmd) : State :=
  let p := s.chOwner ch
  let slot := c.object % 65536
  match c.outs with
  | [o] => match s.adapter p slot (c.object / 65536) with
    | none => s.cmdFinal ch cseq 0x0D22 0 0
    | some r =>
      let n := 144 + s.partM p * r.rank * r.h
      if c.refs.length ≠ 1 then s.cmdFinal ch cseq 0x0904 0 0
      else if r.state = 2 then s.cmdFinal ch cseq 0x0D22 0 0
      else if sealLimit ≤ r.seals then s.cmdFinal ch cseq 0x0B25 0 0
      else if o.len < n then s.cmdFinal ch cseq 0x0936 0 0
      else
        let body := (s.partCrofts p).flatMap fun k => s.rdMem (croftOff k (r.home * 1024)) (r.rank * r.h)
        let q := s.sealUnder slot r (fun nonce => sealHdr sealMagic r.rank (s.partM p) r.owner r.h r.keyId nonce r.baseDigest) body
        ((q.1.cmdTake ch cseq).refOut ch cseq o q.2).cmdFinal ch cseq 0 (slot + 65536 * s.slotGen slot) n
  | _ => s.cmdFinal ch cseq 0x0904 0 0

/-! ### The commands -/

/-- ADAPTER_IMPORT (R501). -/
def execAdapterImport (ch : HCh) (cseq : Nat) (s : State) : Host.Outcome State Fault Refusal :=
  .next (s.chanServe ch cseq 0x0211 fun s c b => s.adapterImport ch cseq c b)

/-- ADAPTER_EXPORT (R503). -/
def execAdapterExport (ch : HCh) (cseq : Nat) (s : State) : Host.Outcome State Fault Refusal :=
  .next (s.chanServe ch cseq 0x0212 fun s c _ => s.adapterExport ch cseq c)

end Sys2Proof.Machine
end

