-- ==== Sys2Proof/Machine/Tune.lean ====
section
/-!
DEFINITION. The tuning loop (chapters "Aselo firmware: mailboxes and the on-module serving and tuning loops", R432, R433, R445 to
R448, and "Rank-ordered reduction, parameter return and weight distribution", R368 to R376): jobs, examples, attempts, step void,
commits and checkpoints.
-/
namespace Sys2Proof.Machine

open Sys2Proof

/-! ### A job's message (Table 15.17) -/

/-- A field of a job's payload. -/
def Job.f (j : Job) (off n : Nat) : Nat := leAt j.payload off n
/-- Job number, micro-batches per step, ranks, tokens per micro-batch, root module and channel, entry, units per channel. -/
def Job.number (j : Job) : Nat := j.f 0 4
def Job.stages (j : Job) : Nat := j.f 4 1
def Job.micro (j : Job) : Nat := j.f 6 2
def Job.mbTokens (j : Job) : Nat := j.f 12 4
def Job.root (j : Job) : Nat := j.f 18 2
def Job.rootChan (j : Job) : Nat := j.f 20 1
def Job.units (j : Job) : Nat := j.f 28 4
def Job.entry (j : Job) : Nat := j.f 56 1

/-- Channels of a partition in ascending number. -/
def State.partChans (s : State) (p : Nat) : List Nat := (s.partCrofts p).flatMap fun k => (List.range 8).map (8 * k + ·)

/-- Home channels of a job on this module (R432). -/
def State.homeChans (s : State) (j : Job) : List Nat := if j.units = 0 then [] else s.partChans j.part

/-- A job, and a change of it. -/
def State.jobAt (s : State) (h : Nat) : Option Job := s.sys.jobs.find? fun j => j.handle == h
def State.modJob (s : State) (h : Nat) (f : Job → Job) : State :=
  s.modSys fun x => { x with jobs := x.jobs.map fun j => if j.handle == h then f j else j }

/-- The running job with a job number. -/
def State.jobOf (s : State) (number : Nat) : Option Job := s.sys.jobs.find? fun j => j.number == number && j.ended == 0

/-- The best-effort instances of a partition: those that run its jobs. (Log 131 DESIGN CHOICE) -/
def State.beInsts (s : State) (p : Nat) : List Inst := (s.instsOf p).filter fun i => i.cls == 2 && i.loaded

/-- Modules that take part in a job. -/
def Job.parts (j : Job) : List Nat := j.mods.foldl (fun a m => if a.contains m then a else a ++ [m]) []

/-! ### Messages of a job (R368) -/

/-- Send a reduction-control block of a job to a module's Aselo; one that cannot be issued voids the step by a void report. -/
def State.jobSend (s : State) (j : Job) (m subtype reason value : Nat) : State :=
  let gen := s.get PRT_PART_CTL_gen 0 j.part
  let span := s.pf j.part 4 2
  let q := s.redSend 0 j.part gen span (aseloWho j.number false) (globalAddr m aseloOff) (redMsg j.number (j.txn % 2 ^ 32) subtype 0 reason value 0)
  if q.2 = 0 then q.1 else q.1.jobReport span j q.2

/-- Source module of a reduction-control message. -/
def State.redSrc (s : State) (m : RedFrom) : Nat :=
  match m with
  | some (l, r) => match s.rxHead l r with | some x => x.src | none => s.moduleId
  | none => s.moduleId

/-! ### Step blocks and attempts (R289, R371, R64) -/

/-- The number one. -/
def numOne : XNum := .fin false 1 0 false

/-- 1/(1 − β^t), rounded once to binary32. -/
def biasCorr (beta t : Nat) : Nat :=
  let b := bin32.dec beta
  bin32.enc none (rne32 (numOne.div (numOne.add (iter (fun x => x.mul b) t numOne).neg)))

/-- Learning rate of a step: nothing gives it, so it is a free finite value of the job and its committed count. (Log 88 DESIGN CHOICE) -/
def Job.lr (j : Job) : Nat := Config.free 289 j.number j.committed 0 % 0x7F800000

/-- Step block of an attempt (Table 11.3); the bias corrections stand for the kinds that use them. -/
def Job.stepBlock (j : Job) (txn : Nat) : List Byte :=
  let adam := j.f 66 1 == 3 || j.f 66 1 == 4
  leBytes 8 txn ++ leBytes 4 j.committed ++ leBytes 4 j.lr ++ leBytes 4 (if adam then biasCorr (j.f 96 4) (j.committed + 1) else 0) ++
    leBytes 4 (if adam then biasCorr (j.f 104 4) (j.committed + 1) else 0) ++ List.replicate 40 0

/-- Queues of the tuning instances that send accumulates (R64): cluster, unit and queue. -/
def State.accQueues (s : State) (p : Nat) : List (Nat × Nat × Nat) :=
  (s.beInsts p).flatMap fun i =>
    ((mQs (bMan i.bale)).filter fun q => q.cls == 2 && q.dir == 1).map fun q => (s.aliasClu p q.clu, q.q / 32, q.q % 32)

/-- Does a skein bind one of the queues that send the accumulates of a partition's tuning instances. (Log 200 DEDUCED) -/
def State.accBound (s : State) (p : Nat) : Bool := (s.accQueues p).any fun q => (s.q q.1 (32 * q.2.1 + q.2.2)).bound.isSome

/-- Write a job's rank, entry and attempt into the accumulate queues that no skein binds (R64). (Log 200 DEDUCED) -/
def State.accWrite (s : State) (j : Job) (txn : Nat) : State :=
  (s.accQueues j.part).foldl (fun (s : State) q =>
    if (s.q q.1 (32 * q.2.1 + q.2.2)).bound.isSome then s
    else ((s.put STR_QACC_rank q.1 (j.f 17 1) q.2.1 q.2.2).put STR_QACC_job q.1 j.entry q.2.1 q.2.2).put STR_QACC_txn_step q.1 (txn % 2 ^ 32) q.2.1 q.2.2) s

/-- Advance a job to an attempt: step block and UPD_JOBn_STEP of its home channels. -/
def State.jobTxn (s : State) (h txn : Nat) : State :=
  match s.jobAt h with
  | none => s
  | some j =>
    ((s.homeChans j).foldl (fun (s : State) ch =>
      (s.chWr ch (s.recEntry ch j.entry + 128 + 64 * (txn % 2)) (j.stepBlock txn)).updStep ch j.entry (txn % 2 ^ 32)) s).modJob h
      fun j => { j with txn := txn, running := false, kernel := false }

/-! ### JOB_CREATE (R445, R432) -/

/-- Lowest place from `lo` below `hi` for `n` channel indices that avoids some runs. (Log 90 DESIGN CHOICE) -/
def placeRun (lo hi n : Nat) (used : List (Nat × Nat)) : Option Nat :=
  let ok := fun o => decide (lo ≤ o) && decide (o + n ≤ hi) && used.all fun u => disjointRuns o n u.1 u.2
  match (lo :: used.map fun u => u.1 + u.2).filter ok with
  | [] => none
  | x :: t => some (t.foldl Nat.min x)

/-- Place of a job's reduction area in a home channel (R359): in the tuning instance's pages of the channel's croft, outside the run,
the export area, the record table and the areas of other jobs. (Log 90 DESIGN CHOICE) -/
def State.redPlace (s : State) (j : Job) (ch : Nat) : Option Nat :=
  let aliasNo := (s.partCrofts j.part).idxOf (ch / 8)
  let k := j.f 10 2
  let n := j.units * (redSize k / 2048)
  let exp := if j.f 66 1 = 5 then [(j.f 48 4, j.units)] else []
  let others := ((List.range 16).filter fun i => i != j.entry && s.get UPD_JOB_CFG_valid ch i == 1).map fun i =>
    (s.get UPD_JOB_CFG_red_base ch i, s.runUnits ch i * (redSize (s.ranks ch i) / 2048))
  let used := [(j.f 44 4, j.units), (s.get UPD_TABLE_base ch, 2)] ++ exp ++ others
  (s.beInsts j.part).findSome? fun i =>
    let r := mPages (bMan i.bale) aliasNo
    placeRun (128 * r.1) (128 * (r.1 + r.2)) n used

/-- Fixed part of the record of home channel i (R432). -/
def Job.record (j : Job) (i : Nat) : List Byte :=
  patch (slice j.payload 64 128) 16 (leBytes 4 (j.f 40 4 + i * j.units) ++ leBytes 4 j.units ++ leBytes 4 (j.f 44 4) ++ leBytes 4 (j.f 48 4))

/-- Does a JOB_CREATE payload keep Table 15.17; `n` is the length of the payload and `tables` the tables it names. -/
def jobOk (r : List Byte) (tables : List Byte) : Bool :=
  let ext := nbit (mPay r 21 1) 0
  decide (256 ≤ mPayLen r) && decide (1 ≤ mPay r 4 1) && decide (1 ≤ mPay r 10 2) && decide (1 ≤ mPay r 12 4) && decide (mPay r 20 1 < 128) &&
  decide (mPay r 21 1 < 2) && (ext || mPay r 22 1 == 0) && decide (mPay r 22 1 < 8) && mPay r 23 1 == 0 && decide (1 ≤ mPay r 24 2) &&
  decide (mPay r 24 2 ≤ 4096) && decide (mPay r 56 1 < 16) && zeros r 89 7 && zeros r 112 16 && (ext || mPay r 192 8 == 0) && zeros r 232 56 &&
  (!ext || mPayLen r == 256) && tables.length == 2 * mPay r 4 1 * mPay r 10 2 + 4 * mPay r 24 2

/-- Checks of a job (Tables 11.8 and 13.11, R445, R503), in order. (Log 91 DEDUCED, 92 DEDUCED, 199 DEDUCED) -/
def State.jobCode (s : State) (j : Job) : Nat :=
  let p := j.stages
  let v := j.f 5 1
  let k := j.f 10 2
  let m8 := 8 * s.partM j.part
  let homes := j.f 54 2
  let hc := s.homeChans j
  let recs := (List.range hc.length).map fun i => j.record i ++ j.stepBlock 1
  let recCode := recs.foldl (fun a r => if a ≠ 0 then a else firstFail (recStatic r ++ [(recFloats r, 0x0C46)])) 0
  let adp := j.adapters.map fun a => s.adapter j.part a.1 a.2
  let owners := adp.filterMap fun a => a.map Rec.owner
  firstFail
    [(decide (1 ≤ v) && decide (v ≤ 8) && (p != 1 || v == 1), 0x0C51),
     (decide (1 ≤ j.micro) && (decide (p < 2) || j.micro % p == 0), 0x0C52),
     (j.f 8 2 % (p * v) == 0, 0x0C53),
     (decide (j.f 40 4 + m8 * j.units ≤ 2 ^ 24), 0x0C54),
     (decide (k ≤ 256) && decide (homes * m8 ≤ 4096), 0x0C71),
     (hc.all fun ch => (s.redPlace j ch).isSome, 0x0C72),
     (j.f 32 8 % 64 == 0 && decide (j.f 32 8 < 2 ^ 46), 0x0C73),
     (hc.all fun ch => s.get UPD_JOB_CFG_valid ch j.entry == 0, 0x0C74),
     (recCode == 0, recCode),
     (decide (j.f 16 1 < p) && decide (j.f 17 1 < k) && lget 65536 j.mods (j.f 17 1 * p + j.f 16 1) == s.moduleId, 0x0935),
     (adp.all fun a => match a with | some r => r.state == 1 | none => false, 0x0D22),
     (owners.all fun o => some o == owners.head?, 0x0B26)]

/-- Plaintext of an adapter of a job: its home parts in alias order (R255). -/
def State.adapterText (s : State) (j : Job) (a : Nat × Nat) : List Byte :=
  match s.adapter j.part a.1 a.2 with
  | none => []
  | some r => (s.partCrofts j.part).flatMap fun k => s.rdMem (croftOff k (r.home * 1024)) (r.rank * r.h)

/-- High halves of a unit at job start: the weight of each parameter in the plaintext of the adapter that holds it, zero where none does
(R283, R285). The place of a parameter's weight is the compiler's, which no message gives. (Log 189 DESIGN CHOICE) -/
def jobHighs (j : Job) (texts : List (List Byte)) (unit : Nat) : List Byte :=
  (List.range 256).flatMap fun e => match Config.paramPlace j.payload (256 * unit + e) with
    | none => [0, 0]
    | some p => leBytes 2 (leAt (lget [] texts p.1) p.2 2)

/-- A unit at job start (R285): the high halves, and zero in the tails and in the moments that the kind uses. -/
def State.unitInit (s : State) (ch ca : Nat) (r high : List Byte) : State :=
  let z := fun n => List.replicate n (0 : Byte)
  let s1 := s.chWr ch ca (high ++ z 512)
  let s2 := if usesM r then s1.chWr ch (ca + 1024) (z 512) else s1
  if secondBytes r = 0 then s2 else s2.chWr ch (ca + 1536) (z (secondBytes r))

/-- The units of home channel i at job start. -/
def State.unitsInit (s : State) (j : Job) (texts : List (List Byte)) (i ch : Nat) : State :=
  (List.range j.units).foldl (fun (s : State) u =>
    s.unitInit ch ((j.f 44 4 + u) * 2048) (j.record i) (jobHighs j texts (j.f 40 4 + i * j.units + u))) s

/-- Program the entry of home channel i and enable it. -/
def State.jobEntry (s : State) (j : Job) (i ch : Nat) : State :=
  let n := j.entry
  let isRoot := j.root == s.moduleId && j.rootChan == ch
  let root := globalAddr j.root (chanOffset j.rootChan (s.recEntry (if j.root = s.moduleId then j.rootChan else ch) n))
  let s1 := (s.chWr ch (s.recEntry ch n) (j.record i)).chWr ch (s.recEntry ch n + 128 + 64 * (j.txn % 2)) (j.stepBlock j.txn)
  let red := (s.redPlace j ch).getD 0
  let shards := j.f 54 2 * 8 * s.partM j.part
  let s2 := ((((s1.put UPD_JOB_CFG_rmax ch (j.f 10 2 - 1) n).put UPD_JOB_CFG_root ch (b2n isRoot) n).put UPD_JOB_CFG_shard ch
    (j.f 52 2 * 8 * s.partM j.part + i) n).put UPD_JOB_CFG_red_base ch red n).put UPD_JOB_CFG_shards_m1 ch (if isRoot then shards - 1 else 0) n
  let s3 := (((s2.put UPD_JOB_RET_copy_off ch (j.f 32 8 / 64) n).put UPD_JOB_RET_group ch (j.f 26 2) n).put UPD_JOB_ROOT_root_addr ch root n).put
    UPD_JOB_STEP_txn_step ch (j.txn % 2 ^ 32) n
  s3.updJobEnable ch n (BitVec.ofNat 64 (nput (s3.rreg UPD_JOB_CFG ch n) 0 1 1))

/-- Disable a job's entries on its home channels. -/
def State.jobDisable (s : State) (j : Job) : State :=
  (s.homeChans j).foldl (fun (s : State) ch => s.updJobDisable ch j.entry (BitVec.ofNat 64 (s.rreg UPD_JOB_CFG ch j.entry))) s

/-- A new job of a JOB_CREATE message: the module table of 2 B identifiers and then the adapter list of 4 B entries stand in `t`. (Log 89 DEDUCED) -/
def jobNew (handle p : Nat) (r t : List Byte) : Job :=
  let nm := mPay r 4 1 * mPay r 10 2
  { handle := handle, part := p, payload := mPayBytes r 0 256, mods := (List.range nm).map fun i => leAt t (2 * i) 2,
    adapters := (List.range (mPay r 24 2)).map fun i => (leAt t (2 * nm + 4 * i) 2, leAt t (2 * nm + 4 * i + 2) 2), txn := 1, committed := 0, last := 0,
    running := false, batches := [], used := 0, fill := 0, examples := [], checks := [], acks := [], voided := 0, returned := [], skipped := 0,
    ended := 0, stop := false, acking := false, kernel := false, fixes := [] }

/-- The tables of a JOB_CREATE: in the message, or in host memory as read. -/
def jobTables (r tables : List Byte) : List Byte := if nbit (mPay r 21 1) 0 then tables else mPayBytes r 256 (mPayLen r - 256)

/-- JOB_CREATE. -/
def State.jobCreate (s : State) (b : Nat) (r tables : List Byte) : State :=
  let p := boxOwner b
  let t := jobTables r tables
  if mHandle r ≠ 0 ∨ jobOk r t = false then s.mbxRespond b 0x0904 0 []
  else
    let h := s.newHandle
    let j := jobNew h.2 p r t
    let code := s.jobCode j
    if code ≠ 0 then s.mbxRespond b code 0 []
    else
      let hc := s.homeChans j
      let s1 := hc.zipIdx.foldl (fun (s : State) c => s.jobEntry j c.2 c.1) h.1
      match hc.find? fun ch => s1.get UPD_JOB_CFG_valid ch j.entry == 0 with
      | some ch => (s1.jobDisable j).mbxRespond b (s1.get UPD_JOB_STAT_reason ch j.entry) 0 []
      | none =>
        let texts := j.adapters.map (s1.adapterText j)
        let s2 := hc.zipIdx.foldl (fun (s : State) c => s.unitsInit j texts c.2 c.1) s1
        ((s2.accWrite j j.txn).modSys fun x => { x with jobs := x.jobs ++ [j] }).mbxRespond b 0 h.2 []

/-! ### The end of a job (R447, R430) -/

/-- A job ends on this module: its open commands complete with the reason, its entries are disabled, and it has no more work. (Log 95 DEDUCED) -/
def State.jobEnd (s : State) (h reason : Nat) : State :=
  match s.jobAt h with
  | none => s
  | some j =>
    if j.ended ≠ 0 then s
    else
      let s1 := (j.examples.map (fun (e : ExCmd) => (e.1, e.2.1)) ++ j.checks.map fun (e : CkCmd) => (e.1, e.2.1)).foldl
        (fun (s : State) e => s.cmdFinal e.1 e.2 reason 0 0) s
      let s2 := (s1.jobDisable j).modJob h fun j => { j with examples := [], checks := [], batches := [], running := false, ended := reason }
      s2.modSys fun x => { x with insts := x.insts.map fun i => if i.part == j.part && i.cls == 2 then { i with done := true } else i }

/-- JOB_STOP (R430): at the step boundary, at once while no attempt is under way. -/
def State.jobStop (s : State) (b : Nat) (r : List Byte) : State :=
  match s.jobAt (mHandle r) with
  | none => s.mbxRespond b 0x0905 0 []
  | some j =>
    if j.part ≠ boxOwner b then s.mbxRespond b 0x0905 0 []
    else if j.ended ≠ 0 then s.mbxRespond b 0x0932 0 []
    else if j.running then (s.modJob j.handle fun j => { j with stop := true }).mbxRespond b 0 0 []
    else (s.jobEnd j.handle 0x0934).mbxRespond b 0 0 []

/-! ### EXAMPLES (R433, R446) -/

/-- Records of a stream: tokens and words of each, and a code when one is too long or the stream ends inside one. -/
def exRecords (limit : Nat) : Nat → List Byte → List (Nat × List Nat) × Nat
  | 0, _ => ([], 0)
  | fuel + 1, b =>
    if b.isEmpty then ([], 0)
    else
      let n := leAt b 0 4
      if b.length < 8 then ([], 0x0937)
      else if limit < n then ([], 0x0931)
      else if b.length < 8 + 4 * n then ([], 0x0937)
      else
        let q := exRecords limit fuel (b.drop (8 + 4 * n))
        ((n, (List.range (2 + n)).map fun i => leAt b (4 * i) 4) :: q.1, q.2)

/-- Pack a record (R446). -/
def Job.pack (j : Job) (x : Nat × List Nat) : Job :=
  if j.batches.isEmpty ∨ j.mbTokens < j.fill + x.1 then { j with batches := j.batches ++ [x.2], fill := x.1 }
  else { j with batches := lset j.batches (j.batches.length - 1) (lget [] j.batches (j.batches.length - 1) ++ x.2), fill := j.fill + x.1 }

/-- Micro-batches that are closed or full. -/
def Job.packed (j : Job) : Nat := j.batches.length - (if j.fill = j.mbTokens then 0 else 1)

/-- The job that a command names, of the channel's owner. (Log 95 DEDUCED) -/
def State.cmdJob (s : State) (ch : Nat) (c : Cmd) : Option Job := (s.jobAt c.object).filter fun j => j.part == s.chOwner ch

/-- EXAMPLES. -/
def State.examples (s : State) (ch cseq : Nat) (c : Cmd) (b : List Byte) : State :=
  match s.cmdJob ch c with
  | none => s.cmdFinal ch cseq 0x0905 0 0
  | some j =>
    let q := exRecords j.mbTokens b.length b
    if c.outs.isEmpty = false then s.cmdFinal ch cseq 0x0904 0 0
    else if j.ended ≠ 0 then s.cmdFinal ch cseq 0x0932 0 0
    else if q.2 ≠ 0 then s.cmdFinal ch cseq q.2 0 0
    else if q.1.isEmpty then s.cmdFinal ch cseq 0 j.committed 0
    else
      let j1 := q.1.foldl Job.pack j
      (s.cmdTake ch cseq).modJob j.handle fun _ => { j1 with examples := j1.examples ++ [(ch, cseq, j1.batches.length - 1)] }

/-! ### Commit, skip and end of an attempt (R299, R376, R447) -/

/-- The consumed EXAMPLES commands complete; the job stands at its next attempt. (Log 89 DEDUCED) -/
def State.jobNext (s : State) (h reason : Nat) : State :=
  match s.jobAt h with
  | none => s
  | some j =>
    let due := j.examples.filter fun (e : ExCmd) => decide (e.2.2 < j.used)
    let s1 := due.foldl (fun (s : State) (e : ExCmd) => s.cmdFinal e.1 e.2.1 reason (j.committed % 2 ^ 32 + j.skipped * 2 ^ 32) 0) s
    let s2 := s1.modJob h fun j =>
      { j with examples := j.examples.filter fun (e : ExCmd) => !(decide (e.2.2 < j.used)),
               returned := j.returned.filter fun r => r.2 == j.last % 2 ^ 32, voided := 0, acks := [], skipped := 0 }
    let s3 := s2.jobTxn h (j.txn + 1)
    if j.stop then s3.jobEnd h 0x0934 else s3

/-- The step commits on this module. -/
def State.jobCommit (s : State) (j : Job) : State :=
  let guarded := ((s.homeChans j).map fun ch => (s.updE ch j.entry).skipped).foldl (· + ·) 0
  (s.modJob j.handle fun j => { j with committed := j.committed + 1, last := j.txn, used := j.used + j.micro, skipped := guarded }).jobNext j.handle 0

/-- The step is skipped under 0x0C48: its records are consumed and the committed count stays (R299, R447). -/
def State.jobSkip (s : State) (j : Job) : State :=
  let s1 := if j.root = s.moduleId then (j.parts.filter fun m => m != s.moduleId).foldl (fun (s : State) m => s.jobSend j m 2 0x0C48 0) s else s
  (s1.modJob j.handle fun j => { j with used := j.used + j.micro }).jobNext j.handle 0x0C48

/-- Are the returned notices of an attempt in from every home channel of the job on the other home modules (R376); an attempt 0 is none.
The return of this module's own home channels is seen in their entries. (Log 94 DEDUCED) -/
def State.returnedAll (s : State) (j : Job) (txn : Nat) : Bool :=
  let mine := j.returned.filter fun r => r.2 == txn % 2 ^ 32
  let srcs := mine.foldl (fun (a : List Nat) r => if r.1 == s.moduleId || a.contains r.1 then a else a ++ [r.1]) []
  let full := srcs.filter fun x => decide (8 * s.partM j.part ≤ (mine.filter fun r => r.1 == x).length)
  txn == 0 || decide (j.f 54 2 ≤ full.length + b2n (!(s.homeChans j).isEmpty))

/-- The best-effort instances of a job's partition have work from the start again. -/
def State.jobAgain (s : State) (p : Nat) : State :=
  s.modSys fun x => { x with insts := x.insts.map fun i => if i.part == p && i.cls == 2 then { i with done := false, ran := false } else i }

/-- A custom job's update kernel starts once its programs have run and every home channel has exported its units (R300). (Log 190 DEDUCED) -/
def State.jobKernel (s : State) (j : Job) : State :=
  if j.f 66 1 = 5 ∧ j.running = true ∧ j.kernel = false ∧ (s.homeChans j).isEmpty = false ∧
      ((s.homeChans j).all fun ch => s.get UPD_JOB_STAT_state ch j.entry != 6 && decide (j.units ≤ (s.updE ch j.entry).exported)) = true ∧
      ((s.beInsts j.part).all fun i => i.done) = true then
    (s.modJob j.handle fun j => { j with kernel := true }).jobAgain j.part
  else s

/-- The clean ack of a void leaves once the module's accumulates of the attempt have completed or failed (R371). -/
def State.jobAck (s : State) (j : Job) : State :=
  if j.acking = false ∨ s.accBound j.part = true then s
  else (s.modJob j.handle fun j => { j with acking := false }).jobSend { j with txn := j.txn - 1 } j.root 5 0 0

/-- What a job's Aselo does on what it sees of the entries and the returned notices. -/
def State.jobPoll (s : State) (h : Nat) : State :=
  match s.jobAt h with
  | none => s
  | some j =>
    let hc := s.homeChans j
    let n := j.entry
    let st := fun ch => s.get UPD_JOB_STAT_state ch n
    let why := fun ch => s.get UPD_JOB_STAT_reason ch n
    if j.ended ≠ 0 then s
    else if j.acking then s.jobAck j
    else match hc.find? fun ch => st ch == 7 ||
        (why ch == 0x0C41 && (st ch == 5 || (st ch == 4 && !(s.updE ch n).streaming && (s.updE ch n).handed.isEmpty))) with
      | some ch => s.jobEnd h (why ch)
      | none =>
        if hc.isEmpty then
          if (j.returned.any fun r => r.2 == j.txn % 2 ^ 32) && s.returnedAll j j.txn then s.jobCommit j else s
        else if hc.all fun ch => st ch == 5 then
          if hc.any fun ch => why ch == 0x0C48 && s.get UPD_JOB_STAT_committed ch n == 0 then s.jobSkip j else s.jobCommit j
        else s.jobKernel j

/-- Change the repair that a job has under way. -/
def Job.fixing (j : Job) (f : Fix → Option Fix) : Job :=
  match j.fixes with
  | [] => j
  | x :: t => { j with fixes := match f x with | some y => y :: t | none => t }

/-- The repair of a copy whose pull failed (R376): once `returned` is in, the job's Aselo reads the high-half planes of the home's units in
turn, in the management class, and writes them to the copy. The home's run stands in its own JOB_CREATE alone, so its place here is a free
value; a read that fails ends the job. (Log 205 DESIGN CHOICE) -/
def State.jobFix (s : State) (h : Nat) : State :=
  match s.jobAt h with
  | none => s
  | some j =>
    match j.fixes with
    | [] => s
    | x :: _ =>
      let who := Who.fix h x.home x.chan x.pos
      if j.ended ≠ 0 ∨ s.returnedAll j j.last = false then s
      else if x.units ≤ x.pos then s.modJob h (fun j => j.fixing fun _ => none)
      else if x.asked = false then
        let run := Config.free 376 x.home j.number x.chan % chUnits
        let m : Send :=
          { cls := 0, span := 0, dst := x.home, opcode := 1, gen := 0, part := 16,
            addr := globalAddr x.home (chanOffset x.chan ((run + x.pos) % chUnits * 2048)), opf := 0, blocks := [], poison := [], b := 8,
            who := some who, ttag := none, oseq := none }
        let q := s.lokIssue 0 m
        if q.2 ≠ 0 then (q.1.event q.2 0xFFFF j.part 0).jobEnd h q.2 else q.1.modJob h (fun j => j.fixing fun y => some { y with asked := true })
      else match s.replyOf who with
        | none => s
        | some r =>
          if r.reason ≠ 0 then (s.take who).jobEnd h r.reason
          else
            ((List.range 8).foldl (fun (s : State) i => s.wrData (x.copyOff + 512 * x.pos + 64 * i) (slice r.data (64 * i) 64) r.poison) (s.take who)).modJob h
              (fun j => j.fixing fun y => some { y with pos := y.pos + 1, asked := false })

/-- The same for every job. -/
def State.jobsPoll (s : State) : State := s.sys.jobs.foldl (fun (s : State) j => (s.jobPoll j.handle).jobFix j.handle) s

/-- May an attempt of a job start (R376, R447, R448): the micro-batches stand packed, no checkpoint is due, the return of the previous
update is complete, and its accumulate queues can be written (R64). -/
def State.mayStart (s : State) (j : Job) : Bool :=
  let ends := j.f 16 1 == 0 || j.f 16 1 + 1 == j.stages
  j.ended == 0 && !j.running && j.voided == 0 && !j.acking && j.fixes.isEmpty && !(j.checks.any fun (e : CkCmd) => e.2.2 == j.committed) &&
  (!ends || decide (j.used + j.micro ≤ j.packed)) && s.returnedAll j j.last && !(s.accBound j.part)

/-- An attempt starts: the accumulate queues take its number, and the best-effort instances of the job's partition have work. -/
def State.jobRun (s : State) (j : Job) : State :=
  ((s.accWrite j j.txn).modJob j.handle fun j => { j with running := true }).jobAgain j.part

/-- TUNING_ATTEMPT_START (R447, R448). (Log 111 DEDUCED) -/
def State.attemptStart (s0 : State) (h : Nat) : State :=
  let s := s0.jobsPoll
  match s.jobAt h with
  | none => s
  | some j => if s.mayStart j then s.jobRun j else s

/-! ### Step void (R369 to R372) -/

/-- Is the whole reduction of an attempt complete at the root. -/
def State.shardsIn (s : State) (j : Job) : Bool :=
  s.get UPD_JOB_CFG_shards_m1 j.rootChan j.entry < (s.updE j.rootChan j.entry).shards.length

/-- VOID_REPORT reaches the root's Aselo. (Log 81 DEDUCED, 111 DEDUCED) -/
def State.voidReport (s : State) (m : RedFrom) : State :=
  let q := s.redTake m 3
  match q.2 with
  | none => q.1
  | some (_, blk) => match q.1.jobOf (leAt blk 0 4) with
    | none => q.1
    | some j =>
      let why := leAt blk 12 2
      let heard := match m with | some (l, r) => (s.rxHead l r).map RxMsg.heard | none => none
      if j.root ≠ s.moduleId ∨ leAt blk 4 4 ≠ j.txn % 2 ^ 32 then q.1
      else if j.voided ≠ 0 ∨ s.shardsIn j = true then
        let e := Event.plain why why j.part (s.get PRT_PART_CTL_gen 0 j.part) 0xFFFF 0 0
        q.1.raise (match heard with | some h => h.tagOf e | none => e)
      else
        let e := Event.plain 0x0CF0 why j.part (s.get PRT_PART_CTL_gen 0 j.part) 0xFFFF 0 (packDetail [(j.number, 4), (j.txn, 4), (why, 2)])
        let e1 : Event := match heard with | some h => h.tagOf e | none => e
        let s1 := (q.1.raise e1).modJob j.handle fun j => { j with voided := why, acks := [] }
        j.parts.foldl (fun (s : State) m => s.jobSend j m 4 why 0) s1

/-- STEP_VOID reaches a participant (R371): a home acks committed at once. Else the entries stand at the next attempt, the kernels of the
attempt are cancelled, and the clean ack leaves once no accumulate of it is outstanding. (Log 200 DEDUCED) -/
def State.stepVoid (s : State) (m : RedFrom) : State :=
  let q := s.redTake m 4
  match q.2 with
  | none => q.1
  | some (_, blk) => match q.1.jobOf (leAt blk 0 4) with
    | none => q.1
    | some j =>
      if leAt blk 4 4 ≠ j.txn % 2 ^ 32 then q.1
      else
        let hc := q.1.homeChans j
        let s1 := hc.foldl (fun (s : State) ch => s.updCmdVoid ch j.entry) q.1
        let s2 := (s1.beInsts j.part).foldl (fun (s : State) i => (s.heldBy i.handle).foldl (fun (s : State) c => s.cancelAll c) s) s1
        if hc.any fun ch => s.get UPD_JOB_STAT_committed ch j.entry == 1 then (s2.jobSend j j.root 5 0 1).jobEnd j.handle 0x0C66
        else
          let s3 := (s2.jobTxn j.handle (j.txn + 1)).modJob j.handle fun j => { j with acking := true }
          s3.jobPoll j.handle

/-- VOID_ACK reaches the root (R371, R372). (Log 111 DEDUCED) -/
def State.voidAck (s : State) (m : RedFrom) : State :=
  let src := s.redSrc m
  let q := s.redTake m 5
  match q.2 with
  | none => q.1
  | some (_, blk) => match q.1.jobOf (leAt blk 0 4) with
    | none => q.1
    | some j =>
      if j.root ≠ s.moduleId ∨ j.voided = 0 then q.1
      else if leAt blk 16 4 ≠ 0 then q.1.jobEnd j.handle 0x0C66
      else
        let acks := if j.acks.contains src then j.acks else j.acks ++ [src]
        if j.parts.all fun x => acks.contains x then
          let s1 := q.1.modJob j.handle fun j => { j with voided := 0, acks := [] }
          let j1 := { j with voided := 0, acks := [] }
          if s1.mayStart j1 then s1.jobRun j1 else s1
        else q.1.modJob j.handle fun j => { j with acks := acks }

/-- CLIP_FACTOR: at a home channel, or at a participant's Aselo, which learns of a skipped step (R299). (Log 83 DEDUCED) -/
def State.clipFactor (s : State) (m : RedFrom) : State :=
  let q := s.redTake m 2
  match q.2 with
  | none => q.1
  | some (off, blk) => match q.1.entryAt off with
    | some (ch, n) => (q.1.clipTake ch n blk).jobsPoll
    | none => match q.1.jobOf (leAt blk 0 4) with
      | none => q.1
      | some j =>
        if leAt blk 12 2 = 0x0C48 ∧ leAt blk 4 4 = j.txn % 2 ^ 32 ∧ (q.1.homeChans j).isEmpty = true then q.1.jobSkip j else q.1

/-- RETURNED (R376). -/
def State.returnedTake (s : State) (m : RedFrom) : State :=
  let src := s.redSrc m
  let q := s.redTake m 6
  match q.2 with
  | none => q.1
  | some (_, blk) => match q.1.jobOf (leAt blk 0 4) with
    | none => q.1
    | some j => (q.1.modJob j.handle fun j => { j with returned := j.returned ++ [(src, leAt blk 4 4)] }).jobsPoll

/-! ### CHECKPOINT (R448, R503) -/

/-- Bytes of a module's checkpoint blob. (Log 93 DEDUCED) -/
def State.ckBytes (s : State) (j : Job) : Nat := 144 + 2048 * j.units * (s.homeChans j).length

/-- CHECKPOINT. (Log 93 DEDUCED) -/
def State.checkpoint (s : State) (ch cseq : Nat) (c : Cmd) (b : List Byte) : State :=
  match s.cmdJob ch c with
  | none => s.cmdFinal ch cseq 0x0905 0 0
  | some j => match c.outs with
    | [o] =>
      let count := leAt b 0 4
      if b.length ≠ 4 then s.cmdFinal ch cseq 0x0904 0 0
      else if j.ended ≠ 0 then s.cmdFinal ch cseq 0x0932 0 0
      else if count < j.committed then s.cmdFinal ch cseq 0x0933 0 0
      else if o.len < s.ckBytes j then s.cmdFinal ch cseq 0x0936 0 0
      else (s.cmdTake ch cseq).modJob j.handle fun j => { j with checks := j.checks ++ [(ch, cseq, count)] }
    | _ => s.cmdFinal ch cseq 0x0904 0 0

/-- CHECKPOINT_WRITE: between steps, the units are read, sealed and written to the reference. -/
def State.checkpointWrite (s0 : State) (h : Nat) : State :=
  let s := s0.jobsPoll
  match s.jobAt h with
  | none => s
  | some j =>
    if j.ended ≠ 0 ∨ j.running = true then s
    else match j.checks.find? fun (e : CkCmd) => e.2.2 == j.committed with
      | none => s
      | some (ch, cseq, _) =>
        let s1 := s.modJob h fun j => { j with checks := j.checks.filter fun (e : CkCmd) => !(e.1 == ch && e.2.1 == cseq) }
        let slot := (match j.adapters with | a :: _ => a.1 | [] => 0)
        let out := ((s.hch ch).cmds.find? fun c => c.cseq == cseq).bind fun c => c.outs.head?
        match s.recAt slot, out with
        | some r, some o =>
          let units := (s.homeChans j).flatMap fun c => (List.range j.units).map fun u => (c, (j.f 44 4 + u) * 2048)
          let s1 := units.foldl (fun (s : State) u => s.chNote u.1 u.2 2048) s1
          if sealLimit ≤ r.seals then s1.cmdFinal ch cseq 0x0B25 0 0
          else if units.any fun u => s.chBad u.1 u.2 2048 then (s1.cmdFinal ch cseq 0x0C41 0 0).jobEnd h 0x0C41
          else
            let body := units.flatMap fun u => s.chRd u.1 u.2 2048
            let tail := leBytes 4 j.number ++ leBytes 4 j.committed ++ leBytes 4 (j.units * (s.homeChans j).length)
            let q := s1.sealUnder slot r (fun nonce => sealHdr ckMagic 0 0 r.owner 0 r.keyId nonce tail) body
            (q.1.refOut ch cseq o q.2).cmdFinal ch cseq 0 j.committed (s.ckBytes j)
        | _, _ => s1.cmdFinal ch cseq 0x0D22 0 0

/-! ### The commands -/

/-- JOB_CREATE (R445). -/
def execJobCreate (b : Mbx) (tables : List Byte) (s : State) : Host.Outcome State Fault Refusal :=
  .next (s.mbxServe b 0x0161 fun s r => s.jobCreate b r tables)

/-- JOB_STOP (R430). -/
def execJobStop (b : Mbx) (s : State) : Host.Outcome State Fault Refusal := .next (s.mbxServe b 0x0162 fun s r => s.jobStop b r)

/-- EXAMPLES (R446). -/
def execExamples (ch : HCh) (cseq : Nat) (s : State) : Host.Outcome State Fault Refusal :=
  .next (s.chanServe ch cseq 0x0231 fun s c b => s.examples ch cseq c b)

/-- TUNING_ATTEMPT_START (R447). -/
def execTuningAttemptStart (h : Nat) (s : State) : Host.Outcome State Fault Refusal := .next (s.attemptStart h)

/-- CHECKPOINT (R448). -/
def execCheckpoint (ch : HCh) (cseq : Nat) (s : State) : Host.Outcome State Fault Refusal :=
  .next (s.chanServe ch cseq 0x0232 fun s c b => s.checkpoint ch cseq c b)

/-- CHECKPOINT_WRITE (R448). -/
def execCheckpointWrite (h : Nat) (s : State) : Host.Outcome State Fault Refusal := .next (s.checkpointWrite h)

/-- UNIT_UPDATE (R291 to R296). -/
def execUnitUpdate (ch : Chan) (n : Part) (s : State) : Host.Outcome State Fault Refusal := .next (s.unitUpdate ch n).jobsPoll

/-- CLIP_FACTOR (R299). -/
def execClipFactor (m : Option (Lnk × Fin 64)) (s : State) : Host.Outcome State Fault Refusal := .next (s.clipFactor m)

/-- VOID_REPORT (R370). -/
def execVoidReport (m : Option (Lnk × Fin 64)) (s : State) : Host.Outcome State Fault Refusal := .next (s.voidReport m)

/-- STEP_VOID (R371). -/
def execStepVoid (m : Option (Lnk × Fin 64)) (s : State) : Host.Outcome State Fault Refusal := .next (s.stepVoid m)

/-- VOID_ACK (R372). -/
def execVoidAck (m : Option (Lnk × Fin 64)) (s : State) : Host.Outcome State Fault Refusal := .next (s.voidAck m)

/-- RETURNED (R376). -/
def execReturned (m : Option (Lnk × Fin 64)) (s : State) : Host.Outcome State Fault Refusal := .next (s.returnedTake m)

end Sys2Proof.Machine
end

