-- ==== Sys2Proof/Machine/Sched.lean ====
section
/-!
DEFINITION. Scheduling within a partition (chapter "Crofts, partitions and priority classes", R467 to R478): the start of a step,
best-effort instances and their yields, lent lines, context teardown, unload, and forced removal (R246, R276).
-/
namespace Sys2Proof.Machine

open Sys2Proof

/-! ### Teardown (R477, Table 16.10) -/

/-- Orders 3 to 8 for an instance: its loop or its jobs end with `code`, and one event carries the faulting reason. (Log 69 DESIGN CHOICE, 131 DESIGN CHOICE) -/
def State.ctxEnd (s : State) (i : Inst) (why code : Nat) : State :=
  let held := s.heldBy i.handle
  let s1 := held.foldl (fun (s : State) c => s.reviveEngine c) ((held.foldl (fun (s : State) c => s.dropSkeins c) s).unprogram i)
  let s2 := if i.cls = 1 then s1.loopEnd i.part code
    else (s1.sys.jobs.filter fun j => j.part == i.part && j.ended == 0).foldl (fun (s : State) j => s.jobEnd j.handle code) s1
  (s2.dropInst i).raise (Event.plain 0x0AF0 why i.part (s.get PRT_PART_CTL_gen 0 i.part) 0xFFFF 0 (packDetail [(why, 2), (i.baleId, 8)]))

/-- An instance of a partition whose fault was noted while it held no cluster, and which can be torn down. (Log 187 DEDUCED) -/
def State.noted (s : State) (p : Nat) : Option Inst := (s.instsOf p).find? fun i => i.fault != 0 && (s.heldBy i.handle).isEmpty && s.othersQuiet i

/-- CONTEXT_TEARDOWN: order 1 at once; the orders after 2 once nothing of the context is outstanding, and with the stations of no other
instance in use. A cluster that holds no instance is a context of its own; one that has no fault stands for the noted faults of its
partition. (Log 187 DEDUCED) -/
def State.teardown (s : State) (c : Nat) : State :=
  let why := (s.cl c).faulted
  if why = 0 then
    match s.noted (s.croftPart (cluCroft c)).1 with
    | some i => (s.ctxEnd i i.fault 0x0A41).loopRedo i.part
    | none => s
  else match ((s.cl c).inst).bind s.instAt with
    | some i =>
      let s1 := s.stopCtx (s.heldBy i.handle)
      if s1.ctxDrained (s.heldBy i.handle) && s1.othersQuiet i then (s1.ctxEnd i why 0x0A41).loopRedo i.part else s1
    | none =>
      let s1 := s.stopCtx [c]
      if s1.ctxDrained [c] then
        let pg := s.cluPart c
        (((s1.dropSkeins c).reviveEngine c).modCl c fun x => { x with faulted := 0 }).raise
          (Event.plain 0x0AF0 why pg.1 pg.2 0xFFFF 0 (packDetail [(why, 2), (0, 8)]))
      else s1

/-! ### Issue-delay limiting (R536, R537, Table 19.3) -/

/-- Does a best-effort condition hold. -/
def State.beHot (s : State) : Bool :=
  decide (s.get PWR_CAP_cap_w 0 * s.get PWR_CAP_soft_pct 0 ≤ 100 * s.get PWR_MEAS_pavg_w 0) || decide (s.get PWR_CAP_t_soft 0 ≤ s.get PWR_TEMP_die_max 0) ||
    decide (s.get PWR_CAP_t_soft 0 ≤ s.get PWR_TEMP_hbm_max 0 + 5)

/-- Does a latency-critical condition hold. -/
def State.lcHot (s : State) : Bool :=
  decide (s.get PWR_CAP_cap_w 0 ≤ s.get PWR_MEAS_pavg_w 0) || decide (s.get PWR_CAP_t_hard 0 ≤ s.get PWR_TEMP_die_max 0) ||
    decide (s.get PWR_CAP_t_hard 0 ≤ s.get PWR_TEMP_hbm_max 0 + 10)

/-- The present issue is delayed; SMBALERT# is asserted at the start of a delay (R551). -/
def State.hold (s : State) (p : Nat) (lc : Bool) : State :=
  let held := if lc then (s.part p).lcHeld else (s.part p).beHeld
  if held ≠ 0 then s
  else { s.modPart p (fun x => if lc then { x with lcHeld := s.tick + 1 } else { x with beHeld := s.tick + 1 }) with pwr := { s.pwr with alert := true } }

/-- The issue goes ahead: a delay that ends is counted and recorded. -/
def State.unhold (s : State) (p : Nat) (lc : Bool) : State :=
  let held := if lc then (s.part p).lcHeld else (s.part p).beHeld
  if held = 0 then s
  else
    let delay := s.tick + 1 - held
    let s1 := ((s.modPart p fun x => if lc then { x with lcHeld := 0 } else { x with beHeld := 0 }).bump PWR_HOLD_delays 0).bump PWR_HOLD_delay_us 0 0 0 (delay / 1000)
    s1.event 0x0EF0 0xFFFF p (packDetail [(delay, 8)])

/-- Ungate the clocks of a partition's crofts (R543). -/
def State.ungate (s : State) (p : Nat) : State :=
  s.put PWR_STATE_croft_idle 0 ((s.partCrofts p).foldl (fun m k => nput m k 1 0) (s.get PWR_STATE_croft_idle 0))

/-! ### Yields (R468, R469, R473, R474) -/

/-- Does a cluster hold a held accumulator buffer. -/
def State.holdsBuf (s : State) (c : Nat) : Bool := (List.range 16).any fun m => (s.heldBuf c m).isSome

/-- Have the skeins of some clusters all ended (R244). -/
def State.skeinsDone (s : State) (cs : List Nat) : Bool := cs.all fun c => (s.cl c).eng.slots.all Skein.done

/-- Once every core of the best-effort instance has yielded or halted and its skeins have ended, Aselo keeps its dither values and its draw configuration; a held
buffer tears it down with 0x0A52. (Log 134 DESIGN CHOICE) -/
def State.beSettle (s : State) (p : Nat) : State :=
  match (s.part p).be with
  | none => s
  | some h => match s.instAt h with
    | none => s.modPart p fun x => { x with be := none, yielding := false }
    | some i =>
      let cs := s.coreClus i
      if s.instActive i ∨ (cs.any fun c => (s.cl c).faulted != 0) = true ∨ s.skeinsDone (s.heldBy h) = false then s
      else
        let yielded := cs.filter fun c => s.get CLU_CORE_CTL_state c == 4
        let kept := yielded.map fun c => (c, s.rreg CLU_DITHER_SEED c, s.get CLU_DITHER_STEP_step c, s.rreg CLU_DRAW_CFG c)
        let s1 := (s.modInst h fun i => { i with saved := kept, ran := !yielded.isEmpty, done := yielded.isEmpty }).modPart p
          fun x => { x with be := none, yielding := false, lastBe := h }
        if !yielded.isEmpty && (s.heldBy h).any s.holdsBuf then s1.faultInst i 0x0A52 else s1

/-- Request the yield of the best-effort instance that runs. -/
def State.beYield (s : State) (p : Nat) : State :=
  match ((s.part p).be).bind s.instAt with
  | none => s
  | some i => if s.instActive i then (s.askYield i).modPart p fun x => { x with yielding := true } else s

/-- STEP_PENDING: order 7 is complete and the gap has passed. -/
def State.stepPending (s : State) (p : Nat) : State :=
  match s.loopOf p with
  | none => s
  | some l =>
    if l.phase ≠ 1 ∨ ((s.part p).since ≠ 0 ∧ s.tick + 1 < (s.part p).since + 1000 * s.pf p 56 4) then s
    else ((s.modLoop p fun l => { l with phase := 2, started := s.tick }).ungate p).beYield p

/-- BE_QUANTUM_EXPIRY. (Log 4 DESIGN CHOICE) -/
def State.beQuantum (s : State) (p : Nat) : State := s.beYield p

/-- YIELD_LIMIT_EXPIRY: the core has not yielded in time; its context fails and the expiry is recorded (R471, R511). -/
def State.yieldLimit (s : State) (c : Nat) : State :=
  if s.get CLU_CORE_CTL_yield_req c = 1 ∧ s.coreActive c = true ∧ (s.cl c).faulted = 0 then (s.ctxFault c 0x0A51).cluEvent c 0x0A51 0 0
  else s

/-! ### Lent lines (R470, R472, R475) -/

/-- The instance that the lines of a partition are lent to. -/
def State.lentTo (s : State) (p : Nat) : Nat :=
  match (s.beInsts p).find? fun i => !i.lent.isEmpty with | some i => i.handle | none => (s.part p).lastBe

/-- The valid slots of a partition: cluster, slot, line, dirty. -/
def State.lentNow (s : State) (p : Nat) : List (Nat × Nat × Nat × Bool) :=
  (s.partClus p).flatMap fun c => ((List.range 32).filter fun k => s.get CLU_BSLOT_valid c k == 1).map fun k =>
    (c, k, s.get CLU_BSLOT_line c k, s.get CLU_BSLOT_dirty c k == 1)

/-- Record the valid slots in the instance: a line that was spilled before stays one whose contents stand in the spill area. -/
def lentMerge (old now : List (Nat × Nat × Nat × Bool)) : List (Nat × Nat × Nat × Bool) :=
  let again := fun (x : Nat × Nat × Nat × Bool) => old.any fun o => o.1 == x.1 && o.2.1 == x.2.1 && o.2.2.1 == x.2.2.1 && o.2.2.2
  (old.filter fun o => !(now.any fun x => o.1 == x.1 && o.2.1 == x.2.1)) ++ now.map fun x => (x.1, x.2.1, x.2.2.1, x.2.2.2 || again x)

/-- Return every valid slot of a partition (R196). -/
def State.lentReturn (s : State) (p : Nat) : State :=
  let now := s.lentNow p
  let s1 := s.modInst (s.lentTo p) fun i => { i with lent := lentMerge i.lent now }
  (s.partClus p).foldl (fun (s : State) c => if now.any fun x => x.1 == c then s.returnCmd c 1 else s) s1

/-- Is a return or a refill under way in a partition. -/
def State.returning (s : State) (p : Nat) : Bool := (s.partClus p).any fun c => s.get CLU_RETURN_busy c == 1

/-- Lent lines of an instance that are not valid now. -/
def State.lentOut (s : State) (i : Inst) : List (Nat × Nat × Nat × Bool) := i.lent.filter fun x => s.get CLU_BSLOT_valid x.1 x.2.1 == 0

/-- Is a granule of an alias cluster lendable: the latency-critical instance reserves it, and it holds no data extent, no descriptor and
no save area (R476). -/
def Inst.lendable (i : Inst) (a g : Nat) : Bool :=
  let e := i.entry a
  let holds := fun off n => n != 0 && overlap off n (g * 0x10000) 0x10000
  nbit (mGrans (bMan i.bale) a) g && !(holds (64 * e.descAt) (64 * e.descN)) && !(e.codeLen != 0 && holds (64 * e.saveAt) 256) &&
    (List.range e.dataN).all fun k => let d := bExtent i.bale e k; !(holds d.1 d.2.1)

/-- Lines validly borrowed in a croft. -/
def State.croftLines (s : State) (k : Nat) : Nat := ((croftClus k).map fun c => (s.validSlots c).length).sum

/-- May Aselo mark a line in a cluster: it lies in a lendable granule of the partition's latency-critical instance, which has no step
running (R193, R475), and with it the croft has at most 384 lines borrowed (R195); `one` is 1 for a slot that is not valid yet. (Log 185 DESIGN CHOICE) -/
def State.mayLend (s : State) (c line one : Nat) : Bool :=
  let p := (s.croftPart (cluCroft c)).1
  let a := 100 * (s.partCrofts p).idxOf (cluCroft c) + cluLocal c
  (match s.lcInst p with | some i => i.lendable a (line / 4) | none => false) &&
    !(match s.loopOf p with | some l => l.phase == 3 | none => false) && decide (s.croftLines (cluCroft c) + one ≤ 384)

/-- A write to a borrow slot. Aselo, the only writer of the register (R198), marks no line that it may not mark. (Log 23 DEDUCED, 24 DEDUCED, 25 DEDUCED, 185 DESIGN CHOICE) -/
def State.bslotWrite (s : State) (c i v mask : Nat) : State :=
  let line := (s.accessWrite CLU_BSLOT c i 0 v mask).get CLU_BSLOT_line c i
  if s.bslotMarks c i v mask && !(s.bslotBad c i v mask) && !(s.mayLend c line (1 - s.get CLU_BSLOT_valid c i)) then s
  else s.bslotTake c i v mask

/-- Do the clusters with valid slots run no skein and owe no store: only then does Aselo return their lines (R197). -/
def State.lentQuiet (s : State) (p : Nat) : Bool :=
  (s.lentNow p).all fun x => (s.cl x.1).eng.slots.isEmpty && (s.cl x.1).core.stores.isEmpty

/-- Mark a lent line valid again, and refill it when its contents stand in the spill area. -/
def State.lentBack (s : State) (x : Nat × Nat × Nat × Bool) : State :=
  let s1 := s.bslotWrite x.1 x.2.1 (x.2.2.1 + 2 ^ 16) (2 ^ 64 - 1)
  if x.2.2.2 && s1.get CLU_BSLOT_valid x.1 x.2.1 == 1 then s1.refillCmd x.1 (BitVec.ofNat 64 (2 + 4 * x.2.1)) else s1

/-! ### SERVE_STEP_START (R470) -/

/-- Start the step: seed and step, the instance's clusters, the cores. -/
def State.stepGo (s : State) (p : Nat) (l : Loop) (i : Inst) : State :=
  let s1 := (s.partClus p).foldl (fun (s : State) c => s.setDither c l.seed 0) (s.bindInst i)
  let s2 := (s1.startCores i).modLoop p fun l => { l with phase := 3, begun := s.tick, starve0 := s1.starveSum p }
  let delay := s.tick - l.started
  if delay = 0 then s2 else s2.event 0x09F1 0xFFFF p (packDetail [(l.step, 8), (delay, 8)])

/-- SERVE_STEP_START: due once no best-effort core runs and no return is under way; valid slots are returned first. -/
def State.stepStart (s0 : State) (p : Nat) : State :=
  let s := s0.beSettle p
  match s.loopOf p with
  | none => s
  | some l => match s.instAt l.inst with
    | none => s
    | some i =>
      if l.phase ≠ 2 ∨ (s.part p).be.isSome = true ∨ s.returning p = true ∨ s.tick < (s.part p).gapEnd then s
      else if s.get PWR_CTL_en 0 = 1 ∧ s.lcHot = true then s.hold p true
      else if (s.lentNow p).isEmpty then ((s.unhold p true).stepAgain p l).stepGo p l i
      else if s.lentQuiet p then s.lentReturn p
      else s

/-! ### BE_RESUME (R468, R475) -/

/-- The next best-effort instance that has work, in load order after the one that ran last. -/
def State.beNext (s : State) (p : Nat) : Option Inst :=
  let all := s.beInsts p
  let last := (s.part p).lastBe
  let k := match all.findIdx? fun i => i.handle == last with | some n => n + 1 | none => 0
  (all.drop k ++ all.take k).find? fun i => !i.done && !i.setup && i.fault == 0

/-- At an instance's first run of an attempt, the clusters of a tuning job take its seed and the count of its committed updates (R137). -/
def State.jobDither (s : State) (p : Nat) : State :=
  match s.sys.jobs.find? fun j => j.part == p && j.ended == 0 with
  | some j => (s.partClus p).foldl (fun (s : State) c => s.setDither c (j.f 72 8) (j.committed % 2 ^ 32)) s
  | none => s

/-- Run it: from its entry points at first, later each core that yielded from its save area with its dither values. (Log 134 DESIGN CHOICE) -/
def State.beGo (s : State) (p : Nat) (i : Inst) : State :=
  let s1 := s.bindInst i
  let s2 := if i.ran then
      i.saved.foldl (fun (s : State) x =>
        ((s.setDither x.1 x.2.1 x.2.2.1).wreg CLU_DRAW_CFG x.1 0 0 x.2.2.2).coreRestore x.1 5) s1
    else (s1.jobDither p).startCores i
  (s2.modPart p fun x => { x with be := some i.handle, yielding := false }).modInst i.handle fun i => { i with ran := true, saved := [] }

/-- BE_RESUME: with no step pending or running; lent lines are marked valid, one refill per cluster at a time, and then the instance
runs. -/
def State.beResume (s0 : State) (p : Nat) : State :=
  let s := s0.beSettle p
  let busy := match s.loopOf p with | some l => l.phase == 2 || l.phase == 3 | none => false
  if busy || (s.part p).be.isSome || s.returning p || decide (s.tick < (s.part p).gapEnd) || !(s.skeinsDone (s.partClus p)) then s
  else match s.beNext p with
    | none => s
    | some i =>
      let s := s.ungate p
      let out := s.lentOut i
      if s.get PWR_CTL_en 0 = 1 ∧ s.beHot = true then s.hold p false
      else if out.isEmpty then
        let s1 := if (s.loopOf p).isNone then s.repair p else s
        if s1.repairing p then s1 else (s1.unhold p false).beGo p i
      else
        let one := out.foldl (fun (a : List (Nat × Nat × Nat × Bool)) x =>
          if x.2.2.2 && a.any (fun y => y.1 == x.1 && y.2.2.2) then a else a ++ [x]) []
        one.foldl (fun (s : State) x => s.lentBack x) s

/-! ### BALE_UNLOAD (R246) -/

/-- The instance that an unload names, for the mailbox that asks. -/
def State.unloadInst (s : State) (b : Nat) (r : List Byte) : Option Inst :=
  (s.instAt (mHandle r)).filter fun i => i.loaded && (b == 0 || i.part == boxOwner b)

/-- Is another load or unload of the partition under way (R242). -/
def State.unloadWaits (s : State) (b : Nat) (r : List Byte) : Bool :=
  match s.unloadInst b r with | some i => s.opBusy i.part b | none => false

/-- BALE_UNLOAD: the steps of R246, each once the one before it allows; the request is kept until the last. (Log 5 DESIGN CHOICE, 69 DESIGN CHOICE, 187 DEDUCED) -/
def State.baleUnload (s0 : State) (b : Nat) (r : List Byte) : State :=
  match s0.unloadInst b r with
  | none => s0.mbxRespond b 0x0135 0 []
  | some i =>
    let s := (s0.beSettle i.part).mbxKeep b
    let stepping := match s.loopOf i.part with | some l => i.cls == 1 && l.phase == 3 | none => false
    if stepping then s
    else if i.cls == 2 && s.instActive i then s.askYield i
    else
      let held := s.heldBy i.handle
      let s1 := s.stopCtx held
      if s1.ctxDrained held = false ∨ s1.othersQuiet i = false then s1
      else
        let s2 := held.foldl (fun (s : State) c => s.reviveEngine c) ((held.foldl (fun (s : State) c => s.dropSkeins c) s1).unprogram i)
        let last := i.cls == 2 && !((s.beInsts i.part).any fun j => j.handle != i.handle)
        let s3 := if i.cls = 1 then s2.loopEnd i.part 0x0924
          else if last then (s2.sys.jobs.filter fun j => j.part == i.part && j.ended == 0).foldl (fun (s : State) j => s.jobEnd j.handle 0x0934) s2
          else s2
        (s3.dropInst i).mbxRespond b 0 0 []

/-! ### Forced removal (R276, Table 10.11) -/

/-- ADAPTER_REMOVE (R276, Table 15.12): a join that arrived before it fails with it (R275). (Log 75 DEDUCED) -/
def State.adapterRemove (s : State) (ch cseq : Nat) (c : Cmd) (b : List Byte) : State :=
  let p := s.chOwner ch
  let slot := c.object % 65536
  let gen := c.object / 65536
  if b.length ≠ 4 ∨ c.hasRefs = true ∨ (slot = 0xFFFF ∧ gen ≠ 0) ∨ (slot ≠ 0xFFFF ∧ leAt b 0 4 ≠ 0) then s.cmdFinal ch cseq 0x0904 0 0
  else
    let named := if slot = 0xFFFF then ((s.recsOf p).filter fun e => e.2.owner == leAt b 0 4 && e.2.state != 2).map Prod.fst
      else match s.adapter p slot gen with | some _ => [slot] | none => []
    if slot ≠ 0xFFFF ∧ named = [] then s.cmdFinal ch cseq 0x0D22 0 0
    else
      let s1 := named.foldl (fun (s : State) k => (s.pinDrop k).modRec k fun r => { r with state := 2 }) (s.cmdTake ch cseq)
      let hit := fun (q : SReq) => !q.leased && q.fail == 0 && named.contains q.slot && s.joinCode p q == 0
      let s2 := s1.modLoop p fun l => { l with queue := l.queue.map fun q => if hit q then { q with fail := 0x0D31 } else q }
      (s2.modSys fun x => { x with removals := x.removals ++ [(ch, cseq, named)] }).loopRedo p

/-! ### The commands -/

/-- CLU_BSLOT_WRITE (R194, R195). -/
def execCluBslotWrite (c : Clu) (slot : Fin 32) (v : Word) (s : State) : Host.Outcome State Fault Refusal :=
  .next (s.bslotWrite c slot v.toNat (2 ^ 64 - 1))

/-- ADAPTER_REMOVE (R276). -/
def execAdapterRemove (ch : HCh) (cseq : Nat) (s : State) : Host.Outcome State Fault Refusal :=
  .next (s.chanServe ch cseq 0x0213 fun s c b => s.adapterRemove ch cseq c b)

/-- STEP_PENDING (R469). -/
def execStepPending (p : Part) (s : State) : Host.Outcome State Fault Refusal := .next (s.stepPending p)

/-- SERVE_STEP_START (R470). -/
def execServeStepStart (p : Part) (s : State) : Host.Outcome State Fault Refusal := .next (s.stepStart p)

/-- BE_QUANTUM_EXPIRY (R468). -/
def execBeQuantumExpiry (p : Part) (s : State) : Host.Outcome State Fault Refusal := .next (s.beQuantum p)

/-- YIELD_LIMIT_EXPIRY (R471). -/
def execYieldLimitExpiry (c : Clu) (s : State) : Host.Outcome State Fault Refusal := .next (s.yieldLimit c)

/-- BE_RESUME (R475). -/
def execBeResume (p : Part) (s : State) : Host.Outcome State Fault Refusal := .next (s.beResume p)

/-- CONTEXT_TEARDOWN (R477). -/
def execContextTeardown (c : Clu) (s : State) : Host.Outcome State Fault Refusal := .next (s.teardown c)

/-- BALE_UNLOAD (R246). -/
def execBaleUnload (b : Mbx) (s : State) : Host.Outcome State Fault Refusal := .next (s.mbxServe2 b 0x0132 fun s r => if s.unloadWaits b r then s else s.baleUnload b r)

end Sys2Proof.Machine
end

