-- ==== Sys2Proof/Machine/Load.lean ====
section
/-!
DEFINITION. Loading a bale (chapter "Bales, worst-case schedules and admission at load time", R228 to R245): the checks of phase 1,
phase 2, its limit, and the reprogramming of stations in a gap.
-/
namespace Sys2Proof.Machine

open Sys2Proof

/-! ### Form of the container (R229, R230, R233 to R237) -/

/-- Largest bale. -/
def baleMax : Nat := 256 * 2 ^ 20

/-- Does the section table keep R230. -/
def secsOk (b : List Byte) : Bool :=
  let ss := bSections b
  let one := fun t => (ss.filter fun x => x.ty == t).length
  (List.range ss.length).all (fun i =>
    let x := bSec b i
    decide (1 ≤ x.ty) && decide (x.ty ≤ 7) && zeros b (128 + 96 * i + 2) 6 && zeros b (128 + 96 * i + 24) 8 && x.len != 0 && x.off % 64 == 0 &&
      decide (1728 ≤ x.off) && decide (x.off + x.len ≤ bTotal b) &&
      (List.range ss.length).all fun j => j == i || !(overlap x.off x.len (bSec b j).off (bSec b j).len)) &&
  zeros b (128 + 96 * ss.length) (96 * (16 - ss.length)) &&
  one 1 == 1 && one 2 == 1 && one 3 == 1 && [4, 5, 6, 7].all fun t => decide (one t ≤ 1)

/-- Check 2 of Table 9.10. -/
def baleHeadOk (b : List Byte) (len : Nat) : Bool :=
  leAt b 0 4 == 0x454C4142 && leAt b 4 2 == 1 && leAt b 6 2 == 1728 && (bCls b == 1 || bCls b == 2) && decide (1 ≤ bCrofts b) &&
  decide (bCrofts b ≤ 16) && decide (1 ≤ bSecs b) && decide (bSecs b ≤ 16) && zeros b 12 4 && zeros b 40 24 && bTotal b == len &&
  b.length == len && secsOk b

/-- A section's digest matches. -/
def secMatches (b : List Byte) (ty : Nat) : Bool := Config.sha512 ((bFind b ty).bytes b) == (bFind b ty).digest

/-- Is a queue entry well formed (Table 9.5). -/
def qOk (m : Nat) (raw : List Byte) (q : QEnt) : Bool :=
  decide (q.clu < 100 * m) && decide (q.q < 64) && decide (1 ≤ q.cls) && decide (q.cls ≤ 3) && decide (1 ≤ q.limit) && decide (q.limit ≤ 64) &&
  decide (q.target ≤ 3) && (if q.target = 1 then decide (q.croft < m) else q.croft == 0) && decide (q.dir ≤ 1) && decide (1 ≤ q.rate) &&
  decide (q.rate ≤ 131072) && decide (17 ≤ q.depth) && decide (q.depth ≤ 4096) && zeros raw 14 2

/-- Is the manifest well formed (Tables 9.4 and 9.5). -/
def manOk (b : List Byte) : Bool :=
  let x := bMan b
  let m := bCrofts b
  leAt x 0 2 == 1 && leAt x 2 1 == bCls b && leAt x 3 1 == m && zeros x 18 2 && zeros x 32 32 && [0, 4, 8, 16, 32, 64].contains (mAdpRank x) &&
  (mAdpRate x == 0 || decide (mAdpQueue x < 64)) && x.length == 64 + 1608 * m + 16 * mQueues x &&
  ((List.range (100 * m)).all fun a => decide (mGrans x a < 2 ^ 120)) &&
  ((List.range m).all fun j => leAt x (64 + 1600 * m + 8 * j + 4) 4 == 0) &&
  ((List.range (mQueues x)).all fun i => qOk m (slice x (64 + 1608 * m + 16 * i) 16) (mQ x i)) &&
  (List.range (mQueues x)).all fun i => (List.range i).all fun j => !((mQ x i).clu == (mQ x j).clu && (mQ x i).q == (mQ x j).q)

/-- The schedule section. -/
def bSched (b : List Byte) : List Byte := (bFind b 2).bytes b

/-- Is the schedule well formed (Table 9.8). -/
def schedOk (b : List Byte) : Bool :=
  let x := bSched b
  let n := leAt x 4 4
  leAt x 0 2 == 1 && zeros x 20 4 && zeros x (24 + 4 * bCrofts b) (4 * (16 - bCrofts b)) && zeros x 88 40 && x.length == 128 + 16 * n &&
  (List.range n).all fun i => zeros x (128 + 16 * i + 4) 4

/-- Do window bytes lie in granules of a mask. -/
def inGrans (mask off n : Nat) : Bool :=
  n == 0 || decide (off + n ≤ 0x780000) && (List.range (cdiv (off % 0x10000 + n) 0x10000)).all fun i => nbit mask (off / 0x10000 + i)

/-- Registers that a setup entry may name, with the kind of their op mask; 6 for those without an index (R236). -/
def setupRegs : List (Reg × Nat) :=
  [(MAT_OPA, 0), (MAT_OPB, 0), (MAT_OVEC_SCALE, 6), (MAT_OVEC_BIAS, 6), (MAT_PWL_CFG, 6), (MAT_PWL_SEG, 6), (MAT_SR, 6), (VEC_OP, 1), (VEC_SR, 6),
   (VEC_SCALAR, 6), (VEC_THRESH, 6), (VEC_THRESH_FRAC, 6), (SUM_OP, 2), (SUM_SR, 6), (CNV_OP, 3), (CNV_SR, 6), (GTH_OP, 4), (ADP_OP, 5), (ADP_CFG, 6),
   (ADP_SR, 6)]

/-- Register, kind and indices that a cluster-block offset names. -/
def setupAt (off : Nat) : Option (Reg × Nat × Nat × Nat) :=
  setupRegs.findSome? fun e => (List.range e.1.n1).findSome? fun i => (List.range e.1.n2).findSome? fun j =>
    if e.1.addr 0 i j = regBase + off then some (e.1, e.2, i, j) else none

/-- Op index of an op register's indices. -/
def opIndex (kind i j : Nat) : Nat := if kind = 0 then j else i

/-- Is one cluster's entry well formed, with the references of its pools (R235, R236). -/
def cluOk (b : List Byte) (a : Nat) : Bool :=
  let e := bClu b a
  let x := bMan b
  let g := mGrans x a
  let pool := fun t => (bPool b t).length
  decide (e.codeLen ≤ 256) && decide (64 * (e.codeOff + e.codeLen) ≤ pool 4 ∨ e.codeLen = 0) && decide (e.pc < 0x4000) && e.pc % 4 == 0 &&
  decide (64 * (e.descOff + e.descN) ≤ pool 5 ∨ e.descN = 0) && decide (64 * (e.descAt + e.descN) ≤ 0x200000 ∨ e.descN = 0) && inGrans g (64 * e.descAt) (64 * e.descN) &&
  decide (16 * (e.setupOff + e.setupN) ≤ pool 6 ∨ e.setupN = 0) && decide (16 * (e.dataOff + e.dataN) ≤ pool 7 ∨ e.dataN = 0) &&
  decide (64 * e.saveAt + 256 ≤ 0x200000) && inGrans g (64 * e.saveAt) 256 &&
  ((List.range e.setupN).all fun i =>
    leAt (bPool b 6) (16 * (e.setupOff + i) + 4) 4 == 0 &&
    (match setupAt (bSetup b e i).1 with
     | some (_, kind, i, j) => kind == 6 || nbit (mOps x kind) (opIndex kind i j)
     | none => false)) &&
  (List.range e.dataN).all fun i => let d := bExtent b e i; inGrans g d.1 d.2.1 && decide (d.2.2 + d.2.1 ≤ pool 7)

/-- Check 7 of Table 9.10. -/
def formOk (b : List Byte) : Bool :=
  manOk b && schedOk b && (bFind b 3).len == 3200 * bCrofts b && (List.range (100 * bCrofts b)).all fun a => cluOk b a

/-! ### Sums of R240 -/

/-- Instances of a partition whose reservations are in effect (R241). -/
def State.heldInsts (s : State) (p : Nat) : List Inst := (s.instsOf p).filter fun i => i.loaded || i.hold == 2

/-- Queue entries of every instance of a partition and of a bale. -/
def State.allQs (s : State) (p : Nat) (b : List Byte) : List QEnt := ((s.heldInsts p).flatMap fun i => mQs (bMan i.bale)) ++ mQs (bMan b)

/-- Sum of a field of the entries that meet a test. -/
def qSum (qs : List QEnt) (g : QEnt → Nat) (f : QEnt → Bool) : Nat := (qs.filter f).foldl (fun a q => a + g q) 0

/-- Sum of the rates of entries. -/
def rateSum (qs : List QEnt) (f : QEnt → Bool) : Nat := qSum qs QEnt.rate f

/-- Slots that a span and class hold over the 24 links (R324). -/
def State.aggSlots (s : State) (span cls : Nat) : Nat :=
  ((List.range 24).map fun l =>
    ((List.range 128).filter fun k =>
      let o := s.slotOwner l k
      decide (o < 64) && s.get LNK_RSV_valid l o == 1 && s.get LNK_RSV_class l o == cls && (cls == 0 || s.get LNK_RSV_span l o == span)).length).foldl
    (· + ·) 0

/-- Bytes per second of one slot (Table 12.5). -/
def slotRate : Nat := 1245000000

/-- Checks 14 to 18. -/
def State.rateChecks (s : State) (p : Nat) (b : List Byte) : List (Bool × Nat) :=
  let m := bCrofts b
  let qs := s.allQs p b
  let cus := (qs.map fun q => (q.clu, q.q / 32)).foldl (fun (a : List (Nat × Nat)) x => if a.contains x then a else x :: a) []
  [ ((List.range m).all fun j =>
       decide (qSum qs QEnt.depth (fun q => q.cls == 1 && q.target == 1 && q.croft == j) + s.pf p 30 2 ≤ leAt (bSched b) (24 + 4 * j) 4),
     0x011D),
    (cus.all fun u =>
       let mine := qs.filter fun q => q.clu == u.1 && q.q / 32 == u.2
       decide (qSum mine QEnt.limit (fun _ => true) ≤ 240) && decide (rateSum mine (fun _ => true) ≤ 131072), 0x0123),
    ([0, 1].all fun d => decide (rateSum qs (fun q => q.target == 2 && q.dir == d) ≤ 55 * 10 ^ 9 * m * 2 / (16 * 3515625)), 0x0124),
    ([1, 2, 3].all fun k =>
       decide (rateSum qs (fun q => q.target == 3 && q.cls == k) * 3515625 ≤ s.aggSlots (s.pf p 4 2) k * slotRate * 2), 0x0125),
    ((List.range m).all fun j => decide (rateSum qs (fun q => q.target == 1 && q.croft == j) ≤ 216706), 0x0126) ]

/-! ### Phase 1 (Table 9.10) -/

/-- The version that a bale's base digest names. -/
def State.baleVer (s : State) (p : Nat) (b : List Byte) : Option Ver :=
  s.sys.vers.find? fun v => v.part == p && v.state == 1 && !v.drained && v.baseDigest == bBase b

/-- Does a bale name no base. -/
def noBase (b : List Byte) : Bool := zeros b 64 64

/-- Check 13: op masks, semaphores and queues apart from every instance's. -/
def State.apart (s : State) (p : Nat) (b : List Byte) : Bool :=
  let x := bMan b
  (s.heldInsts p).all fun i =>
    let y := bMan i.bale
    ((List.range 6).all fun k => mOps x k &&& mOps y k == 0) && mSems x &&& mSems y == 0 &&
    (mQs x).all fun q => !((mQs y).any fun r => r.clu == q.clu && r.q == q.q)

/-- Check 19. -/
def adpCovered (b : List Byte) : Bool :=
  let x := bMan b
  let mine := (mQs x).filter fun q => q.q == mAdpQueue x
  mAdpRate x == 0 || (!mine.isEmpty && mine.all fun q => q.target == 1 && q.dir == 0 && decide (mAdpRate x ≤ q.rate))

/-- Check 21: the pages lie among the croft's bale pages, are present in every channel, and no other instance holds them. -/
def State.pagesOk (s : State) (p : Nat) (b : List Byte) : Bool :=
  (s.partCrofts p).zipIdx.all fun k =>
    let r := mPages (bMan b) k.2
    r.2 == 0 || (decide (r.1 + r.2 ≤ s.balePages p k.2) &&
      ((List.range r.2).all fun i => (List.range 8).all fun ch => s.pageState (croftOff k.1 ((r.1 + i) * 0x200000 + ch * 2048)) == 0) &&
      (s.heldInsts p).all fun o => let q := mPages (bMan o.bale) k.2; !(overlap r.1 r.2 q.1 q.2) || q.2 == 0)

/-- The registered keys that a bale's signer names. -/
def State.signers (s : State) (p : Nat) (b : List Byte) : List BaleKey := (s.keysOf p).filter fun k => k.id == bSigner b

/-- The checks of Table 9.10 in order, and the policies of R502. -/
def State.loadChecks (s : State) (p len : Nat) (b : List Byte) : List (Bool × Nat) :=
  let insts := s.instsOf p
  let bound := if bCls b = 1 then s.pf p 40 8 else s.pf p 48 8
  [ (decide (len ≤ baleMax) && decide (bTotal b ≤ baleMax), 0x0133),
    (baleHeadOk b len, 0x0111), (leAt b 8 1 == 0xA1, 0x0112), ((s.signers p b).length == 1, 0x0113),
    ((s.signers p b).all fun k => Config.edVerify k.key (bDigest b) (slice b 1664 64), 0x0114),
    (secMatches b 1 && secMatches b 2, 0x0115), (formOk b, 0x0116), (bCrofts b == s.partM p, 0x0117),
    ((bCls b != 1 || !(insts.any fun i => i.cls == 1)) && decide (insts.length < 4), 0x0118),
    (leAt (bSched b) 2 2 == 0xA1, 0x0119), (decide (leAt (bSched b) 16 4 < 2 ^ 31) && decide (boundNs b ≤ bound), 0x011A),
    (noBase b || (s.baleVer p b).isSome, 0x011B), (s.apart p b, 0x011C) ] ++ s.rateChecks p b ++
  [ (adpCovered b, 0x0127),
    ((s.aliases p).all fun a => (List.range 120).all fun g => !(nbit (mGrans (bMan b) a) g) || !(s.granFixed p a g), 0x0121),
    (s.pagesOk p b, 0x0122),
    ((s.recsOf p).all fun e => e.2.policy.contains (bDigest b), 0x0B27) ]

/-- Payload of a load's response. -/
def loadPayload (id code : Nat) : List Byte := leBytes 8 id ++ leBytes 2 code ++ List.replicate 6 0

/-- BALE_LOAD, phase 1: the bale as read from the host, or the reason with which its read failed. (Log 64 DEDUCED, 116 DESIGN CHOICE) -/
def State.baleLoad (s : State) (b : Nat) (r bale : List Byte) (fail : Nat) : State :=
  let p := if b = 0 then mPay r 13 1 else boxOwner b
  let slot := mPay r 12 1
  if mHandle r ≠ 0 ∨ 8 ≤ slot ∨ (s.pasidSlot p slot).2 = false ∨ mPay r 14 2 ≠ 0 ∨ (b ≠ 0 ∧ mPay r 13 1 ≠ 0) then s.mbxRespond b 0x0904 0 []
  else if s.partExists p = false then s.mbxRespond b 0x0905 0 []
  else if fail ≠ 0 then s.mbxRespond b (fail % 65536) 0 (loadPayload 0 0)
  else
    let code := firstFail (s.loadChecks p (mPay r 8 4) bale)
    if code ≠ 0 then s.mbxRespond b code 0 (loadPayload (bId bale) 0)
    else
      let h := s.newHandle
      let base := if noBase bale then 0 else match s.baleVer p bale with | some v => v.tag | none => 0
      let i : Inst := { handle := h.2, part := p, cls := bCls bale, baleId := bId bale, digest := bDigest bale, bale := bale, pasid := (s.pasidSlot p slot).1,
                        base := base, box := b, loaded := false, ran := false, done := false, setup := false, hold := 0, fault := 0,
                        swOn := [], saved := [], lent := [] }
      (h.1.modSys fun x => { x with insts := x.insts ++ [i] }).mbxKeep b

/-! ### Phase 2 (R241, R243, Table 9.11) -/

/-- A load fails: what it reserved is cleared and released, and the response carries the reason. (Log 65 DESIGN CHOICE) -/
def State.loadFail (s : State) (i : Inst) (code block : Nat) : State := (s.dropInst i).mbxRespond i.box code 0 (loadPayload i.baleId block)

/-- Undo a load: what it has enabled is disabled in reverse order. (Log 65 DESIGN CHOICE) -/
def State.loadUndo (s : State) (i : Inst) (code block : Nat) : State := (s.unprogram i true).loadFail i code block

/-- The load is complete. -/
def State.loadEnd (s : State) (i : Inst) : State :=
  (s.modInst i.handle fun i => { i with loaded := true, setup := false }).mbxRespond i.box 0 i.handle (loadPayload i.baleId 0)

/-- Granules that an instance names, in any cluster. -/
def State.named (s : State) (i : Inst) : List Nat :=
  (List.range 120).filter fun g => (s.aliases i.part).any fun a => nbit (mGrans (bMan i.bale) a) g

/-- Slots of the cached copies in the granules that an instance names. -/
def State.occupants (s : State) (i : Inst) : List Nat :=
  ((s.named i).filterMap fun g => s.granCopy i.part g).foldl (fun (a : List Nat) x => if a.contains x then a else a ++ [x]) []

/-- Is every granule that an instance names its own: no copy, and no earlier place of one, stands in it. -/
def State.allHeld (s : State) (i : Inst) : Bool := (s.occupants i).isEmpty && (s.named i).all fun g => !(s.granOld i.part g)

/-- Order 1 in a cluster: descriptors and data extents. -/
def State.loadMem (s : State) (i : Inst) (a : Nat) : State :=
  let c := s.aliasClu i.part a
  let e := i.entry a
  let s2 := s.aseloWrite (c * 0x800000 + 64 * e.descAt) (slice (bPool i.bale 5) (64 * e.descOff) (64 * e.descN))
  (List.range e.dataN).foldl (fun (s : State) k =>
    let d := bExtent i.bale e k
    s.aseloWrite (c * 0x800000 + d.1) (slice (bPool i.bale 7) d.2.2 d.2.1)) s2

/-- Note a block that a load has switched on: an STR unit, or 2 for the skein engine. -/
def State.noteOn (s : State) (i : Inst) (c u : Nat) : State := s.modInst i.handle fun i => { i with swOn := i.swOn ++ [(c, u)] }

/-- Order 3: the unit, if it is not enabled yet, and one queue of the manifest. -/
def State.loadQueue (s : State) (i : Inst) (q : QEnt) : State × Nat :=
  let c := s.aliasClu i.part q.clu
  let u := q.q / 32
  let n := q.q % 32
  let s1 := if s.get STR_CTL_en c u = 1 then s
    else (s.enable STR_CTL_en STR_CTL_reason c u 0 (BitVec.ofNat 64 (nput (s.rreg STR_CTL c u) 0 1 1)) (strCtlChecks c u)).noteOn i c u
  if s1.get STR_CTL_en c u = 0 then (s1, s1.get STR_CTL_reason c u)
  else
    let s2 := (((s1.put STR_QCFG_class c q.cls u n).put STR_QCFG_limit c q.limit u n).put STR_QCFG_depth c q.depth u n).put STR_QRATE_rate c q.rate u n
    let s3 := s2.strQEnable c u n (BitVec.ofNat 64 (s2.rreg STR_QCFG c u n ||| (2 ^ STR_QCFG_en.lo)))
    if s3.get STR_QCFG_en c u n = 0 then (s3, s3.get STR_QCFG_reason c u n) else (s3, 0)

/-- Order 4 in a cluster: the setup entries, in list order. -/
def State.loadSetup (s : State) (i : Inst) (a : Nat) : State :=
  let c := s.aliasClu i.part a
  let e := i.entry a
  (List.range e.setupN).foldl (fun (s : State) k =>
    let x := bSetup i.bale e k
    match setupAt x.1 with
    | some (r, _, n, m) => s.plain r c n m (BitVec.ofNat 64 x.2)
    | none => s) s

/-- Stations of order 5: every one, but ADP only for a bale that has ADP ops, since its check asks for a fetch queue. (Log 184 DEDUCED) -/
def Inst.stations (i : Inst) : List Nat := List.range 16 ++ [0x10, 0x11, 0x12, 0x13] ++ if mOps (bMan i.bale) 5 = 0 then [] else [0x14]

/-- Order 6: the skein engine, if it is not enabled yet. -/
def State.loadEngine (s : State) (i : Inst) (c : Nat) : State × Nat :=
  if s.get CTL_SK_CTL_en c = 1 then (s, 0)
  else
    let v := BitVec.ofNat 64 (s.rreg CTL_SK_CTL c ||| 1)
    let s1 := s.enable CTL_SK_CTL_en CTL_SK_CTL_reason c 0 0 v (skEnChecks c)
    if s1.get CTL_SK_CTL_en c = 1 then ((s1.modEng c fun e => { e with launch := [], stopped := false, starve := 0 }).noteOn i c 2, 0)
    else (s1, s1.get CTL_SK_CTL_reason c)

/-- Orders 1 to 3 of Table 9.11 in a cluster. The program of a bale that is loaded beside others enters the core when Aselo first switches
to it. -/
def State.loadFirst (s : State) (i : Inst) (a : Nat) : State × Nat :=
  let s1 := s.loadMem i a
  let s2 := if (s.others i).isEmpty then s1.bindClu i a else s1
  untilRefused (fun (s : State) q => s.loadQueue i q) ((mQs (bMan i.bale)).filter fun q => q.clu == a) s2

/-- Orders 4 to 6 of Table 9.11 in a cluster. -/
def State.loadLast (s : State) (i : Inst) (a : Nat) : State × Nat :=
  let c := s.aliasClu i.part a
  let q := untilRefused (fun (s : State) k => s.stnOn c k) i.stations (s.loadSetup i a)
  if q.2 ≠ 0 then q else q.1.loadEngine i c

/-- Every order in a cluster, or the first three beside other instances. -/
def State.loadClu (s : State) (i : Inst) (a : Nat) : State × Nat :=
  let q := s.loadFirst i a
  if q.2 ≠ 0 ∨ (s.others i).isEmpty = false then q else q.1.loadLast i a

/-- BALE_LOAD_PHASE2: the occupants of the named granules are evicted or drain; once all are held the reservation is in effect, the
granules are cleared, and the load goes through Table 9.11. (Log 5 DESIGN CHOICE) -/
def State.loadPhase2 (s : State) (h : Nat) : State :=
  match s.instAt h with
  | none => s
  | some i =>
    if i.loaded ∨ i.setup = true then s
    else
      let s1 := (s.occupants i).foldl (fun (s : State) k => s.drainCopy k) (s.modInst h fun i => { i with hold := 1 })
      if s1.allHeld i = false then s1
      else
        let s2 := (s1.aliases i.part).foldl (fun (s : State) a => s.wipeMask (s.aliasClu i.part a) (mGrans (bMan i.bale) a))
          (s1.modInst h fun i => { i with hold := 2 })
        let now := fun (t : State) => (t.instAt h).getD i
        if ((bSections i.bale).all fun x => secMatches i.bale x.ty) = false then s2.loadUndo (now s2) 0x0115 0
        else
          let q := untilRefused (fun (s : State) a => s.loadClu i a) (s2.aliases i.part) s2
          if q.2 ≠ 0 then q.1.loadUndo (now q.1) 0x0131 q.2
          else if (s.others i).isEmpty then q.1.loadEnd i
          else q.1.modInst h fun i => { i with setup := true }

/-- BALE_LOAD_TIMEOUT (R242, R511). (Log 65 DESIGN CHOICE) -/
def State.loadTimeout (s : State) (h : Nat) : State :=
  match s.instAt h with
  | none => s
  | some i => if i.loaded then s else (s.event 0x0134 0xFFFF i.part 0).loadUndo i 0x0134 0

/-! ### INSTANCE_REPROGRAM (R245) -/

/-- Is the partition in a gap: no step runs and no best-effort core runs. -/
def State.inGap (s : State) (p : Nat) : Bool :=
  !(match s.loopOf p with | some l => l.phase == 3 | none => false) && !((s.instsOf p).any fun i => s.instActive i) &&
  (s.partClus p).all fun c => (s.cl c).eng.slots.all Skein.done

/-- INSTANCE_REPROGRAM: in a gap, orders 4 to 6 for an instance loaded beside others, with every station disabled; then the stations of
the others are enabled again and held buffers are back. How long it takes is a free value: the next step or kernel waits for it. (Log 66 DESIGN CHOICE) -/
def State.reprogram (s : State) (h : Nat) : State :=
  match s.instAt h with
  | none => s
  | some i =>
    if i.setup = false ∨ s.inGap i.part = false then s
    else
      let cs := s.partClus i.part
      let d := Config.free 245 s.opens h 0
      let q := untilRefused (fun (s : State) a => s.loadLast i a) (s.aliases i.part) (s.clusOff cs)
      let s1 := if q.2 = 0 then q.1 else q.1.unprogram ((q.1.instAt h).getD i) true
      let s2 : State := { s1.clusOn s cs h with opens := s.opens + 1 }
      let s3 := (s2.modPart i.part fun x => { x with gapEnd := s.tick + d }).event 0x09F2 0xFFFF i.part (packDetail [(d, 8)])
      if q.2 ≠ 0 then s3.loadFail ((q.1.instAt h).getD i) 0x0131 q.2 else s3.loadEnd i

/-! ### The commands -/

/-- BALE_LOAD (R239). -/
def execBaleLoad (b : Mbx) (bale : List Byte) (fail : Nat) (s : State) : Host.Outcome State Fault Refusal :=
  .next (s.mbxServe b 0x0131 fun s r =>
    if s.opBusy (if b.val = 0 then mPay r 13 1 else boxOwner b) b then s else s.baleLoad b r bale fail)

/-- BALE_LOAD_PHASE2 (R241). -/
def execBaleLoadPhase2 (h : Nat) (s : State) : Host.Outcome State Fault Refusal := .next (s.loadPhase2 h)

/-- BALE_LOAD_TIMEOUT (R242). -/
def execBaleLoadTimeout (h : Nat) (s : State) : Host.Outcome State Fault Refusal := .next (s.loadTimeout h)

/-- INSTANCE_REPROGRAM (R245). -/
def execInstanceReprogram (h : Nat) (s : State) : Host.Outcome State Fault Refusal := .next (s.reprogram h)

end Sys2Proof.Machine
end

