-- ==== Sys2Proof/Machine/Base.lean ====
section
/-!
DEFINITION. Base versions (chapter "Rank-ordered reduction, parameter return and weight distribution", R377 to R382, and R277, R279):
the shard image, the fill of the hot set, and its verification.
-/
namespace Sys2Proof.Machine

open Sys2Proof

/-! ### The shard image (Table 13.7) -/

/-- Header fields. -/
def iShard (b : List Byte) : Nat := leAt b 6 2
def iShards (b : List Byte) : Nat := leAt b 8 2
def iG (b : List Byte) : Nat := leAt b 11 1
/-- Where the tile data begins, and its bytes for m crofts. -/
def iData (b : List Byte) : Nat := 4096 * cdiv (4096 + 64 * iShards b) 4096
def tileBytes (m g : Nat) : Nat := 100 * m * g * 0x10000
/-- The digest list. -/
def iList (b : List Byte) : List Byte := slice b 4096 (64 * iShards b)

/-- Is the header valid for a partition of m crofts; a source holds the tile data too. -/
def imageOk (b : List Byte) (m : Nat) (source : Bool) : Bool :=
  leAt b 0 4 == 0x53484442 && leAt b 4 2 == 1 && decide (1 ≤ iShards b) && decide (iShards b ≤ 4096) && decide (iShard b < iShards b) &&
  leAt b 10 1 == m && decide (1 ≤ iG b) && decide (iG b ≤ 120) && zeros b 20 44 && zeros b 192 3904 &&
  decide (4096 + 64 * iShards b ≤ b.length) && (!source || b.length == iData b + tileBytes m (iG b))

/-- Does the digest list match the header (R381). -/
def listMatches (b : List Byte) : Bool :=
  Config.sha512 (iList b) == slice b 128 64 && slice b (4096 + 64 * iShard b) 64 == slice b 64 64

/-! ### BASE_LOAD (R277, R379, Table 15.18) -/

/-- Does a BASE_LOAD payload keep Table 15.18. -/
def baseOk (mgr : Bool) (c : Cmd) (b : List Byte) : Bool :=
  c.object == 0 && !c.hasRefs && b.length == 32 && (leAt b 4 1 == 1 || leAt b 4 1 == 2) && decide (leAt b 5 1 < 8) && zeros b 21 11 &&
  (leAt b 2 2 != 0 || leAt b 16 4 == 0) && (mgr || leAt b 20 1 == 0)

/-- Versions of a partition that fill or are served. -/
def State.liveVers (s : State) (p : Nat) : List Ver := s.sys.vers.filter fun v => v.part == p && decide (v.state ≤ 1)

/-- Why a load is refused before anything of it is read. (Log 125 DEDUCED) -/
def State.baseCode (s : State) (p : Nat) (b : List Byte) : Nat :=
  let tag := leAt b 0 2
  let g := leAt b 6 2
  let u := 12 * (s.croft0 p / 8)
  firstFail
    [(s.get LNK_GROUP_valid u g == 0 || s.get LNK_GROUP_span u g == s.pf p 4 2, 0x0145),
     (decide ((s.liveVers p).length < 2), 0x0D34),
     (tag != 0 && (s.verAt p tag).isNone, 0x0D35)]

/-- Does a version's layout equal that of the version it succeeds; a first version succeeds none (R277). -/
def State.layoutOk (s : State) (p : Nat) (b image : List Byte) : Bool :=
  match (s.liveVers p) with
  | [] => leAt b 2 2 == 0
  | v :: _ => v.tag == leAt b 2 2 && v.state == 1 && v.g == iG image && v.shard == iShard image && v.shards == iShards image &&
      v.h == leAt image 12 4 && v.c == leAt image 16 4

/-- The blocks of a shard's tile data with their landing offsets (R378). -/
def State.baseBlocks (s : State) (p gran g : Nat) (data : List Byte) : List (Nat × List Byte × Bool) :=
  (List.range (data.length / 64)).map fun k => (s.baseOff p gran g k, slice data (64 * k) 64, false)

/-- Start a source's stream (R379): to the group of the shard set, or to the own memory alone when the set is this module. -/
def State.baseStream (s : State) (v : Ver) : State :=
  let d := s.croft0 v.part / 8
  let blocks := s.baseBlocks v.part v.gran v.g v.data
  if s.groupRecv d v.group ≤ 1 then blocks.foldl (fun (s : State) b => s.aseloWrite b.1 b.2.1) s
  else
    let tag := s.freshTag d
    let r : McRoot :=
      { id := tag, ttag := tag, group := v.group, cls := 3, span := s.pf v.part 4 2, gen := s.get PRT_PART_CTL_gen 0 v.part, part := v.part,
        origin := none, chan := 128, job := 0, w4 := v.gran + v.g * 2 ^ 8, w5 := 0, ready := blocks, sent := 0, final := some blocks.length,
        marks := [], acks := [(s.moduleId, 0)], pruned := [], landed := 0, ended := false, code := 0 }
    s.modLok d fun x => { x with nextTtag := (tag + 1) % 65536, roots := x.roots ++ [r] }

/-- BASE_LOAD: `image` as read from the host (a receiver reads the header and the list); `fail` says that a read failed. (Log 116 DESIGN CHOICE) -/
def State.baseLoad (s : State) (ch cseq : Nat) (c : Cmd) (b image : List Byte) (fail : Bool) : State :=
  let own := s.chOwner ch
  let p := if own = manager then leAt b 20 1 else own
  let source := leAt b 4 1 == 1
  let m := s.partM p
  if baseOk (own == manager) c b = false then s.cmdFinal ch cseq 0x0904 0 0
  else if s.opBusy p 18 then s
  else if s.partExists p = false then s.cmdFinal ch cseq 0x0905 0 0
  else if (s.pasidSlot p (leAt b 5 1)).2 = false then s.cmdFinal ch cseq 0x0904 0 0
  else if s.baseCode p b ≠ 0 then s.cmdFinal ch cseq (s.baseCode p b) 0 0
  else if fail then s.cmdFinal ch cseq 0x0142 0 0
  else if imageOk image m source = false then s.cmdFinal ch cseq 0x0141 0 0
  else if s.layoutOk p b image = false then s.cmdFinal ch cseq 0x0D33 0 0
  else match s.claimRun p 0 (iG image) with
    | none => s.cmdFinal ch cseq 0x0532 0 0
    | some (s1, gran) =>
      let v : Ver := { part := p, tag := leAt b 0 2, gran := gran, g := iG image, h := leAt image 12 4, c := leAt image 16 4, shard := iShard image,
                       shards := iShards image, baseDigest := slice image 128 64, shardDigest := slice image 64 64, listOk := listMatches image, state := 0,
                       succeeds := leAt b 2 2, group := leAt b 6 2, source := source, ch := ch, cseq := cseq,
                       data := if source then slice image (iData image) (tileBytes m (iG image)) else [], drained := false, due := false, seen := 0,
                       olds := [0, 1].flatMap fun d => ((s.lokD d).recvs.filter fun r => r.group == leAt b 6 2).map fun r => (r.root, r.id) }
      let s2 := (s1.cmdTake ch cseq).modSys fun x =>
        { x with vers := (x.vers.map fun o => if o.part == p && o.tag == v.succeeds then { o with drained := true } else o) ++ [v] }
      if source then s2.baseStream v else s2

/-! ### BASE_FILL_VERIFY (R381) -/

/-- Does a word of a version's hot set stand poisoned, as a block that arrived poisoned does (R181). (Log 197 DEDUCED) -/
def State.basePoison (s : State) (v : Ver) : Bool :=
  (s.aliases v.part).any fun a => s.rdPoison (s.aliasClu v.part a * 0x800000 + v.gran * 0x10000) (v.g * 0x10000)

/-- The tile data as it stands in the partition's memory: what the I/O die hashed block by block as they landed. -/
def State.baseMem (s : State) (v : Ver) : List Byte :=
  (s.aliases v.part).flatMap fun a => s.rdMem (s.aliasClu v.part a * 0x800000 + v.gran * 0x10000) (v.g * 0x10000)

/-- Is the stream of a fill still under way at this module: a receiver's is until every block has landed, its pull is complete, or its
source is lost. -/
def State.filling (s : State) (v : Ver) : Bool :=
  let n := tileBytes (s.partM v.part) v.g / 64
  if v.source then [0, 1].any fun d => (s.lokD d).roots.any fun r => r.chan == 128 && r.part == v.part && r.group == v.group
  else v.seen == 0 && !(([0, 1] : List Nat).any fun d => (s.lokD d).recvs.any fun r =>
    r.group == v.group && r.cls == 3 && !(v.olds.contains (r.root, r.id)) && decide (n ≤ r.landed))

/-- A fill ends with a reason: its granules are free, and the version it was to succeed keeps no deadline. (Log 125 DEDUCED) -/
def State.fillEnd (s : State) (v : Ver) (code : Nat) : State :=
  (s.modSys fun x =>
    { x with vers := (x.vers.filter fun o => !(o.part == v.part && o.tag == v.tag)).map fun o =>
               if o.part == v.part && o.tag == v.succeeds then { o with drained := false } else o }).cmdFinal v.ch v.cseq code 0 0

/-- BASE_FILL_VERIFY: the version becomes resident when the list and the computed digest match, or its fill ends. (Log 197 DEDUCED) -/
def State.baseVerify (s : State) (p tag : Nat) : State :=
  match s.verAt p tag with
  | none => s
  | some v =>
    if v.state ≠ 0 ∨ s.filling v = true then s
    else
      let mem := s.baseMem v
      let sum := Config.sha512 (if v.source then v.data else mem)
      if v.listOk = false then s.fillEnd v 0x0143
      else if v.seen = 2 then s.fillEnd v 0x0146
      else if sum ≠ v.shardDigest ∨ (v.source = false ∧ s.basePoison v = true) then s.fillEnd v 0x0144
      else if v.source = true ∧ mem ≠ v.data then s.fillEnd v 0x0146
      else
        let s1 := (s.partClus p).foldl (fun (s : State) c => s.stampGrans c v.gran v.g) s
        let s2 := s1.modVer p tag fun v => { v with state := 1, data := [] }
        (s2.cmdFinal v.ch v.cseq 0 v.tag 0).loopKick p

/-! ### The commands -/

/-- BASE_LOAD (R379). -/
def execBaseLoad (ch : HCh) (cseq : Nat) (image : List Byte) (fail : Bool) (s : State) : Host.Outcome State Fault Refusal :=
  .next (s.chanServe ch cseq 0x0221 fun s c b => s.baseLoad ch cseq c b image fail)

/-- BASE_FILL_VERIFY (R381). -/
def execBaseFillVerify (p : Part) (tag : Nat) (s : State) : Host.Outcome State Fault Refusal := .next (s.baseVerify p tag)

end Sys2Proof.Machine
end

