-- ==== Sys2Proof/Machine/Parts.lean ====
section
/-!
DEFINITION. Partitions (chapter "Crofts, partitions and priority classes", R451 to R466, and R491, R492, R504): creation, reset,
removal, queries, dirty-page logging, and the keys of their HBM3.
-/
namespace Sys2Proof.Machine

open Sys2Proof

/-! ### Keys of HBM3 (R491, R492) -/

/-- What stands in a croft's HBM3 becomes unreadable: its bytes read as free values from now on, its symbol codes stay. (Log 19 DESIGN CHOICE) -/
def State.forget (s : State) (k : Nat) : State :=
  let out := fun a => decide (a < croftOff k 0) || decide (croftOff (k + 1) 0 ≤ a)
  { s with mem := s.mem.filter fun p => out p.1 }

/-- Install a key of an epoch in a croft's channels, or remove it (epoch 0); the change drains until HBM_KEY_DRAINED. -/
def State.keyPut (s : State) (k epoch : Nat) : State :=
  let s1 := { s.forget k with epochs := tset 0 s.epochs k epoch }
  s1.wreg SEC_HBMKEY 0 k 0 (epoch % 2 ^ 32 + b2n (epoch != 0) * 2 ^ 32 + 2 ^ 33)

/-- A fresh key for crofts: a draw of the generator and the next epoch. -/
def State.keyFresh (s : State) (ks : List Nat) : State :=
  let e := s.rot.epoch + 1
  ks.foldl (fun (s : State) k => s.keyPut k e) { s with rot := { s.rot with epoch := e, draws := s.rot.draws + 1 } }

/-- HBM_KEY_DRAINED: every request accepted under the old key has completed. -/
def State.keyDrained (s : State) (k : Nat) : State :=
  if s.get SEC_HBMKEY_busy 0 k = 1 then (s.put SEC_HBMKEY_busy 0 0 k).put SEC_HBMKEY_done 0 1 k else s

/-! ### Creation (R452 to R457) -/

/-- Next generation of a partition number (R455). (Log 133 DEDUCED) -/
def nextGen (g : Nat) : Nat := g % 255 + 1

/-- PASIDs of a payload. -/
def pPasids (y : List Byte) : List Nat := (List.range (leAt y 1 1)).map fun i => leAt y (64 + 4 * i) 4

/-- Does a PART_CREATE payload keep Table 16.2; three of its ranges are check 7. -/
def partPayOk (y : List Byte) : Bool :=
  let n := leAt y 1 1
  y.length == 128 && decide (leAt y 0 1 < 16) && decide (1 ≤ n) && decide (n ≤ 8) && zeros y 7 1 && zeros y 14 2 && zeros y 36 4 && zeros y 96 32 &&
  decide (1 ≤ leAt y 8 2) && decide (leAt y 8 2 ≤ 4096) && decide (leAt y 10 2 ≤ 2048) && decide (leAt y 12 2 ≤ 1024) && decide (1 ≤ leAt y 24 4) &&
  decide (leAt y 24 4 ≤ 131072) && decide (17 ≤ leAt y 28 2) && decide (leAt y 28 2 ≤ 4095) && decide (leAt y 30 2 ≤ 4095) &&
  decide (leAt y 32 4 ≤ 131072) && (List.range 8).all fun i => decide (leAt y (64 + 4 * i) 4 < 2 ^ 20) && (decide (i < n) || leAt y (64 + 4 * i) 4 == 0)

/-- Partitions that exist. -/
def State.parts (s : State) : List Nat := (List.range 16).filter s.partExists

/-- Sum of a payload field over the partitions. -/
def State.quotaSum (s : State) (off n : Nat) : Nat := (s.parts.map fun p => s.pf p off n).foldl (fun a b => a + b) 0

/-- Is a PASID free: bound to no partition and to no open channel of the manager (R458). -/
def State.pasidFree (s : State) (x : Nat) : Bool :=
  !(s.pasidTaken x) && !((s.openChans manager).any fun ch => s.get CHN_CTL_pasid ch == x)

/-- Does the layout of Table 16.5 leave every croft a bale page. -/
def layoutFits (y : List Byte) : Bool :=
  let lent := cdiv (25 * leAt y 6 1) 32
  decide (leAt y 8 2 + lent + cdiv (leAt y 12 2) 16 + leAt y 10 2 < 6144)

/-- Host share of m crofts (R240, check 16). -/
def hostShare (m : Nat) : Nat := 55 * 10 ^ 9 * m * 2 / (16 * 3515625)

/-- Checks of Table 16.3. -/
def State.partChecks (s : State) (y : List Byte) : List (Bool × Nat) :=
  let cs := leAt y 2 2
  let span := leAt y 4 2
  let xs := pPasids y
  [ (!(s.partExists (leAt y 0 1)), 0x0A01),
    (cs != 0 && (List.range 16).all fun k => !(nbit cs k) || s.get PRT_CROFT_assigned 0 k == 0, 0x0A02),
    (span == 0 || s.parts.all fun q => s.pf q 4 2 != span, 0x0A03),
    (xs.all (fun x => x != 0 && s.pasidFree x) && nodupB xs, 0x0A04),
    (layoutFits y, 0x0A05),
    (decide (s.quotaSum 16 4 + leAt y 16 4 ≤ 65536) && decide (s.quotaSum 20 4 + leAt y 20 4 ≤ 65536), 0x0A06),
    (decide (leAt y 6 1 ≤ 32) && decide (leAt y 56 4 ≤ 1000000) && decide (100 ≤ leAt y 60 4) && decide (leAt y 60 4 ≤ 1000000) &&
      leAt y 40 8 != 0 && leAt y 48 8 != 0, 0x0A07),
    (decide (leAt y 24 4 ≤ hostShare (popcount 16 cs)), 0x0A08),
    ((leAt y 32 4 == 0) == (leAt y 30 2 == 0), 0x0A09) ]

/-- Buffers that the manager may hold: what the partitions' quotas leave (R408). (Log 115 DESIGN CHOICE) -/
def State.managerQuota (s : State) : State := s.put PCI_CHRATE_quota 0 (65536 - s.quotaSum 20 4) manager

/-- Order 1 of Table 16.4. -/
def State.partRegs (s : State) (p gen : Nat) (y : List Byte) : State :=
  let xs := pPasids y
  let slot := fun i => if i < xs.length then lget 0 xs i + 2 ^ 20 else 0
  let s1 := s.modSys fun x => { x with gens := tset 0 x.gens p gen, parts := tset PartInfo.init x.parts p { PartInfo.init with payload := y } }
  let s2 := s1.wreg PRT_PART_CTL 0 p 0 (1 + gen * 2 ^ 8 + leAt y 2 2 * 2 ^ 16 + s.get PRT_PART_CTL_reason 0 p * 2 ^ 32)
  (List.range 4).foldl (fun (s : State) j => s.wreg PRT_PART_PASID 0 p j (slot (2 * j) + slot (2 * j + 1) * 2 ^ 32)) s2

/-- Order 2. -/
def State.partCroftRegs (s : State) (p gen : Nat) : State :=
  (s.partCrofts p).foldl (fun (s : State) k => s.wreg PRT_CROFT 0 k 0 (1 + p * 2 + gen * 2 ^ 8 + s.pf p 4 2 * 2 ^ 16)) s

/-- Set every page of a partition present (0) or absent (1) (order 4). -/
def State.partPages (s : State) (p v : Nat) : State :=
  (s.partChans p).foldl (fun (s : State) ch => (List.range 192).foldl (fun (s : State) i => s.wreg HBM_PSTATE ch i 0 (v * 0x5555555555555555)) s) s

/-- Order 5. -/
def State.partRates (s : State) (p : Nat) : State :=
  let s1 := (s.partCrofts p).foldl (fun (s : State) k =>
    (s.put LNK_INRSV_rate (12 * (k / 8)) (s.pf p 32 4) (k % 8)).put LNK_INRSV_depth (12 * (k / 8)) (s.pf p 30 2) (k % 8)) s
  ((((s1.modPcie fun x => { x with tok := tset 0 x.tok p 0 }).put PCI_CHRATE_rate 0 (s.pf p 24 4) p).put PCI_CHRATE_depth 0 (s.pf p 28 2) p).put PCI_CHRATE_quota 0 (s.pf p 20 4) p).managerQuota

/-- Value of CLU_ALIAS_MAP for a list of crofts. -/
def aliasMap : List Nat → Nat
  | [] => 0
  | k :: t => k + 16 * aliasMap t

/-- Order 6 in a cluster; the code of a refused enable, 0 for none. -/
def State.partClu (s : State) (p gen : Nat) (c : Nat) : State × Nat :=
  let ks := s.partCrofts p
  let j := ks.idxOf (cluCroft c)
  let s1 := ((s.wreg CLU_ALIAS_MAP c 0 0 (aliasMap ks)).wreg CLU_SPAN c 0 0 (s.pf p 4 2)).wreg CLU_PART c 0 0 (p + gen * 2 ^ 8)
  let s2 := s1.aliasEnable c (BitVec.ofNat 64 (1 + ks.length * 2 ^ 4))
  if s2.get CLU_ALIAS_CTL_en c = 0 then (s2, s2.get CLU_ALIAS_CTL_reason c)
  else
    let n := s.pf p 6 1
    let base := croftOff (cluCroft c) (s.serviceBase p j * 2 ^ 21 + cluLocal c * n * 2 ^ 14)
    let s3 := (s2.wreg CLU_SPILL_BASE c 0 0 base).put CLU_BORROW_CFG_ret_lines c n
    if n = 0 then (s3, 0)
    else
      let s4 := s3.enable CLU_BORROW_CFG_en CLU_BORROW_CFG_reason c 0 0 (BitVec.ofNat 64 (1 + n * 2)) (borrowChecks c)
      if s4.get CLU_BORROW_CFG_en c = 1 then (s4, 0) else (s4, s4.get CLU_BORROW_CFG_reason c)

/-- Orders 4 to 7. (Log 127 DEDUCED) -/
def State.partSetup (s : State) (p gen : Nat) : State × Nat :=
  let s1 := (s.partPages p 0).partRates p
  let q := untilRefused (fun (s : State) c => s.partClu p gen c) (s1.partClus p) s1
  if q.2 ≠ 0 then q else (q.1.put PRT_PART_CTL_state 0 2 p, 0)

/-! ### Reset and removal (R461, R504, Tables 16.7 and 17.13) -/

/-- Order 2: the partition's channels are closed; a close that was under way is answered with 0x0828 (Table 19.7). -/
def State.partChansKill (s : State) (p : Nat) : State :=
  let chs := s.openChans p
  let s1 := s.modSys fun x => { x with removals := x.removals.filter fun r => !(chs.contains r.1), repairs := x.repairs.filter fun r => r.part != p }
  chs.foldl (fun (s : State) ch =>
    match (s.hch ch).closing with
    | some b => (s.chanKill ch).mbxRespond b 0x0828 0 []
    | none => s.chanKill ch) s1

/-- Order 3: every context ends with 0x0A42, a load in progress with 0x0132; its loop and its jobs end. -/
def State.partCtxEnd (s : State) (p : Nat) : State :=
  let s1 := (s.partClus p).foldl (fun (s : State) c => s.dropSkeins c) (s.stopCtx (s.partClus p))
  let s2 := (s1.instsOf p).foldl (fun (s : State) i => if i.loaded then s.ctxEnd i 0x0A42 0x0A42 else s.loadUndo i 0x0132 0) s1
  let s3 := (s2.sys.jobs.filter fun j => j.part == p && j.ended == 0).foldl (fun (s : State) j => s.jobEnd j.handle 0x0A42) (s2.loopEnd p 0x0A42)
  (s3.sys.vers.filter fun v => v.part == p && v.state == 0).foldl (fun (s : State) v => s.cmdFinal v.ch v.cseq 0x0A42 0 0) s3

/-- What a cluster still has outstanding is forgotten: its answers are dropped and counted as stale (Table 16.6). -/
def State.cluForget (s : State) (c : Nat) : State :=
  let mine := fun (r : Who × Reply) => whoClu r.1 == some c
  let cut := fun (s : State) q => s.modQ c q fun x => { x with bound := none, xfers := [], halted := false, retrying := false, prs := false }
  let s1 := ((s.dropSkeins c).reviveEngine c).bump PRT_STALE_discarded 0 (cluCroft c) 0 (s.replies.filter mine).length
  let deaf := fun (s : State) d =>
    if (s.lokD d).heard.isEmpty then s else s.modLok d fun x => { x with heard := x.heard.filter fun p => whoClu p.1 != some c }
  let s2 := (List.range 64).foldl cut (deaf (deaf { s1 with replies := s1.replies.filter fun r => !(mine r) } 0) 1)
  (s2.modCl c fun x =>
    { x with core := { x.core with loads := [], stores := [], wait := .none, copying := false }, adpPend := [], adpBuf := [], adp := [], ret := none,
             inst := none, pasid := none, faulted := 0, cls := 3 }).put CLU_RETURN_busy c 0

/-- Order 4: the skein engine is disabled before the alias translation that it requires (R248). (Log 129 DEDUCED) -/
def State.cluCut (s : State) (c : Nat) : State :=
  ((((s.cluForget c).modEng c fun e => { e with stopped := false, disabling := false }).put CTL_SK_CTL_en c 0).put CLU_ALIAS_CTL_en c 0).put
    CLU_BORROW_CFG_en c 0

/-- The stream entries of a span go with the generation that used them (R343): the target's own streams are lost, its landing buffers are
performed no further (Table 17.14), and the next generation opens its streams anew. (Log 159 DEDUCED) -/
def State.streamsDrop (s : State) (span : Nat) : State :=
  if span = 0 then s
  else [0, 1].foldl (fun (s : State) d =>
    s.modLok d fun x =>
      { x with src := x.src.filter fun e => e.span != span, tgt := x.tgt.filter fun e => e.span != span,
               recvs := x.recvs.filter fun v => v.span != span }) s

/-- Order 5: the generation rises in PRT_PART, in every PRT_CROFT and in every CLU_PART. -/
def State.partGenUp (s : State) (p : Nat) : State × Nat :=
  let g := nextGen (tget 0 s.sys.gens p)
  let s1 := (s.modSys fun x => { x with gens := tset 0 x.gens p g }).put PRT_PART_CTL_gen 0 g p
  let s2 := (s1.partCrofts p).foldl (fun (s : State) k => s.put PRT_CROFT_gen 0 g k) s1
  (((s2.partClus p).foldl (fun (s : State) c => s.put CLU_PART_gen c g) s2).streamsDrop (s.pf p 4 2), g)

/-- CLU_CLEAR of granules 0 to 119 of a cluster, with its end (step 2 of Table 17.13). -/
def State.cluWipe (s : State) (c : Nat) : State :=
  ((s.wipe (c * 0x800000) 0x780000).modCl c fun x => { x with clr := none, lateWr := [], writeback := [] }).wreg CLU_CLEAR c 0 0 (120 * 2 ^ 8 + 2 ^ 17)

/-- Directory records, contracts and pool objects are freed; sessions, pending keys and wrapped keys are zeroized. -/
def State.partFree (s : State) (p : Nat) : State :=
  let s1 := (s.recsOf p).foldl (fun (s : State) e => s.dropRec e.1) s
  let s2 := s1.modSys fun x =>
    { x with contracts := x.contracts.filter fun k => k.part != p, vers := x.vers.filter fun v => v.part != p, jobs := x.jobs.filter fun j => j.part != p,
             insts := x.insts.filter fun i => i.part != p }
  { s2 with rot := { s2.rot with sessions := s2.rot.sessions.filter fun y => y.part != p, pend := s2.rot.pend.filter fun y => y.part != p } }

/-- Orders 1 to 5 and the clearing of order 6. -/
def State.partEnd (s : State) (p state : Nat) : State × Nat :=
  let s1 := ((s.put PRT_PART_CTL_state 0 state p).partChansKill p).partCtxEnd p
  let s2 := (s1.partClus p).foldl (fun (s : State) c => s.cluCut c) (s1.lentDrop p)
  let q := s2.partGenUp p
  ((q.1.partClus p).foldl (fun (s : State) c => s.cluWipe c) (q.1.partFree p), q.2)

/-- A mailbox starts anew. (Log 128 DEDUCED) -/
def State.mbxState (s : State) (b v : Nat) : State :=
  (((s.put MBX_STAT_state b v).put MBX_STAT_accepted b 0).put MBX_STAT_responded b 0).modBox b fun _ => MbxSt.init

/-- Order 7 of a removal: pages absent, crofts unassigned, the partition absent, its quotas returned, its keys gone. (Log 130 DEDUCED) -/
def State.partGone (s : State) (p : Nat) : State :=
  let ks := s.partCrofts p
  let s1 := (ks.foldl (fun (s : State) k => s.keyPut k 0) s).partPages p 1
  let span := s.pf p 4 2
  let s2 := { s1 with keys := if span = 0 then s1.keys else s1.keys.filter fun x => x.2.span != span }
  let s3 := ks.foldl (fun (s : State) k => s.wreg PRT_CROFT 0 k 0 0) s2
  let s4 := (s3.wreg PRT_PART_CTL 0 p 0 (s3.get PRT_PART_CTL_reason 0 p * 2 ^ 32)).modSys fun x =>
    { x with parts := tset PartInfo.init x.parts p PartInfo.init, keys := x.keys.filter fun k => k.part != p }
  let s5 := (List.range 4).foldl (fun (s : State) j => s.wreg PRT_PART_PASID 0 p j 0) s4
  ((s5.wreg PCI_CHRATE 0 p 0 0).managerQuota).mbxState (p + 1) 3

/-- Remove a partition. -/
def State.partDestroy (s : State) (p : Nat) : State := (s.partEnd p 4).1.partGone p

/-! ### The requests -/

/-- PART_CREATE. (Log 5 DESIGN CHOICE, 127 DEDUCED) -/
def State.partCreate (s : State) (b : Nat) (r : List Byte) : State :=
  let y := mPayBytes r 0 128
  let p := leAt y 0 1
  if mHandle r ≠ 0 ∨ partPayOk y = false then s.mbxRespond b 0x0904 0 []
  else
    let code := firstFail (s.partChecks y)
    if code ≠ 0 then (s.put PRT_PART_CTL_reason 0 code p).mbxRespond b code 0 []
    else
      let gen := nextGen (tget 0 s.sys.gens p)
      let s1 := ((s.put PWR_STATE_standby 0 0).partRegs p gen y).partCroftRegs p gen
      let q := (s1.keyFresh (s1.partCrofts p)).partSetup p gen
      if q.2 ≠ 0 then (q.1.partDestroy p).mbxRespond b 0x0131 0 (leBytes 8 q.2)
      else ((q.1.mbxState (p + 1) 1).event 0x0AF1 0xFFFF p (packDetail [(p, 1), (leAt y 2 2, 2)])).mbxRespond b 0 0 []

/-- A request that names a partition: malformed, unknown, or not that of the mailbox. -/
def State.partNamed (s : State) (b : Nat) (r : List Byte) (f : State → Nat → State) : State :=
  let p := mPay r 0 1
  if mHandle r ≠ 0 ∨ zeros r 33 7 = false then s.mbxRespond b 0x0904 0 []
  else if s.partExists p = false ∨ (b ≠ 0 ∧ p ≠ boxOwner b) then s.mbxRespond b 0x0905 0 []
  else f s p

/-- PART_RESET. (Log 5 DESIGN CHOICE, 128 DEDUCED) -/
def State.partReset (s : State) (b p : Nat) : State :=
  let e := s.partEnd p 3
  let q := (e.1.keyFresh (e.1.partCrofts p)).partSetup p e.2
  q.1.mbxRespond b (if q.2 = 0 then 0 else 0x0131) 0 (if q.2 = 0 then [] else leBytes 8 q.2)

/-- Payload of a query's response. -/
def State.partReport (s : State) (p : Nat) : List Byte :=
  slice (s.part p).payload 0 128 ++ leBytes 1 (s.get PRT_PART_CTL_state 0 p) ++ leBytes 1 (s.get PRT_PART_CTL_gen 0 p) ++ List.replicate 6 0 ++
  [0, 1, 2, 3].flatMap fun k => leBytes 8 (s.aggSlots (s.pf p 4 2) k * slotRate)

/-! ### Dirty-page logging (R463 to R466, R480) -/

/-- Checks of Table 16.17. -/
def dirtyChecks (p : Nat) (s : State) : List (Bool × Nat) :=
  let n := s.get PRT_DIRTY_RANGE_pages 0 p
  [ (n != 0 && n % 64 == 0 && decide (s.get PRT_DIRTY_BASE_base 0 p * 4096 + 2 * n < 2 ^ 57), 0x0A61),
    (!(s.pasidTaken (s.get PRT_DIRTY_CTL_pasid 0 p)), 0x0A62), (s.get PRT_PART_CTL_state 0 p == 2, 0x0A63) ]

/-- The words of a partition leave the endpoint's cache. -/
def State.dirtyForget (s : State) (p : Nat) : State := s.modPcie fun x => { x with dirty := x.dirty.filter fun d => d.1 != p }

/-- PRT_DIRTYp_CTL with en = 1: logging starts with nothing cached. (Log 132 DEDUCED) -/
def State.dirtyEnable (s : State) (p : Nat) (v : Word) : State :=
  let s1 := if s.enables PRT_DIRTY_CTL_en 0 p 0 v (dirtyChecks p) then s.dirtyForget p else s
  s1.enable PRT_DIRTY_CTL_en PRT_DIRTY_CTL_reason 0 p 0 v (dirtyChecks p)

/-- The switch bit (R465). -/
def State.dirtyFlip (s : State) (p : Nat) : State :=
  if s.get PRT_DIRTY_CTL_en 0 p = 0 ∨ s.get PRT_DIRTY_CTL_done 0 p = 0 then s.put PRT_DIRTY_CTL_reason 0 0x0A64 p
  else ((s.put PRT_DIRTY_CTL_sel 0 (1 - s.get PRT_DIRTY_CTL_sel 0 p) p).put PRT_DIRTY_CTL_done 0 0 p).dirtyForget p

/-- DIRTY_SWITCH_DONE: no queued write has its bit in the old half. -/
def State.dirtyDone (s : State) (p : Nat) : State :=
  if s.get PRT_DIRTY_CTL_done 0 p = 0 ∧ (s.pcie.tx.all fun t => !(t.acc.part == p && t.half == 1 - s.get PRT_DIRTY_CTL_sel 0 p)) = true then
    s.put PRT_DIRTY_CTL_done 0 1 p
  else s

/-! ### WARM_RESET (R544) -/

/-- The response is posted, the resume record copied, leave notices are sent; the reset follows. -/
def State.warmReset (s : State) (b : Nat) (r : List Byte) : State :=
  if mHandle r ≠ 0 then s.mbxRespond b 0x0904 0 []
  else ((((s.mbxRespond b 0 0 []).mbxPost b).resumeCopy 2)).leaveAll

/-! ### The commands -/

/-- PART_CREATE (R454). -/
def execPartCreate (b : Mbx) (s : State) : Host.Outcome State Fault Refusal := .next (s.mbxServe b 0x0101 fun s r => s.partCreate b r)

/-- PART_DESTROY (R461). -/
def execPartDestroy (b : Mbx) (s : State) : Host.Outcome State Fault Refusal :=
  .next (s.mbxServe b 0x0102 fun s r => s.partNamed b r fun s p => (s.partDestroy p).mbxRespond b 0 0 [])

/-- PART_RESET (R461). -/
def execPartReset (b : Mbx) (s : State) : Host.Outcome State Fault Refusal :=
  .next (s.mbxServe b 0x0103 fun s r => s.partNamed b r fun s p => s.partReset b p)

/-- PART_QUERY (R454). -/
def execPartQuery (b : Mbx) (s : State) : Host.Outcome State Fault Refusal :=
  .next (s.mbxServe b 0x0104 fun s r => s.partNamed b r fun s p => s.mbxRespond b 0 0 (s.partReport p))

/-- WARM_RESET (R544). -/
def execWarmReset (b : Mbx) (s : State) : Host.Outcome State Fault Refusal := .next (s.mbxServe b 0x0181 fun s r => s.warmReset b r)

/-- PRT_DIRTY_EN (R480). -/
def execPrtDirtyEn (p : Part) (v : Word) (s : State) : Host.Outcome State Fault Refusal := .next (s.dirtyEnable p v)

/-- DIRTY_SWITCH (R465). -/
def execDirtySwitch (p : Part) (v : Word) (s : State) : Host.Outcome State Fault Refusal :=
  .next ((s.plainBut PRT_DIRTY_CTL_en 0 p 0 v).dirtyFlip p)

/-- DIRTY_SWITCH_DONE (R465). -/
def execDirtySwitchDone (p : Part) (s : State) : Host.Outcome State Fault Refusal := .next (s.dirtyDone p)

/-- HBM_KEY_DRAINED (R492). -/
def execHbmKeyDrained (k : Part) (s : State) : Host.Outcome State Fault Refusal := .next (s.keyDrained k)

end Sys2Proof.Machine
end

