-- ==== Sys2Proof/Machine/Rot.lean ====
section
/-!
DEFINITION. The root of trust (chapter "Root of trust, sealing and attestation"): the boot chain, device keys, certificates, the
attestation report, seal sessions, delivered keys, span keys, and firmware. Where the spec names a request's contents without a
layout, the fields stand in the order in which it names them.
-/
namespace Sys2Proof.Machine

open Sys2Proof

/-- Bytes of an ASCII string. -/
def ascii (s : String) : List Byte := s.toList.map fun c => BitVec.ofNat 8 c.toNat

/-- Change the root of trust. -/
def State.modRot (s : State) (f : Rot → Rot) : State := { s with rot := f s.rot }

/-- A fresh value of n bytes. -/
def State.randBytes (s : State) (n : Nat) : State × List Byte := let r := s.rand; (r.1, leBytes n r.2)

/-! ### The boot chain (R482 to R484) -/

/-- Image of a stage in a copy of the boot flash. -/
def State.flashAt (s : State) (copy stage : Nat) : List Byte :=
  match tfind s.rot.flash (4 * copy + stage) with
  | some b => b
  | none => Config.flashImage copy stage

/-- Why an image of a stage is not valid (R483); 0 for none. -/
def State.imageCode (s : State) (stage : Nat) (b : List Byte) : Nat :=
  firstFail
    [(leAt b 0 4 == 0x474D4946 && leAt b 4 2 == 1 && leAt b 6 1 == stage && zeros b 7 1 && zeros b 14 2 && zeros b 88 40 &&
        b.length == 192 + leAt b 8 4 && Config.sha512 (b.drop 192) == slice b 24 64, 0x0B01),
     (leAt b 16 8 == keyId (Config.fusedKey 0) && Config.edVerify (Config.fusedKey 0) (Config.sha512 (slice b 0 128)) (slice b 128 64), 0x0B02),
     (decide (tget 0 s.rot.svnMin stage ≤ leAt b 12 2), 0x0B03)]

/-- Boot one stage: copy A, then copy B; the first failure is recorded; when both fail the root of trust stops. -/
def State.bootStage (s : State) (stage : Nat) : State :=
  if s.get SEC_STAT_reason 0 ≠ 0 then s
  else
    let a := s.imageCode stage (s.flashAt 0 stage)
    let b := s.imageCode stage (s.flashAt 1 stage)
    let took := fun (s : State) copy =>
      ((s.put SEC_STAT_stage 0 stage).put SEC_STAT_copies 0 (nput (s.get SEC_STAT_copies 0) (stage - 1) 1 copy)).modRot fun x =>
        { x with digests := x.digests ++ [slice (s.flashAt copy stage) 24 64] }
    if a = 0 then took s 0
    else
      let s1 := s.event a 0xFFFF 0xFF 0
      if b = 0 then took s1 1 else s1.put SEC_STAT_reason 0 0x0B04

/-- Orders 4 and 5 of Table 19.8: a boot nonce, the stages, the storage key; its mailbox is ready. -/
def State.rotBoot (s : State) : State :=
  let s1 := (s.modRot fun x => { x with nonce := x.draws, storage := x.draws + 1, draws := x.draws + 2 }).put SEC_STAT_lifecycle 0 (if s.rot.unlocked then 2 else 1)
  (((s1.bootStage 1).bootStage 2).bootStage 3).mbxState 17 1

/-- Did all stages boot. -/
def State.booted (s : State) : Bool := s.get SEC_STAT_stage 0 == 3 && s.get SEC_STAT_reason 0 == 0

/-- The boot nonce. -/
def State.bootNonce (s : State) : List Byte := leBytes 16 (Config.trng (2 ^ 64 + s.rot.nonce))

/-! ### Device keys and certificates (R485 to R487) -/

/-- Digests of stages 0 to 3; a stage that has not booted counts as zero. -/
def State.stageDigests (s : State) : List Byte := slice Config.romDigest 0 64 ++ (List.range 3).flatMap fun i => slice (lget [] s.rot.digests i) 0 64

/-- SHA-512 over the four stage digests. -/
def State.fwHash (s : State) : List Byte := Config.sha512 s.stageDigests

/-- The secret that the keys derive from: all zero once the module is debug-unlocked. -/
def State.secret (s : State) : List Byte := if s.rot.unlocked then List.replicate 32 0 else Config.fusedSecret

/-- Private seeds and scalar (Table 17.3). -/
def State.idSeed (s : State) : List Byte := Config.hkdf s.secret Config.romDigest (ascii "heluc identity v1") 32
def State.akSeed (s : State) : List Byte := slice (Config.hkdf s.secret s.fwHash (ascii "heluc attest v1") 64) 0 32
def State.xkScalar (s : State) : List Byte := slice (Config.hkdf s.secret s.fwHash (ascii "heluc attest v1") 64) 32 32

/-- Public key of an X25519 scalar. -/
def xPub (scalar : List Byte) : List Byte := Config.x25519 scalar (leBytes 32 9)

/-- Fields of a certificate (Table 17.4). -/
def certMagic : Nat := 0x54434B41
def cAk (c : List Byte) : List Byte := slice c 8 32
def cXk (c : List Byte) : List Byte := slice c 40 32
def cFw (c : List Byte) : List Byte := slice c 72 64
def cSerial (c : List Byte) : Nat := leAt c 136 8
def cSig (c : List Byte) : List Byte := slice c 144 64

/-- The attestation certificate. -/
def State.akCert (s : State) : List Byte :=
  let b := leBytes 4 certMagic ++ leBytes 2 1 ++ leBytes 2 0 ++ slice (Config.edPub s.akSeed) 0 32 ++ slice (xPub s.xkScalar) 0 32 ++ slice s.fwHash 0 64 ++
    leBytes 8 Config.serial
  b ++ slice (Config.edSign s.idSeed (Config.sha512 b)) 0 64

/-- Why a peer's identity and attestation certificates are refused (R495); 0 for none. The lifecycle shows in the signature: an unlocked
module has no identity key. (Log 137 DESIGN CHOICE, 138 DEDUCED) -/
def State.peerCode (s : State) (idc akc : List Byte) : Nat :=
  firstFail
    [(Config.chainOk idc && leAt akc 0 4 == certMagic && leAt akc 4 2 == 1 && zeros akc 6 2 && cSerial idc == cSerial akc &&
        Config.edVerify (cAk idc) (Config.sha512 (slice akc 0 144)) (cSig akc), 0x0B15),
     (cFw akc == s.fwHash, 0x0B16)]

/-! ### The attestation report (R489, R490) -/

/-- Largest number of adapter entries of a report. -/
def reportCap : Nat := 184

/-- Partition entry (Table 17.9). -/
def State.repPart (s : State) (scope q : Nat) : List Byte :=
  let own := q == scope
  leBytes 1 (s.get PRT_PART_CTL_state 0 q) ++ leBytes 1 (s.get PRT_PART_CTL_gen 0 q) ++ leBytes 2 (s.get PRT_PART_CTL_crofts 0 q) ++
    leBytes 2 (if own then s.pf q 4 2 else 0) ++ leBytes 1 (if own then ((s.instsOf q).filter Inst.loaded).length else 0) ++
    leBytes 1 (if own then (s.served q).length else 0) ++
    leBytes 4 (if own then (match s.partCrofts q with | k :: _ => s.get SEC_HBMKEY_epoch 0 k | [] => 0) else 0) ++ leBytes 4 0

/-- Adapter entry (Table 17.10). -/
def State.repAdapter (s : State) (e : Nat × Rec) : List Byte :=
  leBytes 2 e.1 ++ leBytes 2 (s.slotGen e.1) ++ leBytes 4 e.2.owner ++ leBytes 2 e.2.base ++ leBytes 1 e.2.rank ++ leBytes 1 e.2.state ++ leBytes 4 0 ++
    slice e.2.digest 0 64

/-- Records that a report lists. -/
def State.repRecs (s : State) (scope first owner : Nat) : List (Nat × Rec) :=
  if owner = 0xFFFFFFFF then []
  else ((s.recsOf scope).filter fun e => decide (first ≤ e.1) && e.2.owner == owner && (e.2.state == 1 || e.2.state == 2)).take reportCap

/-- Revision ID of a module of stepping A1, and the class code (R1, Table 14.1). (Log 198 DEDUCED) -/
def revisionId : Nat := 0xA1
def classCode : Nat := 0x120000

/-- The double word of the PCI Express configuration header that holds the Revision ID, in byte 0, and the class code above it (R1). (Log 198 DEDUCED) -/
def configClass : Nat := revisionId + classCode * 2 ^ 8

/-- Fuse configuration (Table 17.8). -/
def State.repFuses (s : State) : List Byte :=
  leBytes 1 (configClass % 256) ++ leBytes 1 (if s.rot.unlocked then 2 else 1) ++ ([1, 2, 3].flatMap fun k => leBytes 2 (tget 0 s.rot.svnMin k)) ++ slice Config.idCert 8 32 ++
    leBytes 8 Config.serial ++ List.replicate 16 0

/-- A report, without its signature. -/
def State.repBody (s : State) (scope first owner : Nat) (nonce binding : List Byte) : List Byte :=
  let rs := s.repRecs scope first owner
  let ready := (s.recsOf scope).filter fun e => e.2.state == 1
  let hdr := leBytes 4 0x52545441 ++ leBytes 2 1 ++ leBytes 2 (1536 + 80 * rs.length) ++ leBytes 8 (s.rot.counter + 1) ++ leBytes 4 s.incarnation ++
    leBytes 2 s.moduleId ++ leBytes 1 scope ++ leBytes 1 rs.length ++ List.replicate 8 0 ++ slice nonce 0 64 ++ slice (Config.edPub s.akSeed) 0 32 ++
    slice binding 0 64 ++ List.replicate 64 0
  let vers := (s.served scope).flatMap fun v => slice v.baseDigest 0 64 ++ slice v.shardDigest 0 64
  hdr ++ s.stageDigests ++ s.repFuses ++ ((List.range 16).flatMap fun q => s.repPart scope q) ++
    slice (((s.instsOf scope).filter Inst.loaded).flatMap fun i => slice i.digest 0 64) 0 256 ++ slice vers 0 256 ++
    slice (Config.sha512 (ready.flatMap fun e => e.2.digest)) 0 64 ++ List.replicate 64 0 ++ rs.flatMap s.repAdapter

/-- Build, sign and keep a report. -/
def State.report (s : State) (scope first owner : Nat) (nonce binding : List Byte) : State × List Byte :=
  let b := s.repBody scope first owner nonce binding
  let r := b ++ slice (Config.edSign s.akSeed (Config.sha512 b)) 0 64
  (s.modRot fun x => { x with report := r, counter := x.counter + 1 }, r)

/-- Bytes of a report that one response carries. -/
def repChunk : Nat := 4032

/-- ATTEST. -/
def State.attest (s : State) (b : Nat) (r : List Byte) : State :=
  let scope := mPay r 0 1
  if mHandle r ≠ 0 ∨ zeros r 33 1 = false then s.mbxRespond b 0x0904 0 []
  else if scope ≠ 0xFF ∧ s.partExists scope = false then s.mbxRespond b 0x0B32 0 []
  else
    let q := s.report scope (mPay r 2 2) (mPay r 4 4) (mPayBytes r 8 64) (List.replicate 64 0)
    q.1.mbxRespond b 0 0 (q.2.take repChunk)

/-- CERT_READ: the attestation, the identity and the manufacturing certificate. -/
def State.certRead (s : State) (b : Nat) (r : List Byte) : State :=
  if mHandle r ≠ 0 ∨ mPayLen r ≠ 0 then s.mbxRespond b 0x0904 0 []
  else s.mbxRespond b 0 0 ((s.akCert ++ slice Config.idCert 0 208 ++ Config.mfgCert).take 4064)

/-- REPORT_READ. -/
def State.reportRead (s : State) (b : Nat) (r : List Byte) : State :=
  if mHandle r ≠ 0 ∨ mPayLen r ≠ 4 then s.mbxRespond b 0x0904 0 []
  else s.mbxRespond b 0 0 ((s.rot.report.drop (mPay r 0 4)).take repChunk)

/-! ### Seal sessions and delivered keys (R498, R499) -/

/-- SESSION_OPEN: partition (byte 0, bytes 1 to 7 zero), customer public key, nonce. (Log 113 DESIGN CHOICE, 140 DEDUCED) -/
def State.sessionOpen (s : State) (b : Nat) (r : List Byte) : State :=
  let p := mPay r 0 1
  let peer := mPayBytes r 8 32
  let nonce := mPayBytes r 40 64
  if mHandle r ≠ 0 ∨ mPayLen r ≠ 104 ∨ zeros r 33 7 = false then s.mbxRespond b 0x0904 0 []
  else if s.partExists p = false then s.mbxRespond b 0x0B32 0 []
  else if 16 ≤ s.rot.sessions.length then s.mbxRespond b 0x0B12 0 []
  else
    let k := s.randBytes 32
    let i := k.1.randBytes 8
    let shared := Config.x25519 k.2 peer
    if shared.all (· == 0) then i.1.mbxRespond b 0x0B18 0 []
    else
      let own := slice (xPub k.2) 0 32
      let y : Session := { id := leNat i.2, part := p, last := 0,
                           key := Config.hkdf shared nonce (ascii "heluc seal v1" ++ i.2 ++ leBytes 1 p) 32 }
      let q := (i.1.modRot fun x => { x with sessions := x.sessions ++ [y] }).report p 0 0xFFFFFFFF nonce (Config.sha512 (peer ++ own ++ nonce ++ i.2))
      q.1.mbxRespond b 0 0 (i.2 ++ own ++ q.2)

/-- Does a KEY_DELIVER payload keep Table 17.11. -/
def keyDeliverOk (r : List Byte) : Bool :=
  let n := mPay r 36 1
  decide (1 ≤ n) && decide (n ≤ 8) && zeros r (32 + 37) 27 && zeros r (32 + 64 + 64 * n) (64 * (8 - n))

/-- KEY_DELIVER. -/
def State.keyDeliver (s : State) (b : Nat) (r : List Byte) : State :=
  if mHandle r ≠ 0 ∨ keyDeliverOk r = false then s.mbxRespond b 0x0904 0 []
  else match s.rot.sessions.find? fun y => y.id == mPay r 0 8 with
    | none => s.mbxRespond b 0x0B11 0 []
    | some y =>
      let ctr := mPay r 8 8
      if ctr ≤ y.last then s.mbxRespond b 0x0B11 0 []
      else match Config.gcmOpen y.key (leBytes 8 ctr ++ List.replicate 4 0) (mPayBytes r 0 576) (mPayBytes r 576 32) (mPayBytes r 608 16) with
        | none => s.mbxRespond b 0x0B13 0 []
        | some key =>
          let same := fun (k : PendKey) => k.part == y.part && k.keyId == mPayBytes r 16 16
          let rest := s.rot.pend.filter fun k => !(same k)
          let used := fun (z : Session) => if z.id = y.id then { z with last := ctr } else z
          let s1 := s.modRot fun x => { x with sessions := x.sessions.map used }
          if 256 ≤ rest.length then s1.mbxRespond b 0x0B14 0 []
          else
            let k : PendKey := { part := y.part, keyId := mPayBytes r 16 16, owner := mPay r 32 4, key := key,
                                 policy := (List.range (mPay r 36 1)).map fun i => mPayBytes r (64 + 64 * i) 64 }
            (s1.modRot fun x => { x with pend := rest ++ [k] }).mbxRespond b 0 0 []

/-- Discard a session. -/
def State.sessionDrop (s : State) (id : Nat) : State := s.modRot fun x => { x with sessions := x.sessions.filter fun y => y.id != id }

/-- SESSION_CLOSE: the session identifier. -/
def State.sessionClose (s : State) (b : Nat) (r : List Byte) : State :=
  if mHandle r ≠ 0 ∨ mPayLen r ≠ 8 then s.mbxRespond b 0x0904 0 []
  else if s.rot.sessions.any fun y => y.id == mPay r 0 8 then (s.sessionDrop (mPay r 0 8)).mbxRespond b 0 0 []
  else s.mbxRespond b 0x0B11 0 []

/-- PENDING_KEY_EXPIRY. -/
def State.pendDrop (s : State) (p id : Nat) : State := s.modRot fun x => { x with pend := x.pend.filter fun k => !(k.part == p && leNat k.keyId == id) }

/-! ### Span keys (R494 to R497) -/

/-- Load a key into a slot: the counters of messages under it start at zero on both dies. -/
def State.slotLoad (s : State) (k : Nat) (y : KeySlot) : State :=
  let s1 := { s with keys := tins k y s.keys }
  (s1.modLok 0 fun x => { x with mctr := tset 0 x.mctr k 0 }).modLok 1 fun x => { x with mctr := tset 0 x.mctr k 0 }

/-- Does a slot hold another span's key. -/
def State.slotOther (s : State) (k span : Nat) : Bool := match tfind s.keys k with | some y => y.span != span | none => false

/-- The management key and only it has span 0x0000 (R494). -/
def slotSpanOk (k span : Nat) : Bool := (k == 0) == (span == 0)

/-- SPAN_KEY_CREATE: slot (byte 0, byte 1 zero), span, epoch. -/
def State.spanCreate (s : State) (b : Nat) (r : List Byte) : State :=
  let k := mPay r 0 1
  let span := mPay r 2 2
  if mHandle r ≠ 0 ∨ mPayLen r ≠ 8 ∨ zeros r 33 1 = false ∨ slotSpanOk k span = false then s.mbxRespond b 0x0904 0 []
  else if s.slotOther k span then s.mbxRespond b 0x0B17 0 []
  else
    let q := s.randBytes 32
    (q.1.slotLoad k { key := q.2, span := span, epoch := mPay r 4 4, send := false, made := true, exported := [] }).mbxRespond b 0 0 []

/-- The 27 bytes of fields of a packet. -/
def packetFields (span epoch slot src dst : Nat) (nonce : List Byte) : List Byte :=
  leBytes 2 span ++ leBytes 4 epoch ++ leBytes 1 slot ++ leBytes 2 src ++ leBytes 2 dst ++ slice nonce 0 16

/-- Key that wraps a span key (R495). -/
def wrapKey (shared xk : List Byte) : List Byte := Config.hkdf shared xk (ascii "heluc span v1") 32

/-- SPAN_KEY_EXPORT: slot (byte 0, bytes 1 to 7 zero), identity and attestation certificates, module identifier, boot nonce. (Log 113 DESIGN CHOICE) -/
def State.spanExport (s : State) (b : Nat) (r : List Byte) : State :=
  let k := mPay r 0 1
  let akc := mPayBytes r 216 208
  let code := s.peerCode (mPayBytes r 8 208) akc
  if mHandle r ≠ 0 ∨ mPayLen r ≠ 442 ∨ zeros r 33 7 = false then s.mbxRespond b 0x0904 0 []
  else if code ≠ 0 then s.mbxRespond b code 0 []
  else match tfind s.keys k with
    | none => s.mbxRespond b 0x0B19 0 []
    | some y =>
      if y.made = false ∨ y.exported.contains (cSerial akc) = true then s.mbxRespond b 0x0B19 0 []
      else
        let e := s.randBytes 32
        let f := packetFields y.span y.epoch k s.moduleId (mPay r 424 2) (mPayBytes r 426 16)
        let c := Config.gcmSeal (wrapKey (Config.x25519 e.2 (cXk akc)) (cXk akc)) (List.replicate 12 0) f y.key
        let s1 := { e.1 with keys := tins k { y with exported := y.exported ++ [cSerial akc] } e.1.keys }
        s1.mbxRespond b 0 0 (slice (xPub e.2) 0 32 ++ f ++ slice c.1 0 32 ++ slice c.2 0 16)

/-- SPAN_KEY_IMPORT: the packet, then the source's identity and attestation certificates. (Log 113 DESIGN CHOICE, 139 DEDUCED) -/
def State.spanImport (s : State) (b : Nat) (r : List Byte) : State :=
  let pub := mPayBytes r 0 32
  let f := mPayBytes r 32 27
  let span := leAt f 0 2
  let k := leAt f 6 1
  let code := s.peerCode (mPayBytes r 107 208) (mPayBytes r 315 208)
  if mHandle r ≠ 0 ∨ mPayLen r ≠ 523 then s.mbxRespond b 0x0904 0 []
  else if code ≠ 0 then s.mbxRespond b code 0 []
  else if leAt f 9 2 ≠ s.moduleId ∨ slice f 11 16 ≠ s.bootNonce then s.mbxRespond b 0x0B1A 0 []
  else match Config.gcmOpen (wrapKey (Config.x25519 s.xkScalar pub) (xPub s.xkScalar)) (List.replicate 12 0) f (mPayBytes r 59 32) (mPayBytes r 91 16) with
    | none => s.mbxRespond b 0x0B13 0 []
    | some key =>
      if s.slotOther k span ∨ slotSpanOk k span = false then s.mbxRespond b 0x0B17 0 []
      else (s.slotLoad k { key := key, span := span, epoch := leAt f 2 4, send := false, made := false, exported := [] }).mbxRespond b 0 0 []

/-- A request that names a loaded slot: byte 0, bytes 1 to 7 zero. -/
def State.slotNamed (s : State) (b : Nat) (r : List Byte) (f : State → Nat → KeySlot → State) : State :=
  if mHandle r ≠ 0 ∨ mPayLen r ≠ 8 ∨ zeros r 33 7 = false then s.mbxRespond b 0x0904 0 []
  else match tfind s.keys (mPay r 0 1) with
    | none => s.mbxRespond b 0x0905 0 []
    | some y => (f s (mPay r 0 1) y).mbxRespond b 0 0 []

/-- SPAN_KEY_SEND: the slot becomes the one send slot of its span. -/
def State.spanSend (s : State) (k : Nat) (y : KeySlot) : State :=
  { s with keys := s.keys.map fun e => if e.2.span = y.span then (e.1, { e.2 with send := e.1 == k }) else e }

/-- SPAN_KEY_DESTROY: the slot is zeroized. -/
def State.spanDestroy (s : State) (k : Nat) : State := { s with keys := tdel k s.keys }

/-! ### Firmware (R488) -/

/-- FW_UPDATE: the image goes to the copy of its stage that did not boot. (Log 116 DESIGN CHOICE) -/
def State.fwUpdate (s : State) (b : Nat) (r image : List Byte) : State :=
  let stage := leAt image 6 1
  let code := if stage = 0 ∨ 3 < stage then 0x0B01 else s.imageCode stage image
  if mHandle r ≠ 0 then s.mbxRespond b 0x0904 0 []
  else if code ≠ 0 then s.mbxRespond b code 0 []
  else
    let copy := 1 - nfld (s.get SEC_STAT_copies 0) (stage - 1) 1
    (s.modRot fun x => { x with flash := tins (4 * copy + stage) image x.flash }).mbxRespond b 0 0 []

/-- SVN_COMMIT: stage (byte 0, bytes 1 to 7 zero). (Log 113 DESIGN CHOICE) -/
def State.svnCommit (s : State) (b : Nat) (r : List Byte) : State :=
  let stage := mPay r 0 1
  if mHandle r ≠ 0 ∨ mPayLen r ≠ 8 ∨ zeros r 33 7 = false ∨ stage = 0 ∨ 3 < stage then s.mbxRespond b 0x0904 0 []
  else
    let svn := leAt (s.flashAt (nfld (s.get SEC_STAT_copies 0) (stage - 1) 1) stage) 12 2
    (s.modRot fun x => { x with svnMin := tset 0 x.svnMin stage (Nat.max (tget 0 x.svnMin stage) svn) }).mbxRespond b 0 0 []

/-- BOOT_STATUS: stage digests, copies, stage, reason, four zero bytes, boot nonce. (Log 113 DESIGN CHOICE) -/
def State.bootStatus (s : State) (b : Nat) (r : List Byte) : State :=
  if mHandle r ≠ 0 ∨ mPayLen r ≠ 0 then s.mbxRespond b 0x0904 0 []
  else s.mbxRespond b 0 0 (s.stageDigests ++ leBytes 1 (s.get SEC_STAT_copies 0) ++ leBytes 1 (s.get SEC_STAT_stage 0) ++ leBytes 2 (s.get SEC_STAT_reason 0) ++
    leBytes 4 0 ++ s.bootNonce)

/-- A request to the root of trust: one that stopped in the boot answers BOOT_STATUS only (R484). (Log 141 DEDUCED) -/
def State.rotServe (s : State) (b ty : Nat) (f : State → List Byte → State) : State :=
  s.mbxServe b ty fun s r => if s.booted then f s r else s.mbxRespond b 0x0905 0 []

/-! ### The commands -/

/-- ATTEST (R489). -/
def execAttest (b : Mbx) (s : State) : Host.Outcome State Fault Refusal := .next (s.rotServe b 0x0301 fun s r => s.attest b r)

/-- CERT_READ (R486). -/
def execCertRead (b : Mbx) (s : State) : Host.Outcome State Fault Refusal := .next (s.rotServe b 0x0302 fun s r => s.certRead b r)

/-- REPORT_READ (R488). -/
def execReportRead (b : Mbx) (s : State) : Host.Outcome State Fault Refusal := .next (s.rotServe b 0x0303 fun s r => s.reportRead b r)

/-- SESSION_OPEN (R498). -/
def execSessionOpen (b : Mbx) (s : State) : Host.Outcome State Fault Refusal := .next (s.rotServe b 0x0311 fun s r => s.sessionOpen b r)

/-- KEY_DELIVER (R499). -/
def execKeyDeliver (b : Mbx) (s : State) : Host.Outcome State Fault Refusal := .next (s.rotServe b 0x0312 fun s r => s.keyDeliver b r)

/-- SESSION_CLOSE (R488). -/
def execSessionClose (b : Mbx) (s : State) : Host.Outcome State Fault Refusal := .next (s.rotServe b 0x0313 fun s r => s.sessionClose b r)

/-- SESSION_IDLE_TIMEOUT (R498). -/
def execSessionIdleTimeout (id : Nat) (s : State) : Host.Outcome State Fault Refusal := .next (s.sessionDrop id)

/-- PENDING_KEY_EXPIRY (R499). -/
def execPendingKeyExpiry (p keyId : Nat) (s : State) : Host.Outcome State Fault Refusal := .next (s.pendDrop p keyId)

/-- SPAN_KEY_CREATE (R495). -/
def execSpanKeyCreate (b : Mbx) (s : State) : Host.Outcome State Fault Refusal := .next (s.rotServe b 0x0321 fun s r => s.spanCreate b r)

/-- SPAN_KEY_EXPORT (R495). -/
def execSpanKeyExport (b : Mbx) (s : State) : Host.Outcome State Fault Refusal := .next (s.rotServe b 0x0322 fun s r => s.spanExport b r)

/-- SPAN_KEY_IMPORT (R495). -/
def execSpanKeyImport (b : Mbx) (s : State) : Host.Outcome State Fault Refusal := .next (s.rotServe b 0x0323 fun s r => s.spanImport b r)

/-- SPAN_KEY_SEND (R496). -/
def execSpanKeySend (b : Mbx) (s : State) : Host.Outcome State Fault Refusal :=
  .next (s.rotServe b 0x0324 fun s r => s.slotNamed b r fun s k y => s.spanSend k y)

/-- SPAN_KEY_DESTROY (R497). -/
def execSpanKeyDestroy (b : Mbx) (s : State) : Host.Outcome State Fault Refusal :=
  .next (s.rotServe b 0x0325 fun s r => s.slotNamed b r fun s k _ => s.spanDestroy k)

/-- FW_UPDATE (R488). -/
def execFwUpdate (b : Mbx) (image : List Byte) (s : State) : Host.Outcome State Fault Refusal :=
  .next (s.rotServe b 0x0331 fun s r => s.fwUpdate b r image)

/-- SVN_COMMIT (R488). -/
def execSvnCommit (b : Mbx) (s : State) : Host.Outcome State Fault Refusal := .next (s.rotServe b 0x0332 fun s r => s.svnCommit b r)

/-- BOOT_STATUS (R488). -/
def execBootStatus (b : Mbx) (s : State) : Host.Outcome State Fault Refusal := .next (s.mbxServe b 0x0333 fun s r => s.bootStatus b r)

end Sys2Proof.Machine
end

