-- ==== Sys2Proof/Machine/Views.lean ====
section
/-!
DEFINITION. Register reads of the whole module: registers that show the state of a unit are formed from it; the others are read as
stored. No read here has a side effect.
-/
namespace Sys2Proof.Machine

open Sys2Proof

/-- Value of PRT_CORESUM of a croft (Table 16.15). -/
def State.coreSum (s : State) (k : Nat) : Nat :=
  let cs := croftClus k
  let count := fun (f : Nat → Bool) => (cs.filter f).length
  count s.coreActive + count (fun c => s.get CLU_CORE_CTL_state c == 4) * 2 ^ 8 + count (fun c => s.get CLU_CORE_CTL_state c == 5) * 2 ^ 16 +
    count (fun c => s.get CLU_RETURN_busy c == 1) * 2 ^ 24

/-- Command buffers that no owner holds (R408). -/
def State.buffersFree (s : State) : Nat := 65536 - ((List.range 17).map s.buffersHeld).foldl (fun a b => a + b) 0

/-- Value of SEC_LNKSLOT of a slot (Table 17.17). -/
def State.slotView (s : State) (i : Nat) : Nat :=
  match tfind s.keys i with
  | none => 0
  | some y => 1 + 2 * b2n y.send + y.span % 2 ^ 16 * 2 ^ 16 + y.epoch % 2 ^ 32 * 2 ^ 32

/-- Value of EVR_NONCE: the draw that it shows (R528). -/
def State.evrNonce (s : State) : Nat := Config.trng s.evr.draws % 2 ^ 64

/-- Value of a register as a read returns it. -/
def State.regView (s : State) (r : Reg) (u i j : Nat) : Nat :=
  if r.base < 0x8010000000 then s.cluView r u i j
  else if r.base = LNK_CTL.base ∧ s.get LNK_CTL_state u = lnkTraining then nput (s.rreg r u i j) 32 16 0
  else if r.base = PRT_CORESUM.base then s.coreSum i
  else if r.base = SEC_STAT.base then s.rreg r 0 + s.rot.sessions.length * 2 ^ 32 + s.rot.pend.length * 2 ^ 48
  else if r.base = SEC_LNKSLOT.base then s.slotView i
  else if r.base = PCI_POOL.base then s.buffersFree
  else if r.base = PWR_HOLD.base then nput (nput (s.rreg r 0) 0 1 (b2n s.beHot)) 1 1 (b2n s.lcHot)
  else if r.base = EVR_NONCE.base then s.evrNonce
  else if r.base = EVR_KEYID.base then Config.evrKeyId % 2 ^ 64
  else s.rreg r u i j

/-- The PCI_, CHN_ or MBX_ register that stands at an offset of the I/O dies' blocks: Table 2.4 puts them there for Aselo, and their places
in the blocks are not given (R39, R40). (Log 180 DESIGN CHOICE) -/
def ioRegAt (a : Nat) : Option (Reg × Nat × Nat × Nat) :=
  if 0x8030000000 ≤ a ∧ a < regTop then (Config.ioPlace (a - 0x8030000000)).bind fun o => regAt (2 ^ 46 + o) else none

/-- The register that an offset names: I/O die 1 holds the PRT_ and SEC_ values of die 0 and no EVR_ or PWR_ block (R479, R506, R529, R554). (Log 13 DEDUCED) -/
def regOf (a : Nat) : Option (Reg × Nat × Nat × Nat) :=
  match (if 0x8030140000 ≤ a ∧ a < 0x8030160000 then regAt (a - 0x100000) else regAt a) with
  | some x => some x
  | none => ioRegAt a

/-- The 8-byte register at an offset as a read returns it; an offset with no register reads zero (R6). (Log 8 DEDUCED) -/
def State.readReg (s : State) (a : Nat) : Nat :=
  match regOf (a - a % 8) with
  | some (r, u, i, j) => s.regView r u i j
  | none => 0

/-- A byte of the resume record's region, counted from BAR0 0x060_0000 (Tables 14.11, 14.12); a power-on reset clears it to zero
(R419). -/
def State.resumeByte (s : State) (a : Nat) : Byte :=
  let r := s.resume
  if r.cause = 0 then 0
  else
    let word :=
      if a < 64 then
        (if a < 16 then 0x52455355 + 2 ^ 32 + r.cause * 2 ^ 48 + r.inc % 2 ^ 32 * 2 ^ 64 else if a < 32 then r.tick % 2 ^ 64 else 0)
      else
        let e := tget (0, 0, 0, 0, 0) r.chans ((a - 64) / 16)
        e.1 % 2 ^ 32 + e.2.1 % 2 ^ 32 * 2 ^ 32 + e.2.2.1 % 2 ^ 32 * 2 ^ 64 + e.2.2.2.1 % 8 * 2 ^ 96 + e.2.2.2.2 % 256 * 2 ^ 104
    BitVec.ofNat 8 (nfld word (8 * (a % 16)) 8)

end Sys2Proof.Machine
end

