-- ==== Sys2Proof/Machine/Evr.lean ====
section
/-!
DEFINITION. The event recorder (chapter "Faults, recovery under ordering promises, and the event recorder", R518 to R529): intake,
token buckets, the ring, snapshots, reading, clearing and configuration.
-/
namespace Sys2Proof.Machine

open Sys2Proof

/-- Change the recorder. -/
def State.modEvr (s : State) (f : Recorder → Recorder) : State := { s with evr := f s.evr }

/-! ### Buckets and intake (R518, R519) -/

/-- Do two events come from one source unit. (Log 142 DEDUCED) -/
def sameSource (a b : Event) : Bool := a.unit == b.unit && a.src == b.src

/-- EVR_CODE entry that overrides a code. -/
def State.evrOver (s : State) (code : Nat) : Option Nat :=
  (List.range 64).find? fun i => s.get EVR_CODE_valid 0 i == 1 && s.get EVR_CODE_code 0 i == code

/-- Rate and depth of a code's bucket. -/
def State.evrRate (s : State) (code : Nat) : Nat × Nat :=
  match s.evrOver code with
  | some i => (s.get EVR_CODE_rate 0 i, s.get EVR_CODE_depth 0 i)
  | none => (32, 32)

/-- Codes of block 0x0F are never limited. -/
def freeCode (code : Nat) : Bool := code / 256 == 0x0F

/-- Snapshot list of a code (R523). (Log 145 DEDUCED) -/
def State.snapList (s : State) (code : Nat) : Option Nat :=
  (List.range 256).find? fun i => s.get EVR_SNAP_valid 0 i 0 == 1 && s.get EVR_SNAP_code 0 i 0 == code

/-- Room of the intake queue. -/
def intakeCap : Nat := 512

/-- EVENT_INTAKE: an event that no earlier one of its unit precedes is taken; it enters the queue, or is suppressed. (Log 144 DEDUCED) -/
def State.intake (s : State) (i : Nat) : State :=
  match s.evr.raised.drop i with
  | [] => s
  | e :: _ =>
    if (s.evr.raised.take i).any (sameSource e) then s
    else
      let e1 : Event := { e with tick := s.tick, inc := s.incarnation, snaps := if (s.snapList e.code).isSome then none else some [] }
      let s1 := s.modEvr fun x =>
        { x with raised := x.raised.take i ++ x.raised.drop (i + 1),
                 aselo := if e.code = 0x05F1 ∨ e.code = 0x06F1 then x.aselo ++ [(e.code, e.unit, e.detail)] else x.aselo }
      let missing := tget 0 s.evr.buckets e.code
      if freeCode e.code then s1.modEvr fun x => { x with queue := x.queue ++ [e1] }
      else
        let token := decide (missing < (s.evrRate e.code).2)
        let s2 := if token then s1.modEvr fun x => { x with buckets := tset 0 x.buckets e.code (missing + 1) } else s1
        if token = true ∧ s.evr.queue.length < intakeCap then s2.modEvr fun x => { x with queue := x.queue ++ [e1] }
        else (s2.modEvr fun x => { x with suppressed := tset 0 x.suppressed e.code (satAdd 32 (tget 0 x.suppressed e.code) 1) }).bump EVR_CNT_suppressed 0

/-- EVENT_BUCKET_GAIN: one token, while the bucket is not full. (Log 4 DESIGN CHOICE) -/
def State.bucketGain (s : State) (code : Nat) : State := s.modEvr fun x => { x with buckets := tset 0 x.buckets code (tget 0 x.buckets code - 1) }

/-! ### Snapshots (R523) -/

/-- Register block of a raising unit. -/
def unitBase (e : Event) : Option Nat :=
  if e.unit = 0xFFFF then none
  else match e.src with
    | 6 => some (0x8010000000 + e.unit * 0x10000)
    | 7 => some (0x8020000000 + e.unit * 0x10000)
    | 8 => some (2 ^ 46 + e.unit * 0x1000)
    | _ => some (0x8000000000 + e.unit * 0x10000)

/-- Value of one snapshot entry. -/
def State.snapValue (s : State) (e : Event) (v : Nat) : Nat :=
  let off := nfld v 3 43 * 8
  let at_ := if nbit v 1 then (if e.part = 0xFF then some off else none) else (unitBase e).map (· + off)
  match at_ with
  | none => 0
  | some a =>
    match regOf a with
    | some (r, _, _, _) => if r.base = CTL_CQ_POP.base ∨ r.base = CTL_DRAW.base then 0 else s.readReg a
    | none => 0

/-- Valid entries of a list, from the first. -/
def State.snapEntries (s : State) (i : Nat) : List Nat := ((List.range 16).map fun j => s.rreg EVR_SNAP 0 i j).takeWhile fun v => nbit v 0

/-- EVENT_SNAPSHOT: the registers of the list of the i-th queued event are read. -/
def State.snapshot (s : State) (i : Nat) : State :=
  match s.evr.queue.drop i with
  | [] => s
  | e :: _ =>
    if e.snaps.isSome then s
    else
      let vals := match s.snapList e.code with | some k => (s.snapEntries k).map (s.snapValue e) | none => []
      s.modEvr fun x => { x with queue := x.queue.take i ++ { e with snaps := some vals } :: x.queue.drop (i + 1) }

/-! ### The ring (R520, R522) -/

/-- Entries of the ring. -/
def ringCap : Nat := 8192

/-- Entries of an event. -/
def Event.size (e : Event) : Nat := 1 + cdiv (e.snaps.getD []).length 7

/-- Entries in use. -/
def ringUsed (l : List (Nat × Event)) : Nat := l.foldl (fun n p => n + p.2.size) 0

/-- Overwrite the oldest events until `n` more entries fit: what stays, and how many went. -/
def ringRoom (n : Nat) : List (Nat × Event) → List (Nat × Event) × Nat
  | [] => ([], 0)
  | x :: t => if ringUsed (x :: t) + n ≤ ringCap then (x :: t, 0) else let q := ringRoom n t; (q.1, q.2 + 1)

/-- EVENT_WRITE: the first queued event, once its snapshot is read, receives its number and enters the ring whole. -/
def State.eventWrite (s : State) : State :=
  match s.evr.queue with
  | [] => s
  | e :: t =>
    if e.snaps.isNone then s
    else
      let seq := s.get EVR_STAT_next_seq 0
      let e1 : Event := { e with suppressed := tget 0 s.evr.suppressed e.code }
      let q := ringRoom e1.size s.evr.ring
      let oldest := if q.2 = 0 then s.get EVR_STAT_oldest 0 else match q.1 with | x :: _ => x.1 | [] => seq
      let s1 := s.modEvr fun x => { x with queue := t, ring := q.1 ++ [(seq, e1)], suppressed := tset 0 x.suppressed e.code 0 }
      ((s1.bump EVR_CNT_overwritten 0 0 0 q.2).put EVR_STAT_oldest 0 oldest).put EVR_STAT_next_seq 0 (seq + 1)

/-- Primary entry (Table 18.4). -/
def primary (seq : Nat) (e : Event) : List Byte :=
  leBytes 4 seq ++ leBytes 2 e.code ++ leBytes 1 1 ++ leBytes 1 (e.snaps.getD []).length ++ leBytes 8 e.tick ++ leBytes 4 e.inc ++ leBytes 2 e.reason ++
    leBytes 1 e.part ++ leBytes 1 e.gen ++ leBytes 4 e.suppressed ++ leBytes 2 e.unit ++ leBytes 1 e.sub ++ leBytes 1 0 ++ leBytes 2 e.tag ++
    leBytes 2 e.span ++ leBytes 4 e.oseq ++ leBytes 2 e.stream ++ leBytes 1 e.tflags ++ leBytes 5 0 ++ leBytes 16 e.detail

/-- All entries of an event (Table 18.5). -/
def Event.entries (e : Event) (seq : Nat) : List Byte :=
  let vals := e.snaps.getD []
  primary seq e ++ (List.range (cdiv vals.length 7)).flatMap fun k =>
    leBytes 4 seq ++ leBytes 2 e.code ++ leBytes 1 2 ++ leBytes 1 (k + 1) ++ (List.range 7).flatMap fun i => leBytes 8 (lget 0 vals (7 * k + i))

/-! ### Reading (R525) -/

/-- Sequence number of the most recent creation of a partition that the ring holds. -/
def State.lastMade (s : State) (p : Nat) : Option Nat := ((s.evr.ring.filter fun x => x.2.code == 0x0AF1 && x.2.part == p).getLast?).map (·.1)

/-- May a mailbox's owner see an event. -/
def State.evVisible (s : State) (b : Nat) (x : Nat × Event) : Bool :=
  b == 0 || (x.2.part == boxOwner b && (match s.lastMade (boxOwner b) with | some n => decide (n < x.1) | none => true))

/-- Scan: events to return, entries and events left, and where the scan ends. -/
def State.evScan (s : State) (b : Nat) : List (Nat × Event) → Nat → Nat → Nat → List (Nat × Event) × Nat
  | [], _, _, next => ([], next)
  | x :: t, count, room, next =>
    if count = 0 then ([], next)
    else if s.evVisible b x then
      (if x.2.size ≤ room then let q := s.evScan b t (count - 1) (room - x.2.size) (x.1 + 1); (x :: q.1, q.2) else ([], next))
    else s.evScan b t count room (x.1 + 1)

/-- EVR_READ. -/
def State.evrRead (s : State) (b : Nat) (r : List Byte) : State :=
  let count := mPay r 4 2
  if mHandle r ≠ 0 ∨ mPayLen r ≠ 8 ∨ zeros r 38 2 = false ∨ count = 0 ∨ 63 < count then s.mbxRespond b 0x0904 0 []
  else
    let oldest := s.get EVR_STAT_oldest 0
    let start := Nat.max (mPay r 0 4) oldest
    let q := s.evScan b (s.evr.ring.filter fun x => decide (start ≤ x.1)) count 63 start
    s.mbxRespond b 0 0 (leBytes 4 q.2 ++ leBytes 4 oldest ++ leBytes 2 q.1.length ++ List.replicate 22 0 ++ q.1.flatMap fun x => x.2.entries x.1)

/-! ### Tokens (R526 to R528) -/

/-- Overrides of a configure token: code, rate, depth. -/
def tokOver (t : List Byte) : List (Nat × Nat × Nat) :=
  (List.range (leAt t 7 1)).map fun i => (leAt t (64 + 8 * i) 2, leAt t (66 + 8 * i) 1, leAt t (67 + 8 * i) 1)

/-- Is a token well formed (check 1 of Table 18.8). -/
def tokOk (t : List Byte) : Bool :=
  let kind := leAt t 6 1
  let n := leAt t 7 1
  leAt t 0 4 == 0x52454C43 && leAt t 4 2 == 1 && (kind == 1 || kind == 2) && decide (n ≤ 32) && (kind == 2 || n == 0) && t.length == 128 + 8 * n &&
    zeros t 20 4 && zeros t 36 28 && (kind == 1 || leAt t 32 4 == 0) &&
    ((tokOver t).all fun o => o.2.1 != 0 && o.2.2 != 0) && (List.range n).all fun i => zeros t (68 + 8 * i) 4

/-- Checks of Table 18.8. -/
def State.tokChecks (s : State) (t : List Byte) : List (Bool × Nat) :=
  let body := t.take (t.length - 64)
  let codes := (tokOver t).map (·.1)
  [ (tokOk t, 0x0F11), (Config.clearKey.isSome, 0x0F12),
    ((match Config.clearKey with | some k => Config.edVerify k (Config.sha512 body) (t.drop (t.length - 64)) | none => false), 0x0F13),
    (leAt t 8 8 == Config.serial && leAt t 16 4 == s.incarnation && leAt t 24 8 == s.evrNonce, 0x0F14),
    (leAt t 6 1 == 2 || decide (leAt t 32 4 < s.get EVR_STAT_next_seq 0), 0x0F15),
    (leAt t 6 1 == 1 || (nodupB codes && !(codes.any freeCode)), 0x0F16) ]

/-- A fresh nonce, and the event that a token leaves. -/
def State.tokDone (s : State) (code detail : Nat) : State := (s.modEvr fun x => { x with draws := x.draws + 1 }).event code 0xFFFF 0xFF detail

/-- Clear (R528). (Log 146 DEDUCED) -/
def State.evrClear (s : State) (upTo : Nat) : State :=
  let gone := (s.evr.ring.filter fun x => decide (x.1 ≤ upTo)).length
  let s1 := s.modEvr fun x => { x with ring := x.ring.filter fun x => !(decide (x.1 ≤ upTo)) }
  (s1.put EVR_STAT_oldest 0 (Nat.max (s.get EVR_STAT_oldest 0) (upTo + 1))).tokDone 0x0FF0 (packDetail [(upTo, 4), (gone, 4), (Config.evrKeyId, 8)])

/-- EVR_CODE entries that a list of overrides fills: a matching one, else the lowest free one. -/
def State.overPut (s : State) (o : Nat × Nat × Nat) : Option State :=
  let place := match s.evrOver o.1 with
    | some i => some i
    | none => (List.range 64).find? fun i => s.get EVR_CODE_valid 0 i == 0
  match place with
  | none => none
  | some i =>
    let tokens := (s.evrRate o.1).2 - tget 0 s.evr.buckets o.1
    let s1 := s.wreg EVR_CODE 0 i 0 (o.1 + 2 ^ 16 + o.2.1 * 2 ^ 24 + o.2.2 * 2 ^ 32)
    some (s1.modEvr fun x => { x with buckets := tset 0 x.buckets o.1 (o.2.2 - Nat.min tokens o.2.2) })

/-- All overrides, or none. -/
def State.overAll (s : State) : List (Nat × Nat × Nat) → Option State
  | [] => some s
  | o :: t => match s.overPut o with
    | none => none
    | some s1 => s1.overAll t

/-- Refuse a token. -/
def State.tokRefuse (s : State) (b code : Nat) : State := (s.put EVR_CTL_reason 0 code).mbxRespond b code 0 []

/-- EVR_CLEAR and EVR_CONFIGURE: the token's kind tells which. -/
def State.evrToken (s : State) (b : Nat) (r : List Byte) : State :=
  let t := mPayBytes r 0 (mPayLen r)
  let code := firstFail (s.tokChecks t)
  if mHandle r ≠ 0 then s.mbxRespond b 0x0904 0 []
  else if code ≠ 0 then s.tokRefuse b code
  else if leAt t 6 1 = 1 then (s.evrClear (leAt t 32 4)).mbxRespond b 0 0 []
  else match s.overAll (tokOver t) with
    | none => s.tokRefuse b 0x0F17
    | some s1 => (s1.tokDone 0x0FF1 (packDetail [(leAt t 7 1, 1), (Config.evrKeyId, 8)])).mbxRespond b 0 0 []

/-- Does a request carry a configure token. -/
def configures (r : List Byte) : Bool := mPay r 6 1 == 2

/-! ### The commands -/

/-- EVENT_INTAKE (R518). -/
def execEventIntake (i : Nat) (s : State) : Host.Outcome State Fault Refusal := .next (s.intake i)

/-- EVENT_WRITE (R522). -/
def execEventWrite (s : State) : Host.Outcome State Fault Refusal := .next s.eventWrite

/-- EVENT_BUCKET_GAIN (R519). -/
def execEventBucketGain (code : Nat) (s : State) : Host.Outcome State Fault Refusal := .next (s.bucketGain code)

/-- EVENT_SNAPSHOT (R523). -/
def execEventSnapshot (i : Nat) (s : State) : Host.Outcome State Fault Refusal := .next (s.snapshot i)

/-- EVR_READ (R525). -/
def execEvrRead (b : Mbx) (s : State) : Host.Outcome State Fault Refusal := .next (s.mbxServe b 0x0172 fun s r => s.evrRead b r)

/-- EVR_CLEAR (R528). -/
def execEvrClear (b : Mbx) (s : State) : Host.Outcome State Fault Refusal :=
  .next (s.mbxServe b 0x0173 fun s r => if configures r then s else s.evrToken b r)

/-- EVR_CONFIGURE (R528). -/
def execEvrConfigure (b : Mbx) (s : State) : Host.Outcome State Fault Refusal :=
  .next (s.mbxServe b 0x0173 fun s r => if configures r then s.evrToken b r else s)

end Sys2Proof.Machine
end

