-- ==== Sys2Proof/Machine/Phys.lean ====
section
/-!
DEFINITION. Power, clocks, reset and the test access (chapter "Power, clocks, reset, mechanics and the efficiency envelope"): start-up,
trips and their end, power measurement, standby, the SMBus target and the test access port.
-/
namespace Sys2Proof.Machine

open Sys2Proof

/-- Change the power controller. -/
def State.modPwr (s : State) (f : Power → Power) : State := { s with pwr := f s.pwr }

/-! ### Start-up (R546, Table 19.8) -/

/-- Aselo trains HBM3 and enables every trained channel (R227). (Log 149 DEDUCED) -/
def State.hbmUp (s : State) : State :=
  (List.range 128).foldl (fun (s : State) ch =>
    let s1 := s.put HBM_CTL_trained ch (b2n (Config.trainOk ch))
    s1.enable HBM_CTL_en HBM_CTL_reason ch 0 0 (BitVec.ofNat 64 (s1.rreg HBM_CTL ch ||| 1)) (hbmChecks ch)) s

/-- Order 6: Aselo runs, HBM3 is trained, on-chip memory is clear, the mailboxes are ready or absent. (Log 145 DEDUCED, 148 DESIGN CHOICE) -/
def State.aseloUp (s : State) : State :=
  let s1 := (s.hbmUp.wipe 0 onchipTop).modSys fun x => { x with up := true }
  let s2 := (List.range 16).foldl (fun (s : State) p => s.mbxState (p + 1) (if s.partExists p then 1 else 3)) s1
  (s2.mbxState 0 1).managerQuota

/-- Orders 4 to 6. (Log 147 DESIGN CHOICE, 148 DESIGN CHOICE) -/
def State.boot (s : State) : State :=
  if s.booting then (let s1 := s.rotBoot; if s1.booted then s1.aseloUp else s1) else s

/-- What survives the loss of every rail: fuses and boot flash, and the model's own counters; the test access port and PERST# are pins. -/
def State.coldState (s : State) (pwr : Power) : State :=
  { State.reset with
      rot := { Rot.init with draws := s.rot.draws, flash := s.rot.flash, svnMin := s.rot.svnMin },
      evr := { Recorder.init with draws := s.evr.draws + 1 }, pwr := pwr, opens := s.opens, pending := s.pending,
      pcie := { Pcie.init with perst := s.pcie.perst } }

/-- POWER_ON: orders 1 to 3, once the input has been below the lockout. -/
def State.powerOn (s : State) : State := if s.pwr.off then s.coldState Power.init else s

/-- UVLO_FALL: every rail turns off, always-on SRAM included. (Log 150 DESIGN CHOICE) -/
def State.uvlo (s : State) : State := if s.pwr.off then s else s.coldState { Power.init with off := true, pwrok := false }

/-! ### Trips (R538, R539) -/

/-- Does a register stay through a trip: the event recorder's and the power controller's. -/
def isOnReg (a : Nat) : Bool := decide (0x8030060000 ≤ a) && decide (a < 0x8030080000)

/-- A trip: rails off but the always-on rail. The resume record's copy is made here, where its live record ends. (Log 150 DESIGN CHOICE, 151 DEDUCED) -/
def State.trip (s : State) (code : Nat) : State :=
  if s.pwr.off ∨ s.pwr.tripped then s
  else
    let s1 := (s.event code 0xFFFF 0xFF 0).resumeCopy 2
    let r := s1.coldState { s1.pwr with tripped := true, tripSeen := true, alert := true, therm := s1.pwr.therm || code == 0x0E32, pwrok := false }
    { r with regs := s1.regs.filter fun p => isOnReg p.1, evr := s1.evr, tap := s1.tap, resume := s1.resume, incarnation := s1.incarnation, tick := s1.tick,
             rot := { r.rot with epoch := s1.rot.epoch, unlocked := s1.rot.unlocked } }

/-- Does an input voltage lie in the operating range, and in the degraded range (Table 19.1). (Log 153 DEDUCED) -/
def inRange (mv : Nat) : Bool := decide (44000 ≤ mv) && decide (mv ≤ 56000)
def inDegraded (mv : Nat) : Bool := (decide (40000 ≤ mv) && decide (mv < 44000)) || (decide (56000 < mv) && decide (mv ≤ 58000))

/-- MRST: a warm module reset, and the way out of a trip. (Log 151 DEDUCED, 153 DEDUCED, 154 DEDUCED) -/
def State.mrst (s : State) : State :=
  if s.pwr.off = false ∧ s.get PWR_TEMP_die_max 0 < s.get PWR_CAP_t_soft 0 ∧ inRange (s.get PWR_MEAS_vin_mv 0) = true ∧
      (s.pwr.tripped = true ∨ s.absorbs = false) then
    (if s.pwr.tripped then s.moduleReset 3 else s.resetWarm).modPwr fun x => { x with tripped := false, therm := false, pwrok := true }
  else s

/-- A warm reset that WARM_RESET has begun (R544). -/
def State.warmDue (s : State) : State := if s.resetDue = 2 then s.moduleReset 2 else s

/-! ### Measurement (R533, R535) -/

/-- INPUT_DEGRADED: an entry to the degraded range. -/
def State.degrade (s : State) (mv : Nat) : State :=
  if s.pwr.off then s
  else if inDegraded mv = false then (if inRange mv then s.modPwr fun x => { x with degraded := false } else s)
  else if s.pwr.degraded then s
  else (s.modPwr fun x => { x with degraded := true, alert := true }).event 0x0E34 0xFFFF 0xFF 0

/-- Samples that P_avg covers. (Log 155 DEDUCED) -/
def sampleCap : Nat := 1024

/-- POWER_SAMPLE. (Log 155 DEDUCED) -/
def State.sample (s : State) (mv iin watts die hbm inlet outlet dieId : Nat) : State :=
  if s.pwr.off then s
  else
    let all := s.pwr.samples ++ [watts]
    let l := all.drop (all.length - sampleCap)
    let avg := l.foldl (fun a b => a + b) 0 / l.length
    let s1 := s.modPwr fun x => { x with samples := l, degraded := x.degraded && !(inRange mv) }
    (s1.wreg PWR_MEAS 0 0 0 (mv % 2 ^ 16 + iin % 2 ^ 16 * 2 ^ 16 + avg % 2 ^ 13 * 2 ^ 32)).wreg PWR_TEMP 0 0 0
      (die % 256 + hbm % 256 * 2 ^ 8 + inlet % 256 * 2 ^ 16 + outlet % 256 * 2 ^ 24 + dieId % 16 * 2 ^ 32)

/-- Checks of Table 19.19. -/
def pwrChecks (s : State) : List (Bool × Nat) :=
  let cap := s.get PWR_CAP_cap_w 0
  let pct := s.get PWR_CAP_soft_pct 0
  [ (decide (1000 ≤ cap) && decide (cap ≤ 4800), 0x0E11), (decide (50 ≤ pct) && decide (pct ≤ 99), 0x0E12),
    (decide (s.get PWR_CAP_t_soft 0 < s.get PWR_CAP_t_hard 0) && decide (s.get PWR_CAP_t_hard 0 < 105), 0x0E13) ]

/-! ### PERST#, standby and idle crofts (R543, R547) -/

/-- PERST: asserted, the link is lost; deasserted, the endpoint may train. -/
def State.perstPin (s : State) (v : Bool) : State :=
  if v then (s.linkLoss).modPcie fun x => { x with perst := true } else s.modPcie fun x => { x with perst := false }

/-- Is an offset a register of a cluster. -/
def isCluReg (a : Nat) : Bool := decide (regBase ≤ a) && decide (a < 0x8010000000)

/-- STANDBY_ENTRY: the compute and Hayloft rails are off, and what they held is lost; HBM3 keeps its contents. (Log 152 DEDUCED) -/
def State.standby (s : State) : State :=
  if s.parts.isEmpty = false ∨ s.sys.up = false then s
  else
    let s1 := { s.wipe 0 onchipTop with clu := [], regs := s.regs.filter fun p => !(isCluReg p.1) }
    s1.put PWR_STATE_standby 0 1

/-- CROFT_IDLE: nothing of the owning partition runs, is pending or is resuming. -/
def State.croftIdle (s : State) (k : Nat) : State :=
  let p := (s.croftPart k).1
  let busy := decide (p < 16) && (((s.instsOf p).any fun i => s.instActive i) || (s.part p).be.isSome || s.returning p ||
    (match s.loopOf p with | some l => l.phase == 2 || l.phase == 3 | none => false))
  if busy then s else s.put PWR_STATE_croft_idle 0 (nput (s.get PWR_STATE_croft_idle 0) k 1 1)

/-! ### The SMBus target (R551) -/

/-- The target answers a read; below the lockout it does not. -/
def State.smbPut (s : State) (v : Nat) : State := s.modPwr fun x => { x with smb := if x.off then none else some (v % 2 ^ 16) }

/-- STATUS word. -/
def State.smbWord (s : State) : Nat :=
  b2n s.pwr.pwrok + 2 * b2n s.beHot + 4 * b2n s.lcHot + 8 * b2n s.pwr.tripSeen + 16 * s.get PWR_STATE_standby 0

/-- SMB_STATUS: SMBALERT# is released. -/
def State.smbStatus (s : State) : State :=
  if s.pwr.off then s.smbPut 0 else (s.smbPut s.smbWord).modPwr fun x => { x with alert := false, tripSeen := false }

/-- SMB_CAP_WRITE. (Log 157 DEDUCED) -/
def State.smbCap (s : State) (watts : Nat) (pec : Bool) : State :=
  if s.pwr.off ∨ pec = false then s.modPwr fun x => { x with smb := none }
  else if watts < 1000 ∨ 4800 < watts then (s.put PWR_CTL_reason 0 0x0E21).event 0x0E21 0xFFFF 0xFF 0
  else s.put PWR_CAP_cap_w 0 watts

/-- SMB_ALERT_RESPONSE: the module answers while it asserts SMBALERT#. (Log 156 PRESUMED) -/
def State.smbAlert (s : State) : State := s.modPwr fun x => { x with smb := if x.alert && !x.off then some 0x5C else none }

/-! ### The test access port (R552, R553) -/

/-- Select an instruction with what its register shifts out. -/
def State.tapSel (s : State) (ir dr : Nat) : State := { s with tap := { s.tap with ir := ir, dr := dr, drive := false } }

/-- TAP_EXTEST: only once debug-unlocked; what the chain captures from the pins is not the model's. (Log 158 DESIGN CHOICE) -/
def State.tapExtest (s : State) (shift : Nat) : State :=
  if s.rot.unlocked then
    { s with opens := s.opens + 1, tap := { s.tap with ir := 0x03, dr := Config.free 552 s.opens 0 0, chain := shift, drive := true } }
  else s.tapSel 0xFF 0

/-- TAP_CHALLENGE: 64 bits that the root of trust draws. -/
def State.tapChallenge (s : State) : State :=
  let q := s.rand
  let v := q.2 % 2 ^ 64
  { q.1 with tap := { q.1.tap with ir := 0x11, dr := v, drive := false, challenge := some v } }

/-- Is an UNLOCK token valid. -/
def State.tokenValid (s : State) (t : List Byte) : Bool :=
  t.length == 128 && leAt t 0 8 == Config.serial && s.tap.challenge == some (leAt t 8 8) && zeros t 16 48 &&
    Config.edVerify (Config.fusedKey 1) (Config.sha512 (t.take 64)) (t.drop 64)

/-- TAP_UNLOCK: a valid token zeroizes every key, blocks the secret and starts a warm module reset; the challenge is used up. (Log 154 DEDUCED) -/
def State.tapUnlock (s : State) (t : List Byte) : State :=
  let s1 := { s with tap := { s.tap with ir := 0x10, dr := 0, drive := false, challenge := none } }
  if s.tokenValid t then
    let s2 := { s1 with keys := [], rot := { s1.rot with sessions := [], pend := [], report := [], unlocked := true } }
    if s2.absorbs then s2 else s2.resetWarm
  else s1.event 0x0E51 0xFFFF 0xFF 0

/-! ### The commands -/

/-- POWER_ON (R546). -/
def execPowerOn (s : State) : Host.Outcome State Fault Refusal := .next s.powerOn

/-- UVLO_FALL (R533). -/
def execUvloFall (s : State) : Host.Outcome State Fault Refusal := .next s.uvlo

/-- INPUT_DEGRADED (R533). -/
def execInputDegraded (mv : Nat) (s : State) : Host.Outcome State Fault Refusal := .next (s.degrade mv)

/-- OVERVOLTAGE_TRIP (R538). -/
def execOvervoltageTrip (s : State) : Host.Outcome State Fault Refusal := .next (s.trip 0x0E33)

/-- OVERPOWER_TRIP (R538). -/
def execOverpowerTrip (s : State) : Host.Outcome State Fault Refusal := .next (s.trip 0x0E31)

/-- THERMAL_TRIP (R538). -/
def execThermalTrip (s : State) : Host.Outcome State Fault Refusal := .next (s.trip 0x0E32)

/-- POWER_SAMPLE (R535). -/
def execPowerSample (mv iin watts die hbm inlet outlet dieId : Nat) (s : State) : Host.Outcome State Fault Refusal :=
  .next (s.sample mv iin watts die hbm inlet outlet dieId)

/-- MRST (R539). -/
def execMrst (s : State) : Host.Outcome State Fault Refusal := .next s.mrst

/-- PERST (R547). -/
def execPerst (asserted : Bool) (s : State) : Host.Outcome State Fault Refusal := .next (s.perstPin asserted)

/-- STANDBY_ENTRY (R543). -/
def execStandbyEntry (s : State) : Host.Outcome State Fault Refusal := .next s.standby

/-- CROFT_IDLE (R543). -/
def execCroftIdle (k : Part) (s : State) : Host.Outcome State Fault Refusal := .next (s.croftIdle k)

/-- PWR_CTL_EN (R555). -/
def execPwrCtlEn (v : Word) (s : State) : Host.Outcome State Fault Refusal := .next (s.enable PWR_CTL_en PWR_CTL_reason 0 0 0 v pwrChecks)

/-- SMB_STATUS (R551). -/
def execSmbStatus (s : State) : Host.Outcome State Fault Refusal := .next s.smbStatus

/-- SMB_VIN (R551). -/
def execSmbVin (s : State) : Host.Outcome State Fault Refusal := .next (s.smbPut (s.get PWR_MEAS_vin_mv 0))

/-- SMB_IIN (R551). -/
def execSmbIin (s : State) : Host.Outcome State Fault Refusal := .next (s.smbPut (s.get PWR_MEAS_iin 0))

/-- SMB_PIN (R551). -/
def execSmbPin (s : State) : Host.Outcome State Fault Refusal := .next (s.smbPut (s.get PWR_MEAS_pavg_w 0))

/-- SMB_TDIE (R551). -/
def execSmbTdie (s : State) : Host.Outcome State Fault Refusal := .next (s.smbPut (s.get PWR_TEMP_die_max 0))

/-- SMB_THBM (R551). -/
def execSmbThbm (s : State) : Host.Outcome State Fault Refusal := .next (s.smbPut (s.get PWR_TEMP_hbm_max 0))

/-- SMB_TIN (R551). -/
def execSmbTin (s : State) : Host.Outcome State Fault Refusal := .next (s.smbPut (s.get PWR_TEMP_inlet 0))

/-- SMB_TOUT (R551). -/
def execSmbTout (s : State) : Host.Outcome State Fault Refusal := .next (s.smbPut (s.get PWR_TEMP_outlet 0))

/-- SMB_CAUSE (R551). -/
def execSmbCause (s : State) : Host.Outcome State Fault Refusal := .next (s.smbPut (s.get PWR_STATE_cause 0))

/-- SMB_CAP_READ (R551). -/
def execSmbCapRead (s : State) : Host.Outcome State Fault Refusal := .next (s.smbPut (s.get PWR_CAP_cap_w 0))

/-- SMB_CAP_WRITE (R551). -/
def execSmbCapWrite (watts : Nat) (pec : Bool) (s : State) : Host.Outcome State Fault Refusal := .next (s.smbCap watts pec)

/-- SMB_ALERT_RESPONSE (R551). -/
def execSmbAlertResponse (s : State) : Host.Outcome State Fault Refusal := .next s.smbAlert

/-- TAP_BYPASS (R552). -/
def execTapBypass (s : State) : Host.Outcome State Fault Refusal := .next (s.tapSel 0xFF 0)

/-- TAP_IDCODE (R552). -/
def execTapIdcode (s : State) : Host.Outcome State Fault Refusal := .next (s.tapSel 0x01 0x1C401A0B)

/-- TAP_SAMPLE_PRELOAD (R552). -/
def execTapSamplePreload (pins shift : Nat) (s : State) : Host.Outcome State Fault Refusal :=
  .next { s with tap := { s.tap with ir := 0x02, dr := pins, chain := shift, drive := false } }

/-- TAP_EXTEST (R552). -/
def execTapExtest (shift : Nat) (s : State) : Host.Outcome State Fault Refusal := .next (s.tapExtest shift)

/-- TAP_CHALLENGE (R552). -/
def execTapChallenge (s : State) : Host.Outcome State Fault Refusal := .next s.tapChallenge

/-- TAP_UNLOCK (R553). -/
def execTapUnlock (token : List Byte) (s : State) : Host.Outcome State Fault Refusal := .next (s.tapUnlock token)

/-- TAP_TEST_RESET (R552): IDCODE is selected. -/
def execTapTestReset (s : State) : Host.Outcome State Fault Refusal := .next { s with tap := { s.tap with ir := 0x01, dr := 0x1C401A0B, drive := false } }

end Sys2Proof.Machine
end

