-- ==== Sys2Proof/Machine/Access.lean ====
section
/-!
DEFINITION. Register writes of the whole module: what a write of Aselo to a register block, or of the host to BAR0, does beyond its
plain fields (R6, R7, R40, R247, R393), and the time that passes while no command waits.
-/
namespace Sys2Proof.Machine

open Sys2Proof

/-! ### Writes of Aselo -/

/-- A write as a whole 8-byte write: bits that the access does not cover keep their value, and clear nothing. (Log 9 DEDUCED) -/
def State.merged (s : State) (r : Reg) (u i j v mask : Nat) : Nat :=
  let old := s.rreg r u i j
  (old - (old &&& (mask ||| r.w1c))) ||| (v &&& mask)

/-- A block's enable register: 1 runs the checks, 0 clears the bit, and an access without the bit leaves it. (Log 9 DEDUCED) -/
def State.enWrite (_s : State) (low : Bool) (w : Word) (on off plain : State) : State :=
  if !low then plain else if nbit w.toNat 0 then on else off

/-- Cluster block: `w` is the whole write, `low` tells that it covers the low half. -/
def State.cluWrite (s : State) (r : Reg) (c i j : Nat) (w : Word) (low : Bool) (v mask : Nat) : State :=
  let plain := s.accessWrite r c i j v mask
  if r.base = CLU_ALIAS_CTL.base then s.enWrite low w (s.aliasEnable c w) plain plain
  else if r.base = CLU_CORE_CTL.base then (if low then s.coreCtlWrite c w else plain)
  else if r.base = CLU_IMEM_LOAD.base then (if low then s.imemLoad c w else plain)
  else if r.base = CLU_SCRUB.base then
    let s1 := s.enWrite low w (s.enable CLU_SCRUB_en CLU_SCRUB_reason c 0 0 w (scrubChecks c)) plain plain
    if low && nbit w.toNat 1 then s1.scrubClear c else s1
  else if r.base = CLU_CLEAR.base then (if low && nbit w.toNat 15 then s.clear c w else plain)
  else if r.base = CLU_BORROW_CFG.base then
    s.enWrite low w (s.enable CLU_BORROW_CFG_en CLU_BORROW_CFG_reason c 0 0 w (borrowChecks c)) plain plain
  else if r.base = CLU_RETURN.base then
    (if low && nfld w.toNat 0 2 == 1 then s.returnCmd c w else if low && nfld w.toNat 0 2 == 2 then s.refillCmd c w else plain)
  else if r.base = CLU_BSLOT.base then s.bslotWrite c i v mask
  else if r.base = CTL_SK_CTL.base then
    let s1 := s.enWrite low w (s.skEnable c w) (s.skDisable c w) plain
    if low && nbit w.toNat 0 && nbit w.toNat 1 then s1.cancelAll c else s1
  else if r.base = MAT_CTL.base then s.enWrite low w (s.matEnable c i w) (s.matDisable c i w) plain
  else if r.base = VEC_CTL.base then s.enWrite low w (s.stnEnable c 0x10 w (stnEnChecks c 0x10)) (s.stnDisable c 0x10 w) plain
  else if r.base = SUM_CTL.base then s.enWrite low w (s.stnEnable c 0x11 w (stnEnChecks c 0x11)) (s.stnDisable c 0x11 w) plain
  else if r.base = CNV_CTL.base then s.enWrite low w (s.stnEnable c 0x12 w (stnEnChecks c 0x12)) (s.stnDisable c 0x12 w) plain
  else if r.base = GTH_CTL.base then s.enWrite low w (s.stnEnable c 0x13 w (stnEnChecks c 0x13)) (s.stnDisable c 0x13 w) plain
  else if r.base = ADP_CTL.base then s.enWrite low w (s.adpEnable c w) (s.adpDisable c w) plain
  else if r.base = STR_CTL.base then s.enWrite low w (s.enable STR_CTL_en STR_CTL_reason c i 0 w (strCtlChecks c i)) plain plain
  else if r.base = STR_QCFG.base then s.enWrite low w (s.strQEnable c i j w) (s.strQDisable c i j w) plain
  else if r.base = STR_QCMD.base then
    (if low && nbit w.toNat 0 then s.strQResume c (32 * i + j) else if low && nbit w.toNat 1 then s.strQAbandon c (32 * i + j) else plain)
  else s.kernelWrite r c i j v mask

/-- Channel block. -/
def State.chBlockWrite (s : State) (r : Reg) (ch i j : Nat) (w : Word) (low : Bool) (v mask : Nat) : State :=
  let plain := s.accessWrite r ch i j v mask
  if r.base = HBM_CTL.base then s.enWrite low w (s.enable HBM_CTL_en HBM_CTL_reason ch 0 0 w (hbmChecks ch)) plain plain
  else if r.base = HBM_PAGE_CMD.base then (if low then s.hbmPageCmd ch w else plain)
  else if r.base = UPD_CTL.base then s.enWrite low w (s.enable UPD_CTL_en UPD_CTL_reason ch 0 0 w (updCtlChecks ch)) plain plain
  else if r.base = UPD_CMD.base then
    (if low && nfld w.toNat 4 2 == 2 then s.updApply ch (nfld w.toNat 0 4)
     else if low && nfld w.toNat 4 2 == 1 then s.updCmdVoid ch (nfld w.toNat 0 4) else plain)
  else if r.base = UPD_JOB_CFG.base then s.enWrite low w (s.updJobEnable ch i w) (s.updJobDisable ch i w) plain
  else if r.base = UPD_JOB_STEP.base then (if low then s.updStep ch i (nfld w.toNat 0 32) else plain)
  else plain

/-- Link block. -/
def State.lnkWrite (s : State) (r : Reg) (l i j : Nat) (w : Word) (low : Bool) (v mask : Nat) : State :=
  let plain := s.accessWrite r l i j v mask
  let d := l / 12
  if r.base = LNK_CTL.base then s.enWrite low w (s.linkEnable l w) (s.linkDisable l w) plain
  else if r.base = LNK_MODULE.base ∧ l = 12 * d then
    let s1 := if low && nfld w.toNat 0 12 != s.get LNK_MODULE_id l then s.idWrite d w else s
    if low && nbit w.toNat 16 then s.routeEnable d w else s1.accessWrite r l i j v mask
  else if r.base = LNK_ROUTE.base ∧ l = 12 * d then s.routeWrite d i v mask
  else plain

/-- Bits of the host interface's registers that Aselo configures (R401, R422). -/
def ioConfig (r : Reg) : Nat :=
  if r.base = CHN_CTL.base then 2 ^ 52 - 1 - 2 ^ 28 * 15 - 11
  else if r.base = CHN_SQ_BASE.base ∨ r.base = CHN_CQ_BASE.base then 2 ^ 57 - 2 ^ 12
  else if r.base = PCI_CHRATE.base then 2 ^ 49 - 1 - 3 * 2 ^ 18
  else 0

/-- Aselo writes a register of the host interface: its configuration fields, of a channel only while it is closed, and the open bit. -/
def State.hostBlockWrite (s : State) (r : Reg) (u i j : Nat) (w : Word) (low : Bool) (v mask : Nat) : State :=
  if r.base ≠ PCI_CHRATE.base ∧ s.get CHN_CTL_open u = 1 then s
  else
    let keep := ioConfig r &&& mask
    let old := s.rreg r u i j
    let s1 := s.wreg r u i j ((old - (old &&& keep)) ||| (v &&& keep))
    if r.base = CHN_CTL.base ∧ low = true ∧ nbit w.toNat 0 = true then s1.openChan u else s1

/-- Blocks of the I/O dies. (Log 157 DEDUCED) -/
def State.ioWrite (s : State) (r : Reg) (i j : Nat) (w : Word) (low : Bool) (v mask : Nat) : State :=
  let plain := s.accessWrite r 0 i j v mask
  if r.base = PRT_DIRTY_CTL.base then
    let s1 := s.enWrite low w (s.dirtyEnable i w) plain plain
    if low && nbit w.toNat 2 then s1.dirtyFlip i else s1
  else if r.base = PWR_CTL.base then s.enWrite low w (s.enable PWR_CTL_en PWR_CTL_reason 0 0 0 w pwrChecks) plain plain
  else if r.base = PWR_CAP.base then s.accessWrite r 0 i j v (mask - (mask &&& 0x1FFF))
  else plain

/-- Aselo writes `size` bytes at a module-local offset. An offset with no register ignores the write (R6). (Log 9 DEDUCED) -/
def State.regWrite (s : State) (a size v : Nat) : State :=
  match regOf (a - a % 8) with
  | none => s
  | some (r, u, i, j) =>
    let mask := accessMask a size
    let x := v % 2 ^ (8 * size) * 2 ^ (8 * (a % 8))
    let w := BitVec.ofNat 64 (s.merged r u i j x mask)
    let low := nbit mask 0
    if r.base < 0x8010000000 then s.cluWrite r u i j w low x mask
    else if r.base < 0x8020000000 then s.chBlockWrite r u i j w low x mask
    else if r.base < 0x8030000000 then s.lnkWrite r u i j w low x mask
    else if r.base < 2 ^ 46 then s.ioWrite r i j w low x mask
    else s.hostBlockWrite r u i j w low x mask

/-! ### Writes of the host (R393, R404, R413, R426) -/

/-- The host writes the MSI-X table: a vector that it unmasks sends what is pending. -/
def State.msixWrite (s : State) (off : Nat) (bs : List Byte) : State := (s.bar0Put off bs).msixUnmask ((off - msixBase) / 16)

/-- The host writes `size` bytes at a BAR0 offset. (Log 9 DEDUCED) -/
def State.hostWrite (s : State) (off size v : Nat) : State :=
  let bs := leBytes size v
  if !(bar0Permitted off size) then s.bar0Ignored off size
  else if off < 0x400000 then
    (if off % 0x1000 = 0 then s.sqDoorbell (off / 0x1000) (v % 2 ^ 32) else if off % 0x1000 = 8 then s.cqDoorbell (off / 0x1000) (v % 2 ^ 32) else s)
  else if off < 0x520000 then
    let b := (off - 0x400000) / 0x10000
    let o := off % 0x10000
    if o < 0x1000 then s.bar0Put off bs
    else if o = 0x2000 then s.mbxDoorbell b (v % 2 ^ 16)
    else if 0x2010 ≤ o then s.accessWrite MBX_IRQ b 0 0 (v % 2 ^ (8 * size) * 2 ^ (8 * (o % 8))) (accessMask o size)
    else s
  else if off < msixBase then s.accessWrite PCI_REG_WIN 0 0 0 (v % 2 ^ (8 * size) * 2 ^ (8 * (off % 8))) (accessMask off size)
  else s.msixWrite off bs

/-! ### Time (R8, R27) -/

/-- What happens in one local tick in which no command is carried out: write-backs of the scrubbers, one TLP of the endpoint, the
jobs of Aselo that wait for a channel, the start-up, and a warm reset that is due. (Log 1 DESIGN CHOICE) -/
def State.idle (s : State) : State :=
  let s1 := { s with tick := s.tick + 1 }
  let s2 := s1.clu.foldl (fun (s : State) e => if e.2.writeback.isEmpty then s else s.scrubFlush e.1) s1
  ((((s2.txOne.jobsPoll).repairsPoll).chansPoll).boot).warmDue

/-! ### The command -/

/-- REGISTER_WRITE (R7): a write of Aselo, or (offsets from 2^46) of the host to BAR0; an access that R40 does not allow does nothing. -/
def execRegisterWrite (off size : Nat) (v : Word) (s : State) : Host.Outcome State Fault Refusal :=
  if (size = 4 ∨ size = 8) ∧ off % size = 0 then
    .next (if 2 ^ 46 ≤ off then s.hostWrite (off - 2 ^ 46) size v.toNat else s.regWrite off size v.toNat)
  else .next s

end Sys2Proof.Machine
end

