-- ==== Sys2Proof/Machine/Dispatch.lean ====
section
/-!
DEFINITION. The dispatch of the commands to their meanings: one arm for each constructor of Instr.
-/
namespace Sys2Proof.Machine

open Sys2Proof

def exec (i : Instr) (s : State) : Host.Outcome State Fault Refusal :=
  match i with
  | .registerWrite off size v => Sys2Proof.Machine.execRegisterWrite off size v s
  | .cluAliasCtlEn c v => Sys2Proof.Machine.execCluAliasCtlEn c v s
  | .ctlSkqPush c v => Sys2Proof.Machine.execCtlSkqPush c v s
  | .skeinStart c => Sys2Proof.Machine.execSkeinStart c s
  | .creditReturn c no stage port => Sys2Proof.Machine.execCreditReturn c no stage port s
  | .skeinStarved c no stage port => Sys2Proof.Machine.execSkeinStarved c no stage port s
  | .stallLimitExpiry c no => Sys2Proof.Machine.execStallLimitExpiry c no s
  | .skeinComplete c no => Sys2Proof.Machine.execSkeinComplete c no s
  | .ctlSkCancel c v => Sys2Proof.Machine.execCtlSkCancel c v s
  | .ctlSkEn c v => Sys2Proof.Machine.execCtlSkEn c v s
  | .ctlSkDisable c v => Sys2Proof.Machine.execCtlSkDisable c v s
  | .skeinEngineDisableDone c => Sys2Proof.Machine.execSkeinEngineDisableDone c s
  | .ctlSemAdd c v => Sys2Proof.Machine.execCtlSemAdd c v s
  | .ctlSemWrite c sem v => Sys2Proof.Machine.execCtlSemWrite c sem v s
  | .ctlCqPop c => Sys2Proof.Machine.execCtlCqPop c s
  | .matCtlEn c m v => Sys2Proof.Machine.execMatCtlEn c m v s
  | .matCtlDisable c m v => Sys2Proof.Machine.execMatCtlDisable c m v s
  | .matWarmExpiry c m => Sys2Proof.Machine.execMatWarmExpiry c m s
  | .matStationaryLoaded c m => Sys2Proof.Machine.execMatStationaryLoaded c m s
  | .matAccumulationDrained c m => Sys2Proof.Machine.execMatAccumulationDrained c m s
  | .matCtxSave c m v => Sys2Proof.Machine.execMatCtxSave c m v s
  | .matCtxRestore c m v => Sys2Proof.Machine.execMatCtxRestore c m v s
  | .matCtxDone c m => Sys2Proof.Machine.execMatCtxDone c m s
  | .stationCtlEn c stn v => Sys2Proof.Machine.execStationCtlEn c stn v s
  | .ctlAdd c => Sys2Proof.Machine.execCtlAdd c s
  | .ctlSub c => Sys2Proof.Machine.execCtlSub c s
  | .ctlAnd c => Sys2Proof.Machine.execCtlAnd c s
  | .ctlOr c => Sys2Proof.Machine.execCtlOr c s
  | .ctlXor c => Sys2Proof.Machine.execCtlXor c s
  | .ctlShl c => Sys2Proof.Machine.execCtlShl c s
  | .ctlShr c => Sys2Proof.Machine.execCtlShr c s
  | .ctlSar c => Sys2Proof.Machine.execCtlSar c s
  | .ctlMul c => Sys2Proof.Machine.execCtlMul c s
  | .ctlSlt c => Sys2Proof.Machine.execCtlSlt c s
  | .ctlSltu c => Sys2Proof.Machine.execCtlSltu c s
  | .ctlMin c => Sys2Proof.Machine.execCtlMin c s
  | .ctlMax c => Sys2Proof.Machine.execCtlMax c s
  | .ctlMinu c => Sys2Proof.Machine.execCtlMinu c s
  | .ctlMaxu c => Sys2Proof.Machine.execCtlMaxu c s
  | .ctlAddi c => Sys2Proof.Machine.execCtlAddi c s
  | .ctlLui c => Sys2Proof.Machine.execCtlLui c s
  | .ctlOri c => Sys2Proof.Machine.execCtlOri c s
  | .ctlShli c => Sys2Proof.Machine.execCtlShli c s
  | .ctlShri c => Sys2Proof.Machine.execCtlShri c s
  | .ctlLoad1 c => Sys2Proof.Machine.execCtlLoad1 c s
  | .ctlLoad2 c => Sys2Proof.Machine.execCtlLoad2 c s
  | .ctlLoad4 c => Sys2Proof.Machine.execCtlLoad4 c s
  | .ctlLoad8 c => Sys2Proof.Machine.execCtlLoad8 c s
  | .ctlStore1 c => Sys2Proof.Machine.execCtlStore1 c s
  | .ctlStore2 c => Sys2Proof.Machine.execCtlStore2 c s
  | .ctlStore4 c => Sys2Proof.Machine.execCtlStore4 c s
  | .ctlStore8 c => Sys2Proof.Machine.execCtlStore8 c s
  | .ctlLoadReturn c id => Sys2Proof.Machine.execCtlLoadReturn c id s
  | .ctlStoreAck c id => Sys2Proof.Machine.execCtlStoreAck c id s
  | .ctlBeq c => Sys2Proof.Machine.execCtlBeq c s
  | .ctlBne c => Sys2Proof.Machine.execCtlBne c s
  | .ctlBlt c => Sys2Proof.Machine.execCtlBlt c s
  | .ctlBltu c => Sys2Proof.Machine.execCtlBltu c s
  | .ctlJal c => Sys2Proof.Machine.execCtlJal c s
  | .ctlJr c => Sys2Proof.Machine.execCtlJr c s
  | .ctlWsem c => Sys2Proof.Machine.execCtlWsem c s
  | .ctlWsemRetire c => Sys2Proof.Machine.execCtlWsemRetire c s
  | .ctlFence c => Sys2Proof.Machine.execCtlFence c s
  | .ctlFenceRetire c => Sys2Proof.Machine.execCtlFenceRetire c s
  | .ctlKend c => Sys2Proof.Machine.execCtlKend c s
  | .ctlKendRetire c => Sys2Proof.Machine.execCtlKendRetire c s
  | .ctlYieldSaved c => Sys2Proof.Machine.execCtlYieldSaved c s
  | .ctlHalt c => Sys2Proof.Machine.execCtlHalt c s
  | .ctlIllegal c => Sys2Proof.Machine.execCtlIllegal c s
  | .cluCoreRun c v => Sys2Proof.Machine.execCluCoreRun c v s
  | .cluCoreResume c v => Sys2Proof.Machine.execCluCoreResume c v s
  | .cluCoreStop c v => Sys2Proof.Machine.execCluCoreStop c v s
  | .cluCoreYieldReq c v => Sys2Proof.Machine.execCluCoreYieldReq c v s
  | .cluImemLoad c v => Sys2Proof.Machine.execCluImemLoad c v s
  | .imemLoadDone c => Sys2Proof.Machine.execImemLoadDone c s
  | .ctlDraw c => Sys2Proof.Machine.execCtlDraw c s
  | .cluScrubEn c v => Sys2Proof.Machine.execCluScrubEn c v s
  | .cluScrubClrCnt c v => Sys2Proof.Machine.execCluScrubClrCnt c v s
  | .scrubInterval c => Sys2Proof.Machine.execScrubInterval c s
  | .cluClear c v => Sys2Proof.Machine.execCluClear c v s
  | .clearDone c => Sys2Proof.Machine.execClearDone c s
  | .cluBorrowEn c v => Sys2Proof.Machine.execCluBorrowEn c v s
  | .cluBslotWrite c slot v => Sys2Proof.Machine.execCluBslotWrite c slot v s
  | .cluReturn c v => Sys2Proof.Machine.execCluReturn c v s
  | .cluRefill c v => Sys2Proof.Machine.execCluRefill c v s
  | .returnDone c => Sys2Proof.Machine.execReturnDone c s
  | .refillDone c => Sys2Proof.Machine.execRefillDone c s
  | .poolFillDone slot ok => Sys2Proof.Machine.execPoolFillDone slot ok s
  | .hbmCtlEn ch v => Sys2Proof.Machine.execHbmCtlEn ch v s
  | .hbmPageCmd ch v => Sys2Proof.Machine.execHbmPageCmd ch v s
  | .hbmRequestAccept ch cls => Sys2Proof.Machine.execHbmRequestAccept ch cls s
  | .hbmPatrol ch => Sys2Proof.Machine.execHbmPatrol ch s
  | .hbmParityFail ch => Sys2Proof.Machine.execHbmParityFail ch s
  | .strCtlEn c u v => Sys2Proof.Machine.execStrCtlEn c u v s
  | .strQcfgEn c u q v => Sys2Proof.Machine.execStrQcfgEn c u q v s
  | .strTransferStart c u => Sys2Proof.Machine.execStrTransferStart c u s
  | .strTransferDone c u q id => Sys2Proof.Machine.execStrTransferDone c u q id s
  | .strRetryTimer c u q => Sys2Proof.Machine.execStrRetryTimer c u q s
  | .strQcmdResume c u q => Sys2Proof.Machine.execStrQcmdResume c u q s
  | .strQcmdAbandon c u q => Sys2Proof.Machine.execStrQcmdAbandon c u q s
  | .haltLimitExpiry c u q => Sys2Proof.Machine.execHaltLimitExpiry c u q s
  | .pageRequestResponse k code => Sys2Proof.Machine.execPageRequestResponse k code s
  | .atsTranslationResponse pasid page rd wr => Sys2Proof.Machine.execAtsTranslationResponse pasid page rd wr s
  | .baleLoad b bale fail => Sys2Proof.Machine.execBaleLoad b bale fail s
  | .baleLoadPhase2 h => Sys2Proof.Machine.execBaleLoadPhase2 h s
  | .baleLoadTimeout h => Sys2Proof.Machine.execBaleLoadTimeout h s
  | .instanceReprogram h => Sys2Proof.Machine.execInstanceReprogram h s
  | .baleUnload b => Sys2Proof.Machine.execBaleUnload b s
  | .keyRegister b => Sys2Proof.Machine.execKeyRegister b s
  | .keyRevoke b => Sys2Proof.Machine.execKeyRevoke b s
  | .adpCtlEn c v => Sys2Proof.Machine.execAdpCtlEn c v s
  | .adpTable c no => Sys2Proof.Machine.execAdpTable c no s
  | .adpDown c no => Sys2Proof.Machine.execAdpDown c no s
  | .adpUp c no => Sys2Proof.Machine.execAdpUp c no s
  | .adpFetchIssue c no => Sys2Proof.Machine.execAdpFetchIssue c no s
  | .adapterImport ch cseq => Sys2Proof.Machine.execAdapterImport ch cseq s
  | .adapterExport ch cseq => Sys2Proof.Machine.execAdapterExport ch cseq s
  | .adapterRemove ch cseq => Sys2Proof.Machine.execAdapterRemove ch cseq s
  | .contractCreate b => Sys2Proof.Machine.execContractCreate b s
  | .contractEnd b => Sys2Proof.Machine.execContractEnd b s
  | .pin b => Sys2Proof.Machine.execPin b s
  | .unpin b => Sys2Proof.Machine.execUnpin b s
  | .drainDeadlineExpiry p tag => Sys2Proof.Machine.execDrainDeadlineExpiry p tag s
  | .unitUpdate ch n => Sys2Proof.Machine.execUnitUpdate ch n s
  | .updCmdApply ch v => Sys2Proof.Machine.execUpdCmdApply ch v s
  | .updCmdVoid ch v => Sys2Proof.Machine.execUpdCmdVoid ch v s
  | .updCtlEn ch v => Sys2Proof.Machine.execUpdCtlEn ch v s
  | .updJobValid ch n v => Sys2Proof.Machine.execUpdJobValid ch n v s
  | .jobCreate b tables => Sys2Proof.Machine.execJobCreate b tables s
  | .jobStop b => Sys2Proof.Machine.execJobStop b s
  | .examples ch cseq => Sys2Proof.Machine.execExamples ch cseq s
  | .tuningAttemptStart h => Sys2Proof.Machine.execTuningAttemptStart h s
  | .checkpoint ch cseq => Sys2Proof.Machine.execCheckpoint ch cseq s
  | .checkpointWrite h => Sys2Proof.Machine.execCheckpointWrite h s
  | .lnkCtlEn l v => Sys2Proof.Machine.execLnkCtlEn l v s
  | .lnkCtlDisable l v => Sys2Proof.Machine.execLnkCtlDisable l v s
  | .linkTrainingDone l digest => Sys2Proof.Machine.execLinkTrainingDone l digest s
  | .linkRetrain l => Sys2Proof.Machine.execLinkRetrain l s
  | .retrainTimeout l => Sys2Proof.Machine.execRetrainTimeout l s
  | .lnkRouteEn d v => Sys2Proof.Machine.execLnkRouteEn d v s
  | .routeWrite d w v => Sys2Proof.Machine.execRouteWrite d w v s
  | .lnkModuleIdWrite d v => Sys2Proof.Machine.execLnkModuleIdWrite d v s
  | .flitReceive l bytes => Sys2Proof.Machine.execFlitReceive l bytes s
  | .messageForward l r => Sys2Proof.Machine.execMessageForward l r s
  | .readRequest l r => Sys2Proof.Machine.execReadRequest l r s
  | .remoteWrite l r => Sys2Proof.Machine.execRemoteWrite l r s
  | .accumulate l r => Sys2Proof.Machine.execAccumulate l r s
  | .multicastWrite l r => Sys2Proof.Machine.execMulticastWrite l r s
  | .pullRead l r => Sys2Proof.Machine.execPullRead l r s
  | .close l r => Sys2Proof.Machine.execClose l r s
  | .readResponse l r => Sys2Proof.Machine.execReadResponse l r s
  | .ack l r => Sys2Proof.Machine.execAck l r s
  | .ackSend d src span cls => Sys2Proof.Machine.execAckSend d src span cls s
  | .multicastAck l r => Sys2Proof.Machine.execMulticastAck l r s
  | .multicastAckSend d root id => Sys2Proof.Machine.execMulticastAckSend d root id s
  | .multicastBlockSend d id => Sys2Proof.Machine.execMulticastBlockSend d id s
  | .faultResponse l r => Sys2Proof.Machine.execFaultResponse l r s
  | .pruneTimeout d id => Sys2Proof.Machine.execPruneTimeout d id s
  | .prune l r => Sys2Proof.Machine.execPrune l r s
  | .endOfStream l r => Sys2Proof.Machine.execEndOfStream l r s
  | .pullDone l r => Sys2Proof.Machine.execPullDone l r s
  | .transactionTimeout d ttag => Sys2Proof.Machine.execTransactionTimeout d ttag s
  | .leave l r => Sys2Proof.Machine.execLeave l r s
  | .join l r => Sys2Proof.Machine.execJoin l r s
  | .aseloRelay l r => Sys2Proof.Machine.execAseloRelay l r s
  | .rankWaitExpiry ch n => Sys2Proof.Machine.execRankWaitExpiry ch n s
  | .shardSend ch n => Sys2Proof.Machine.execShardSend ch n s
  | .shardComplete m => Sys2Proof.Machine.execShardComplete m s
  | .shardWaitExpiry ch n => Sys2Proof.Machine.execShardWaitExpiry ch n s
  | .clipFactor m => Sys2Proof.Machine.execClipFactor m s
  | .voidReport m => Sys2Proof.Machine.execVoidReport m s
  | .stepVoid m => Sys2Proof.Machine.execStepVoid m s
  | .voidAck m => Sys2Proof.Machine.execVoidAck m s
  | .returnStreamStart d => Sys2Proof.Machine.execReturnStreamStart d s
  | .returned m => Sys2Proof.Machine.execReturned m s
  | .baseLoad ch cseq image fail => Sys2Proof.Machine.execBaseLoad ch cseq image fail s
  | .baseFillVerify p tag => Sys2Proof.Machine.execBaseFillVerify p tag s
  | .chnSqDb ch v => Sys2Proof.Machine.execChnSqDb ch v s
  | .slotSeqReadReturn ch cseq word => Sys2Proof.Machine.execSlotSeqReadReturn ch cseq word s
  | .slotRereadTimer ch cseq => Sys2Proof.Machine.execSlotRereadTimer ch cseq s
  | .slotBodyAccept ch cseq body => Sys2Proof.Machine.execSlotBodyAccept ch cseq body s
  | .chnCqDb ch v => Sys2Proof.Machine.execChnCqDb ch v s
  | .completionWrite ch => Sys2Proof.Machine.execCompletionWrite ch s
  | .completionSeqAck ch => Sys2Proof.Machine.execCompletionSeqAck ch s
  | .atsInvalidation pasid page pages => Sys2Proof.Machine.execAtsInvalidation pasid page pages s
  | .hostReadCompletion id data ep fail => Sys2Proof.Machine.execHostReadCompletion id data ep fail s
  | .hostReadTimeout id => Sys2Proof.Machine.execHostReadTimeout id s
  | .referencePageTimeout ch cseq => Sys2Proof.Machine.execReferencePageTimeout ch cseq s
  | .bar0IgnoredWrite off size => Sys2Proof.Machine.execBar0IgnoredWrite off size s
  | .bar2Read off len => Sys2Proof.Machine.execBar2Read off len s
  | .bar2Write off data => Sys2Proof.Machine.execBar2Write off data s
  | .pcieLinkUp speed width => Sys2Proof.Machine.execPcieLinkUp speed width s
  | .pcieRetrain => Sys2Proof.Machine.execPcieRetrain s
  | .linkLoss => Sys2Proof.Machine.execLinkLoss s
  | .linkLossResetEntry => Sys2Proof.Machine.execLinkLossResetEntry s
  | .closeRoomTimeout ch => Sys2Proof.Machine.execCloseRoomTimeout ch s
  | .mbxDb b v => Sys2Proof.Machine.execMbxDb b v s
  | .mbxResponse b => Sys2Proof.Machine.execMbxResponse b s
  | .partCreate b => Sys2Proof.Machine.execPartCreate b s
  | .partDestroy b => Sys2Proof.Machine.execPartDestroy b s
  | .partReset b => Sys2Proof.Machine.execPartReset b s
  | .partQuery b => Sys2Proof.Machine.execPartQuery b s
  | .chanOpen b => Sys2Proof.Machine.execChanOpen b s
  | .chanClose b => Sys2Proof.Machine.execChanClose b s
  | .serveStart b => Sys2Proof.Machine.execServeStart b s
  | .serveStop b => Sys2Proof.Machine.execServeStop b s
  | .telemetry b => Sys2Proof.Machine.execTelemetry b s
  | .warmReset b => Sys2Proof.Machine.execWarmReset b s
  | .submit ch cseq => Sys2Proof.Machine.execSubmit ch cseq s
  | .cancel ch cseq => Sys2Proof.Machine.execCancel ch cseq s
  | .serveStepDone p => Sys2Proof.Machine.execServeStepDone p s
  | .stepPending p => Sys2Proof.Machine.execStepPending p s
  | .serveStepStart p => Sys2Proof.Machine.execServeStepStart p s
  | .beQuantumExpiry p => Sys2Proof.Machine.execBeQuantumExpiry p s
  | .yieldLimitExpiry c => Sys2Proof.Machine.execYieldLimitExpiry c s
  | .beResume p => Sys2Proof.Machine.execBeResume p s
  | .contextTeardown c => Sys2Proof.Machine.execContextTeardown c s
  | .prtDirtyEn p v => Sys2Proof.Machine.execPrtDirtyEn p v s
  | .dirtySwitch p v => Sys2Proof.Machine.execDirtySwitch p v s
  | .dirtySwitchDone p => Sys2Proof.Machine.execDirtySwitchDone p s
  | .attest b => Sys2Proof.Machine.execAttest b s
  | .certRead b => Sys2Proof.Machine.execCertRead b s
  | .reportRead b => Sys2Proof.Machine.execReportRead b s
  | .sessionOpen b => Sys2Proof.Machine.execSessionOpen b s
  | .keyDeliver b => Sys2Proof.Machine.execKeyDeliver b s
  | .sessionClose b => Sys2Proof.Machine.execSessionClose b s
  | .sessionIdleTimeout id => Sys2Proof.Machine.execSessionIdleTimeout id s
  | .pendingKeyExpiry p keyId => Sys2Proof.Machine.execPendingKeyExpiry p keyId s
  | .spanKeyCreate b => Sys2Proof.Machine.execSpanKeyCreate b s
  | .spanKeyExport b => Sys2Proof.Machine.execSpanKeyExport b s
  | .spanKeyImport b => Sys2Proof.Machine.execSpanKeyImport b s
  | .spanKeySend b => Sys2Proof.Machine.execSpanKeySend b s
  | .spanKeyDestroy b => Sys2Proof.Machine.execSpanKeyDestroy b s
  | .fwUpdate b image => Sys2Proof.Machine.execFwUpdate b image s
  | .svnCommit b => Sys2Proof.Machine.execSvnCommit b s
  | .bootStatus b => Sys2Proof.Machine.execBootStatus b s
  | .hbmKeyDrained k => Sys2Proof.Machine.execHbmKeyDrained k s
  | .eventIntake k => Sys2Proof.Machine.execEventIntake k s
  | .eventWrite => Sys2Proof.Machine.execEventWrite s
  | .eventBucketGain code => Sys2Proof.Machine.execEventBucketGain code s
  | .eventSnapshot k => Sys2Proof.Machine.execEventSnapshot k s
  | .evrRead b => Sys2Proof.Machine.execEvrRead b s
  | .evrClear b => Sys2Proof.Machine.execEvrClear b s
  | .evrConfigure b => Sys2Proof.Machine.execEvrConfigure b s
  | .powerOn => Sys2Proof.Machine.execPowerOn s
  | .uvloFall => Sys2Proof.Machine.execUvloFall s
  | .inputDegraded mv => Sys2Proof.Machine.execInputDegraded mv s
  | .overvoltageTrip => Sys2Proof.Machine.execOvervoltageTrip s
  | .overpowerTrip => Sys2Proof.Machine.execOverpowerTrip s
  | .thermalTrip => Sys2Proof.Machine.execThermalTrip s
  | .powerSample mv iin watts die hbm inlet outlet dieId => Sys2Proof.Machine.execPowerSample mv iin watts die hbm inlet outlet dieId s
  | .mrst => Sys2Proof.Machine.execMrst s
  | .perst asserted => Sys2Proof.Machine.execPerst asserted s
  | .standbyEntry => Sys2Proof.Machine.execStandbyEntry s
  | .croftIdle k => Sys2Proof.Machine.execCroftIdle k s
  | .pwrCtlEn v => Sys2Proof.Machine.execPwrCtlEn v s
  | .smbStatus => Sys2Proof.Machine.execSmbStatus s
  | .smbVin => Sys2Proof.Machine.execSmbVin s
  | .smbIin => Sys2Proof.Machine.execSmbIin s
  | .smbPin => Sys2Proof.Machine.execSmbPin s
  | .smbTdie => Sys2Proof.Machine.execSmbTdie s
  | .smbThbm => Sys2Proof.Machine.execSmbThbm s
  | .smbTin => Sys2Proof.Machine.execSmbTin s
  | .smbTout => Sys2Proof.Machine.execSmbTout s
  | .smbCause => Sys2Proof.Machine.execSmbCause s
  | .smbCapRead => Sys2Proof.Machine.execSmbCapRead s
  | .smbCapWrite watts pec => Sys2Proof.Machine.execSmbCapWrite watts pec s
  | .smbAlertResponse => Sys2Proof.Machine.execSmbAlertResponse s
  | .tapBypass => Sys2Proof.Machine.execTapBypass s
  | .tapIdcode => Sys2Proof.Machine.execTapIdcode s
  | .tapSamplePreload pins shift => Sys2Proof.Machine.execTapSamplePreload pins shift s
  | .tapExtest shift => Sys2Proof.Machine.execTapExtest shift s
  | .tapChallenge => Sys2Proof.Machine.execTapChallenge s
  | .tapUnlock token => Sys2Proof.Machine.execTapUnlock token s
  | .localOperandReadDone c no side => Sys2Proof.Machine.execLocalOperandReadDone c no side s
  | .controlFlit l => Sys2Proof.Machine.execControlFlit l s
  | .tapTestReset => Sys2Proof.Machine.execTapTestReset s

end Sys2Proof.Machine
end

