-- ==== Sys2Proof/Machine/Step.lean ====
section
/-!
DEFINITION. One step of the module: the command at the front of the queue takes its effect; an empty queue lets time pass.
-/
namespace Sys2Proof.Machine

open Sys2Proof

/-- One step. On an empty queue one local tick passes (DESIGN CHOICE: log entry 1). (Log 1 DESIGN CHOICE) -/
def step (s : State) : Host.Outcome State Fault Refusal :=
  match s.pending with
  | [] => .next s.idle
  | i :: rest => exec i { s with pending := rest }

/-- The command that a word spells, put at the front of the queue (no row of the table gives bits, so no word spells one). -/
def State.withFetchWord (s : State) (nbits w : Nat) : State :=
  match decodeTableWord nbits w with
  | some i => { s with pending := i :: s.pending }
  | none => s

end Sys2Proof.Machine
end

