-- ==== Sys2Proof/Safety.lean ====
section
/-!
DEFINITION. What counts as a safe state and a safe step, and the terms in which the claims speak of a command: that it completes,
and what it leaves alone.
-/
namespace Sys2Proof.Machine

open Sys2Proof

/-- The tables of the state stand in their canonical form: register file, memory and its check symbols, and the units' tables. -/
def State.wf (s : State) : Bool :=
  tsorted s.regs && memWf s.mem && tsorted s.ecc && tsorted s.clu && tsorted s.chans && tsorted s.upd && tsorted s.links && tsorted s.mbx

/-- A step stops neither with a fault nor with a refusal. -/
def stepRuns (s : State) : Prop := ∃ t, step s = .next t

/-- The command answers a next state, of which `P` holds. -/
def Completes (i : Instr) (s : State) (P : State → Prop) : Prop := ∃ t, exec i s = .next t ∧ P t

/-- Every byte of memory, and every check symbol, is stored as before. -/
def memSame (s t : State) : Prop := ∀ a, t.rawByte a = s.rawByte a ∧ t.rawDelta a = s.rawDelta a

/-- Every byte of memory outside a range of `n` bytes from `a` reads as before (in the range of a clear that is busy a read is open, R185),
and outside the 64-byte blocks of the range it is stored as before. -/
def memBut (s t : State) (a n : Nat) : Prop :=
  ∀ x, (x < a ∨ a + n ≤ x) → (s.inClear (x - x % 16) = false → t.rdByte x = s.rdByte x) ∧
    (x / 64 < a / 64 ∨ (a + n - 1) / 64 < x / 64 → t.rawByte x = s.rawByte x ∧ t.rawDelta x = s.rawDelta x)

/-- Every register is as before but those at the listed module-local addresses. -/
def regsBut (s t : State) (l : List Nat) : Prop := ∀ a, a ∉ l → tfind t.regs a = tfind s.regs a

/-- Every cluster but one is as before. -/
def clusBut (s t : State) (c : Nat) : Prop := ∀ d, d ≠ c → t.cl d = s.cl d

/-- The state is as before but for registers. -/
def onlyRegs (s t : State) : Prop := t = { s with regs := t.regs }

/-- The state is as before but for one cluster. -/
def onlyClu (s t : State) (c : Nat) : Prop := t = { s with clu := t.clu } ∧ clusBut s t c

/-- The state is as before but for one cluster, registers and events raised: no memory, queue or other unit changes. -/
def onlyUnit (s t : State) (c : Nat) : Prop := t = { s with clu := t.clu, regs := t.regs, evr := t.evr } ∧ clusBut s t c

/-- The state is as before but for registers and events raised. -/
def onlyRegsEvr (s t : State) : Prop := t = { s with regs := t.regs, evr := t.evr }

/-- The event was raised last. -/
def raisedLast (t : State) (code unit : Nat) : Prop := ∃ e, t.evr.raised.getLast? = some e ∧ e.code = code ∧ e.unit = unit

/-- A mailbox holds an accepted request of a type that no service has begun. -/
def requested (s : State) (b ty : Nat) (r : List Byte) : Prop := (s.box b).stage = 1 ∧ (s.box b).req = r ∧ mType r = ty

/-- A mailbox's response is ready: reason, handle and payload stand where Table 15.3 puts them. -/
def responded (t : State) (b reason handle : Nat) (payload : List Byte) : Prop :=
  (t.box b).stage = 3 ∧ leAt (t.box b).rsp 6 2 = reason ∧ leAt (t.box b).rsp 8 8 = handle ∧ (t.box b).rsp.drop 32 = payload

/-- A channel's command of an opcode is ready for its service, with its input. -/
def commanded (s : State) (ch cseq opcode : Nat) (c : Cmd) (input : List Byte) : Prop :=
  s.chanCmd ch cseq opcode = some c ∧ s.cmdInput ch c = some input

/-- The final completion of a channel's command waits to be written. -/
def finished (t : State) (ch cseq reason result outLen : Nat) : Prop :=
  ∃ f ∈ (t.hch ch).wait, f.cseq = cseq ∧ f.final = true ∧ f.reason = reason ∧ f.result = result ∧ f.outLen = outLen

/-- The oldest message of a reservation has left a link's receive buffer. -/
def rxTaken (s t : State) (l r : Nat) : Prop := (t.link l).rx = lrem (fun y => y.rsv == r) (s.link l).rx

/-- The registers of which a write is more than a store of fields: enables, commands and the tables that their writes rebuild. Each such
write has a row of its own in the command table. -/
def commandRegs : List Nat :=
  ([ CLU_ALIAS_CTL, CLU_CORE_CTL, CLU_IMEM_LOAD, CLU_SCRUB, CLU_CLEAR, CLU_BORROW_CFG, CLU_RETURN, CLU_BSLOT, CTL_SK_CTL, CTL_SKQ_PUSH,
     CTL_SEM_ADD, MAT_CTL, MAT_CTX_CTL, VEC_CTL, SUM_CTL, CNV_CTL, GTH_CTL, ADP_CTL, STR_CTL, STR_QCFG, STR_QCMD ] ++
   [ HBM_CTL, HBM_PAGE_CMD, UPD_CTL, UPD_CMD, UPD_JOB_CFG, UPD_JOB_STEP, LNK_CTL, LNK_MODULE, LNK_ROUTE, PRT_DIRTY_CTL, PWR_CTL,
     PWR_CAP ]).map fun r => r.base

/-- The registers, the clusters and all memory are as before. -/
def modSame (s t : State) : Prop := t.regs = s.regs ∧ t.clu = s.clu ∧ memSame s t

end Sys2Proof.Machine
end

