-- ==== Sys2Proof/Certificates/Slice0/Obligations.lean ====
section
/-!
DEFINITION. The statements for the provers. Each formalises rules of the spec that its docstring names; where a clause rests on the
model's own choice the docstring says so.
-/

open Sys2Proof Sys2Proof.Machine

/-- A command at the front of the queue is carried out with the queue's rest; on an empty queue, by the model's choice, one local tick
passes. Every command completes in every state: none stops the block with a fault or a refusal. -/
def Obligations.StepRunsFrontCommandOrLetsTimePass : Prop :=
  (∀ (c : Instr) (rest : List Instr) (s : State), s.pending = c :: rest → step s = exec c { s with pending := rest }) ∧
  (∀ s : State, s.pending = [] → step s = .next s.idle) ∧
  (∀ (c : Instr) (s : State), ∃ t, exec c s = .next t)

/-- What reset leaves: the tables are canonical and empty, the recorder's sequence starts at 1, PWROK is high, every mailbox boots, the limits
stand at the values of Table 19.14, IDCODE is selected, the endpoint's link is down, and every on-chip byte reads zero; no command waits. -/
def Obligations.ResetLeavesTheSpecifiedValues : Prop :=
  let s := State.reset
  s.wf = true ∧ s.pending = [] ∧ s.get EVR_STAT_next_seq 0 = 1 ∧ s.get EVR_STAT_oldest 0 = 1 ∧ s.evr.ring = [] ∧ s.get EVR_CTL_en 0 = 1 ∧
  s.pwr.pwrok = true ∧ s.get PWR_CTL_en 0 = 1 ∧ s.get PWR_CAP_cap_w 0 = 4800 ∧ s.get PWR_CAP_soft_pct 0 = 95 ∧ s.get PWR_CAP_t_soft 0 = 90 ∧
  s.get PWR_CAP_t_hard 0 = 100 ∧ (∀ b < 18, s.get MBX_STAT_state b = 0) ∧ s.tap.ir = 0x01 ∧ s.tap.dr = 0x1C401A0B ∧
  s.get PCI_LINK_STAT_up 0 = 0 ∧ (∀ p < 16, s.partExists p = false) ∧ (∀ c < 1600, s.get CTL_SK_CTL_en c = 0) ∧
  (∀ ch < 128, s.get HBM_CTL_en ch = 0) ∧ (∀ l < 24, s.get LNK_CTL_en l = 0) ∧ (∀ ch < 1024, s.get CHN_CTL_open ch = 0) ∧
  (∀ a < onchipTop, s.rawByte a = 0)

/-- The tables of the state keep their canonical form over every step, whatever command is at the front: the memory and its check
symbols, the register file, the clusters, channels, mailboxes, links and update engines. -/
def Obligations.EveryStepKeepsTheTablesCanonical : Prop :=
  ∀ s t : State, s.wf = true → step s = .next t → t.wf = true

/-! ### Addresses and registers -/

/-- CLU_ALIAS_CTL_EN (R44): an enable whose croft_count and map pass Table 2.9 sets en and changes croft_count alone beside it; a failing
one leaves en 0 with the first failing code of the table. While en is 0, the cluster's local-alias and remote accesses are refused with
0x0213, and a remote request that passes checks 1 to 4 and names the cluster's on-chip window, whole blocks of a croft that its span may
reach, is refused with 0x0723 and breaks its stream. -/
def Obligations.AliasEnableFollowsTheChecksInOrder : Prop :=
  (∀ (c : Clu) (v : Word) (s : State), s.get CLU_ALIAS_CTL_en c = 0 →
    let m := nfld v.toNat 4 5
    let croft := fun j => nfld (s.rreg CLU_ALIAS_MAP c) (4 * j) 4
    let c1 : Prop := 1 ≤ m ∧ m ≤ 16
    let c2 : Prop := ∀ i j, i < j → j < m → croft i < croft j
    let c3 : Prop := ∃ j, j < m ∧ croft j = cluCroft c
    let c4 : Prop := ∀ j, m ≤ j → j < 16 → croft j = 0
    let failed := fun (code : Nat) => Completes (.cluAliasCtlEn c v) s fun t =>
      t.get CLU_ALIAS_CTL_en c = 0 ∧ t.get CLU_ALIAS_CTL_reason c = code ∧ regsBut s t [CLU_ALIAS_CTL.addr c 0 0] ∧ onlyRegs s t
    (c1 → c2 → c3 → c4 → Completes (.cluAliasCtlEn c v) s fun t =>
      t.get CLU_ALIAS_CTL_en c = 1 ∧ t.get CLU_ALIAS_CTL_croft_count c = m ∧
      t.get CLU_ALIAS_CTL_reason c = s.get CLU_ALIAS_CTL_reason c ∧ regsBut s t [CLU_ALIAS_CTL.addr c 0 0] ∧ onlyRegs s t) ∧
    (¬ c1 → failed 0x0A21) ∧ (c1 → ¬ c2 → failed 0x0A22) ∧ (c1 → c2 → ¬ c3 → failed 0x0A23) ∧
    (c1 → c2 → c3 → ¬ c4 → failed 0x0A24)) ∧
  (∀ (c : Clu) (s : State) (k : Acc) (addr len : Nat), s.get CLU_ALIAS_CTL_en c = 0 → nfld addr 58 4 = 0 →
    (nfld addr 62 2 = 0 → nfld addr 46 12 = 0 → s.resolve c k addr len = .error 0x0213) ∧
    (nfld addr 62 2 = 1 → (k = .mcast ∨ nfld addr 46 12 ≠ s.moduleId) → s.resolve c k addr len = .error 0x0213)) ∧
  (∀ (c : Clu) (s : State) (opcode b span cls o : Nat), s.get CLU_ALIAS_CTL_en c = 0 → 0 < b → o % 64 = 0 → o + 64 * b ≤ 0x780000 →
    (o + 64 * b ≤ 0x200000 ∨ 0x200000 ≤ o) → span ≠ 0 → s.get PRT_CROFT_span 0 (cluCroft c) = span →
    s.remoteCheck opcode (2 ^ 62 + s.moduleId * 2 ^ 46 + c.val * 0x800000 + o) b span cls = 0x0723) ∧
  (∀ (l : Lnk) (r : Fin 64) (s : State) (m : RxMsg) (plain : List Byte), s.rxHead l r = some m → m.dst = s.moduleId →
    (s.reqCheck l m).2 = some plain →
    let s1 := (s.reqCheck l m).1
    s1.remoteCheck m.opcode m.addr m.b m.span m.cls = 0x0723 →
    ∀ i ∈ ([(.readRequest l r, 1), (.remoteWrite l r, 3), (.accumulate l r, 4), (.pullRead l r, 9)] : List (Instr × Nat)), m.opcode = i.2 →
      Completes i.1 s fun t => t = s1.lokRefuse l m 0x0723 ∧ (∀ e, t.tgt (linkDie l) m = some e → e.broken = true) ∧ memSame s t)

/-- REGISTER_WRITE (R6, R7): an aligned write of 4 or 8 bytes to a register stores the RW bits it covers, the RWL bits while the enable
that locks them is 0, clears the W1C bits written 1, and leaves every other bit and every other register alone. That holds of every
register that is no enable or command register, for a station's register while no skein holds the station; a write to an enable or
command register is the command that has its own row. An offset without a register, and an access that is not 4 or 8 aligned bytes,
change nothing. -/
def Obligations.RegisterWriteRespectsAccessTypesAndLocks : Prop :=
  (∀ (s : State) (off size : Nat) (v : Word) (r : Reg) (u i j : Nat), (size = 4 ∨ size = 8) → off % size = 0 → off < 2 ^ 46 →
    regOf (off - off % 8) = some (r, u, i, j) → r.base < 2 ^ 46 → r.base ∉ commandRegs → (∀ p, r.stnOf i = some p → s.stnHeld u p.1 = false) →
    Completes (.registerWrite off size v) s fun t =>
      (∀ n < 64,
        let covered : Prop := 8 * (off % 8) ≤ n ∧ n < 8 * (off % 8) + 8 * size
        let x := nbit v.toNat (n - 8 * (off % 8))
        let stored : Prop := covered ∧ (nbit r.rw n = true ∨ (nbit r.rwl n = true ∧ s.lockedReg r u i j = false))
        (stored → nbit (t.rreg r u i j) n = x) ∧
        (¬ stored → nbit (t.rreg r u i j) n = (nbit (s.rreg r u i j) n && !(decide covered && nbit r.w1c n && x)))) ∧
      regsBut s t [r.addr u i j] ∧ onlyRegs s t) ∧
  (∀ (c : Clu) (v : Word) (s : State),
    (s.get CLU_ALIAS_CTL_en c = 0 → Completes (.registerWrite (CLU_SPAN.addr c 0 0) 8 v) s fun t =>
      t.get CLU_SPAN_span_tag c = v.toNat % 65536 ∧ regsBut s t [CLU_SPAN.addr c 0 0] ∧ onlyRegs s t) ∧
    (s.get CLU_ALIAS_CTL_en c = 1 → Completes (.registerWrite (CLU_SPAN.addr c 0 0) 8 v) s fun t =>
      t.get CLU_SPAN_span_tag c = s.get CLU_SPAN_span_tag c ∧ regsBut s t [CLU_SPAN.addr c 0 0] ∧ onlyRegs s t)) ∧
  (∀ (c : Clu) (m : Mat) (u : StrU) (q : StrN) (ch : Chan) (l : Lnk) (v : Word) (s : State),
    let n := v.toNat
    ∀ p ∈ ([ (CLU_ALIAS_CTL.addr c 0 0, nbit n 0, .cluAliasCtlEn c v), (CLU_CLEAR.addr c 0 0, nbit n 15, .cluClear c v),
        (CLU_RETURN.addr c 0 0, nfld n 0 2 == 1, .cluReturn c v), (CLU_RETURN.addr c 0 0, nfld n 0 2 == 2, .cluRefill c v),
        (CTL_SKQ_PUSH.addr c 0 0, true, .ctlSkqPush c v), (CTL_SEM_ADD.addr c 0 0, true, .ctlSemAdd c v),
        (CTL_SK_CTL.addr c 0 0, nbit n 0 && !nbit n 1, .ctlSkEn c v), (MAT_CTL.addr c m 0, nbit n 0, .matCtlEn c m v),
        (MAT_CTL.addr c m 0, !nbit n 0, .matCtlDisable c m v), (MAT_CTX_CTL.addr c m 0, nfld n 0 2 == 1, .matCtxSave c m v),
        (MAT_CTX_CTL.addr c m 0, nfld n 0 2 == 2, .matCtxRestore c m v), (STR_QCFG.addr c u q, nbit n 0, .strQcfgEn c u q v),
        (HBM_PAGE_CMD.addr ch 0 0, true, .hbmPageCmd ch v), (UPD_CMD.addr ch 0 0, nfld n 4 2 == 2, .updCmdApply ch v),
        (UPD_CMD.addr ch 0 0, nfld n 4 2 == 1, .updCmdVoid ch v), (LNK_CTL.addr l 0 0, nbit n 0, .lnkCtlEn l v),
        (LNK_CTL.addr l 0 0, !nbit n 0, .lnkCtlDisable l v), (PWR_CTL.addr 0 0 0, nbit n 0, .pwrCtlEn v) ] : List (Nat × Bool × Instr)),
      p.2.1 = true → exec (.registerWrite p.1 8 v) s = exec p.2.2 s) ∧
  (∀ (b : Mbx) (v : Word) (s : State), exec (.registerWrite (MBX_DB.addr b 0 0) 4 v) s = exec (.mbxDb b v) s) ∧
  (∀ (ch : HCh) (v : Word) (s : State), exec (.registerWrite (CHN_SQ_DB.addr ch 0 0) 4 v) s = exec (.chnSqDb ch v) s ∧
    exec (.registerWrite (CHN_CQ_DB.addr ch 0 0) 4 v) s = exec (.chnCqDb ch v) s) ∧
  (∀ (s : State) (v : Word) (off size : Nat), (off < 2 ^ 46 → regOf (off - off % 8) = none → exec (.registerWrite off size v) s = .next s) ∧
    (((size ≠ 4 ∧ size ≠ 8) ∨ off % size ≠ 0) → exec (.registerWrite off size v) s = .next s))

/-- Addresses (R29, R30, R42, R44, R47): how an issuing cluster resolves a load. A reserved kind, a reserved bit set, an alias while translation is
disabled and an alias croft beyond the partition fault with their codes; an alias byte of window, HBM3 or registers is the byte of
the physical croft that the map names (a register by whole accesses of 4 or 8 bytes alone); an offset of the register range outside every
block is unmapped; a global address of the own module reaches the crofts of the cluster's own partition alone. -/
def Obligations.AddressesResolveAsTable25Says : Prop :=
  ∀ (c : Clu) (s : State) (addr : Nat), addr < 2 ^ 64 →
    (nfld addr 62 2 = 3 → s.resolve c .load addr 1 = .error 0x0211) ∧
    (nfld addr 62 2 = 0 → nfld addr 46 16 ≠ 0 → s.resolve c .load addr 1 = .error 0x0212) ∧
    (nfld addr 62 2 = 2 → nfld addr 57 5 ≠ 0 → s.resolve c .load addr 1 = .error 0x0212) ∧
    (addr < 2 ^ 46 → s.get CLU_ALIAS_CTL_en c = 0 → s.resolve c .load addr 1 = .error 0x0213) ∧
    (s.get CLU_ALIAS_CTL_en c = 1 →
      (∀ j i w, j < s.get CLU_ALIAS_CTL_croft_count c → j < 16 → i < 100 → w < 0x780000 → addr = (100 * j + i) * 0x800000 + w →
        s.resolve c .load addr 1 = .ok (.mem (croftClu (nfld (s.rreg CLU_ALIAS_MAP c) (4 * j) 4) i * 0x800000 + w))) ∧
      (∀ j o, j < s.get CLU_ALIAS_CTL_croft_count c → j < 16 → o < 0x300000000 → addr = 0x1000000000 + j * 0x300000000 + o →
        s.resolve c .load addr 1 = .ok (.mem (0x1000000000 + nfld (s.rreg CLU_ALIAS_MAP c) (4 * j) 4 * 0x300000000 + o))) ∧
      (∀ j i o, j < s.get CLU_ALIAS_CTL_croft_count c → j < 16 → i < 100 → o < 0x10000 → addr = 0x8000000000 + (100 * j + i) * 0x10000 + o →
        (∀ len, (len = 4 ∨ len = 8) → o % len = 0 →
          s.resolve c .load addr len = .ok (.reg (0x8000000000 + croftClu (nfld (s.rreg CLU_ALIAS_MAP c) (4 * j) 4) i * 0x10000 + o))) ∧
        s.resolve c .load addr 1 = .error 0x021B) ∧
      (0 < s.get CLU_ALIAS_CTL_croft_count c → 0x8006400000 ≤ addr → addr < 0x8010000000 → s.resolve c .load addr 1 = .error 0x0214) ∧
      (∀ a w, 100 * s.get CLU_ALIAS_CTL_croft_count c ≤ a → w < 0x800000 → addr = a * 0x800000 + w → addr < 0x320000000 →
        s.resolve c .load addr 1 = .error 0x0213)) ∧
    (nfld addr 62 2 = 1 → nfld addr 58 4 = 0 → nfld addr 46 12 = s.moduleId → isHbm (addr % 2 ^ 46) = true →
      let k := hbmCroft (addr % 2 ^ 46)
      let own : Prop := if s.get CLU_ALIAS_CTL_en c = 1 then k ∈ s.aliasCrofts c
        else (s.croftPart (cluCroft c)).1 ≠ 0xFF ∧ (s.croftPart k).1 = (s.croftPart (cluCroft c)).1
      (¬ own → s.resolve c .load addr 1 = .error 0x0216) ∧ (own → s.resolve c .load addr 1 = .ok (.mem (addr % 2 ^ 46))))
/-! ### Skeins -/

/-- CTL_SKQ_PUSH (R65): a descriptor that passes every check of Table 3.9 joins the launch queue and nothing else of the engine
changes; a failing or poisoned one, a disabled engine or a full queue stops the engine with its code and faults the context, and nothing is
queued. -/
def Obligations.SkeinPushQueuesOrStopsTheEngine : Prop :=
  ∀ (c : Clu) (v : Word) (s : State),
    let a := c.val * 0x800000 + nfld v.toNat 6 15 * 64
    let w := (List.range 8).map fun i => leNat (s.rdMem (a + 8 * i) 8)
    let r := (s.noteRead a 64).stamp a 64
    let e := (s.cl c).eng
    let stops := fun (code : Nat) => Completes (.ctlSkqPush c v) s fun t =>
      t.get CTL_SK_CTL_reason c = code ∧ (t.cl c).eng = { e with stopped := true } ∧
      ((s.cl c).faulted = 0 → (t.cl c).faulted = code ∧ t.get CLU_CORE_CTL_state c = 6) ∧ memSame s t ∧ clusBut s t c
    (s.get CTL_SK_CTL_en c = 1 → e.launch.length < 64 → s.rdPoison a 64 = false → firstFail (r.descChecks c w) = 0 →
      Completes (.ctlSkqPush c v) s fun t =>
        (∃ l, (t.cl c).eng = { e with launch := e.launch ++ [l], pushNo := e.pushNo + 1 } ∧ l.w = w ∧ l.no = e.pushNo) ∧
        (t.cl c).core = (s.cl c).core ∧ memSame s t ∧ clusBut s t c) ∧
    (s.get CTL_SK_CTL_en c = 1 → e.launch.length < 64 → s.rdPoison a 64 = false → firstFail (r.descChecks c w) ≠ 0 →
      stops (firstFail (r.descChecks c w))) ∧
    (s.get CTL_SK_CTL_en c = 1 → e.launch.length < 64 → s.rdPoison a 64 = true → stops 0x0541) ∧
    (s.get CTL_SK_CTL_en c = 1 → 64 ≤ e.launch.length → stops 0x023D) ∧
    (s.get CTL_SK_CTL_en c = 0 → stops 0x023F)

/-- SKEIN_START, SKEIN_COMPLETE (R71, R73 to R75): the head of the launch queue starts alone, and only when a slot, its stations, its queues, its
semaphore and its order condition allow; it takes one from its wait semaphore. A station that refuses it ends it with the station's code. A
skein that is done frees its slot, posts, and queues its entry when one is due; while the completion queue is full it keeps its slot. -/
def Obligations.SkeinsStartInPushOrderAndComplete : Prop :=
  (∀ (c : Clu) (s : State) (l : Launch) (rest : List Launch), (s.cl c).eng.launch = l :: rest →
     let sem := fun (t : State) => if dWaitEn l.w = true
       then t.get CTL_SEM_value c (dWaitSem l.w) = s.get CTL_SEM_value c (dWaitSem l.w) - 1
       else ∀ n < 16, t.get CTL_SEM_value c n = s.get CTL_SEM_value c n
     (s.get CTL_SK_CTL_en c = 1 → (s.cl c).eng.stopped = false → (s.cl c).eng.disabling = false → s.headOk c l = true →
       ((∀ j < dStages l.w, s.startCode c l.w j = 0) → Completes (.skeinStart c) s fun t =>
         (t.cl c).eng.launch = rest ∧ (t.cl c).eng.slots = (s.cl c).eng.slots ++ [s.newSkein c l] ∧ sem t ∧ memSame s t ∧ clusBut s t c) ∧
       (∀ j < dStages l.w, (∀ i < j, s.startCode c l.w i = 0) → s.startCode c l.w j ≠ 0 → s.sk c l.no = none → (s.cl c).faulted = 0 →
         Completes (.skeinStart c) s fun t =>
           (t.cl c).eng.launch = rest ∧ (∃ k, t.sk c l.no = some k ∧ k.ended = true ∧ k.reason = s.startCode c l.w j) ∧
           (t.cl c).faulted = s.startCode c l.w j ∧ sem t ∧ memSame s t ∧ clusBut s t c)) ∧
     (s.get CTL_SK_CTL_en c = 0 ∨ (s.cl c).eng.stopped = true ∨ (s.cl c).eng.disabling = true ∨ s.headOk c l = false →
       exec (.skeinStart c) s = .next s)) ∧
  (∀ (c : Clu) (no : Nat) (s : State) (k : Skein), s.sk c no = some k → k.done = true → k.held = false →
     ((s.cl c).eng.cq.length < 32 →
       Completes (.skeinComplete c no) s fun t =>
         (t.cl c).eng.slots = lrem (fun x => x.no == no) (s.cl c).eng.slots ∧
         (t.cl c).eng.cq = (if k.entryDue = true then (s.cl c).eng.cq ++ [k.entry] else (s.cl c).eng.cq) ∧
         (dPostEn k.w = true → k.cancelled = false → s.get CTL_SEM_value c (dPostSem k.w) < 65535 →
           t.get CTL_SEM_value c (dPostSem k.w) = s.get CTL_SEM_value c (dPostSem k.w) + 1) ∧
         (dPostEn k.w = false ∨ k.cancelled = true → ∀ n < 16, t.get CTL_SEM_value c n = s.get CTL_SEM_value c n) ∧
         memSame s t ∧ clusBut s t c) ∧
     (32 ≤ (s.cl c).eng.cq.length →
       Completes (.skeinComplete c no) s fun t =>
         (t.cl c).eng.slots = (s.cl c).eng.slots.map (fun x => if x.no == no then { x with held := true } else x) ∧
         (t.cl c).eng.cq = (s.cl c).eng.cq ∧ t.regs = s.regs ∧ memSame s t ∧ clusBut s t c))

/-- CTL_SEM_ADD, CTL_SEM_WRITE, CTL_CQ_POP (R73, R75): a semaphore takes the sum, stays at 65,535 when the sum would pass it (then the
context faults with 0x023B), and takes a written value; a load of the completion queue's head returns it and removes it, and reads
zero from an empty queue. (Where skeins wait for room, the popped place lets them complete: R75.) -/
def Obligations.SemaphoresCountAndTheCompletionQueuePops : Prop :=
  ∀ (c : Clu) (v : Word) (s : State) (m : Fin 16),
    let n := nfld v.toNat 0 4
    let sum := s.get CTL_SEM_value c n + nfld v.toNat 16 16
    (sum ≤ 65535 → Completes (.ctlSemAdd c v) s fun t =>
      t.get CTL_SEM_value c n = sum ∧ regsBut s t [CTL_SEM.addr c n 0] ∧ onlyRegs s t) ∧
    (65535 < sum → (s.cl c).faulted = 0 → Completes (.ctlSemAdd c v) s fun t =>
      t.get CTL_SEM_value c n = 65535 ∧ (t.cl c).faulted = 0x023B ∧ (t.cl c).eng.stopped = true ∧ onlyUnit s t c) ∧
    (Completes (.ctlSemWrite c m v) s fun t =>
      t.get CTL_SEM_value c m = v.toNat % 65536 ∧ regsBut s t [CTL_SEM.addr c m 0] ∧ onlyRegs s t) ∧
    (∀ l rest, (s.cl c).core.loads = l :: rest → l.size = 8 → s.resolve c .load l.addr 8 = .ok (.reg (CTL_CQ_POP.addr c 0 0)) →
      let back := fun (t : State) =>
        (∀ g, t.greg c g = if g = l.d ∧ g ≠ 0 ∧ l.dropped = false then BitVec.ofNat 64 (s.cqHead c) else s.greg c g) ∧
        (t.cl c).core.loads = rest ∧ clusBut s t c
      ((s.cl c).eng.heldQ = [] → Completes (.ctlCqPop c) s fun t =>
        back t ∧ (t.cl c).eng.cq = (s.cl c).eng.cq.drop 1 ∧ ((s.cl c).eng.cq = [] → s.cqHead c = 0) ∧ t.regs = s.regs ∧ onlyClu s t c) ∧
      (∀ no k, (s.cl c).eng.heldQ = [no] → s.sk c no = some k → (s.cl c).eng.cq.length = 32 → Completes (.ctlCqPop c) s fun t =>
        back t ∧ (t.cl c).eng.cq = (s.cl c).eng.cq.drop 1 ++ (if k.entryDue = true then [k.entry] else []) ∧ (t.cl c).eng.heldQ = [] ∧
        (t.cl c).eng.slots = lrem (fun x => x.no == no) (s.cl c).eng.slots))

/-- CTL_SK_EN, CTL_SK_DISABLE, CTL_SK_CANCEL, SKEIN_ENGINE_DISABLE_DONE (R65, R80, R76): an enable that passes Table 3.16 sets en and
starts from an empty engine, a failing one leaves en 0 with the first failing code; a disable discards the launch queue and cancels every
running skein, and once none runs en reads 0 and the stop is cleared; a cancel empties the launch queue and marks every running skein. -/
def Obligations.SkeinEngineEnableDisableAndCancel : Prop :=
  ∀ (c : Clu) (v : Word) (s : State),
    let cancels := fun (t : State) => (t.cl c).eng.launch = [] ∧ (t.cl c).eng.cq = (s.cl c).eng.cq ∧
      (∀ k ∈ (s.cl c).eng.slots, ∃ k' ∈ (t.cl c).eng.slots, k'.no = k.no ∧ k'.cancelled = true) ∧ onlyUnit s t c
    (s.get CTL_SK_CTL_en c = 0 → nfld v.toNat 16 16 ≠ 0 → s.get CLU_ALIAS_CTL_en c = 1 →
      Completes (.ctlSkEn c v) s fun t =>
        t.get CTL_SK_CTL_en c = 1 ∧ t.get CTL_SK_CTL_stall_us c = nfld v.toNat 16 16 ∧
        (t.cl c).eng = { (s.cl c).eng with launch := [], starve := 0 } ∧
        t.get CTL_SK_CTL_reason c = s.get CTL_SK_CTL_reason c ∧ regsBut s t [CTL_SK_CTL.addr c 0 0] ∧ onlyUnit s t c) ∧
    (s.get CTL_SK_CTL_en c = 0 → nfld v.toNat 16 16 = 0 →
      Completes (.ctlSkEn c v) s fun t => t.get CTL_SK_CTL_en c = 0 ∧ t.get CTL_SK_CTL_reason c = 0x0240 ∧
        regsBut s t [CTL_SK_CTL.addr c 0 0] ∧ onlyRegs s t) ∧
    (s.get CTL_SK_CTL_en c = 0 → nfld v.toNat 16 16 ≠ 0 → s.get CLU_ALIAS_CTL_en c = 0 →
      Completes (.ctlSkEn c v) s fun t => t.get CTL_SK_CTL_en c = 0 ∧ t.get CTL_SK_CTL_reason c = 0x0242 ∧
        regsBut s t [CTL_SK_CTL.addr c 0 0] ∧ onlyRegs s t) ∧
    (s.get CTL_SK_CTL_en c = 1 →
      Completes (.ctlSkDisable c v) s fun t => cancels t ∧ (t.cl c).eng.disabling = true ∧ t.get CTL_SK_CTL_en c = 1) ∧
    (s.get CTL_SK_CTL_en c = 0 →
      Completes (.ctlSkDisable c v) s fun t => (t.cl c).eng = { (s.cl c).eng with stopped := false } ∧ t.get CTL_SK_CTL_en c = 0 ∧
        regsBut s t [CTL_SK_CTL.addr c 0 0] ∧ onlyUnit s t c) ∧
    ((s.cl c).eng.disabling = true → (s.cl c).eng.slots = [] →
      Completes (.skeinEngineDisableDone c) s fun t =>
        t.get CTL_SK_CTL_en c = 0 ∧ (t.cl c).eng = { (s.cl c).eng with disabling := false, stopped := false } ∧
        regsBut s t [CTL_SK_CTL.addr c 0 0] ∧ onlyUnit s t c) ∧
    ((s.cl c).eng.slots ≠ [] → exec (.skeinEngineDisableDone c) s = .next s) ∧
    (nbit v.toNat 1 = true → Completes (.ctlSkCancel c v) s fun t => cancels t ∧ t.get CTL_SK_CTL_en c = s.get CTL_SK_CTL_en c)

/-- SKEIN_STARVED, STALL_LIMIT_EXPIRY (R68, R69): the first starvation cycle of a skein sets its late flag, counts, and records one
event; a later one only counts; the expiry of the limit stops the engine with 0x023C and faults the context, unless the queue that feeds the
starved port is halted. At a matrix station's port of moving tiles a starvation cycle is a hold as well (R92). -/
def Obligations.StarvationMarksLateAndTheLimitFaults : Prop :=
  ∀ (c : Clu) (no : Nat) (j : Fin 4) (p : Fin 2) (s : State) (k : Skein), s.sk c no = some k →
    (∀ st, k.stages[j.val]? = some st → (s.starved c k j p = true ∨ s.adpStarved c k j = true) → (s.cl c).eng.starve < 2 ^ 32 - 1 →
      Completes (.skeinStarved c no j p) s fun t =>
        (∃ k', t.sk c no = some k' ∧ k'.late = true ∧ (s.starved c k j p = true → (j.val, p.val) ∈ k'.starving)) ∧
        (t.cl c).eng.starve = (s.cl c).eng.starve + 1 ∧
        (k.late = false → raisedLast t 0x02F0 c ∧ t.evr.raised.length = s.evr.raised.length + 1) ∧ (k.late = true → t.evr = s.evr) ∧
        regsBut s t (if st.stn < 16 then [MAT_STALL.addr c st.stn 0] else []) ∧
        (st.stn < 16 → p = 0 → s.get MAT_STALL_holds c st.stn < 2 ^ 32 - 1 →
          t.get MAT_STALL_holds c st.stn = s.get MAT_STALL_holds c st.stn + 1) ∧ onlyUnit s t c) ∧
    (s.starved c k j p = false → s.adpStarved c k j = false → exec (.skeinStarved c no j p) s = .next s) ∧
    (k.takes = true → (∃ x ∈ k.starving, s.feedHalted c k (x.2 == 1 && sideFed k.w x.1) = false) → (s.cl c).faulted = 0 →
      Completes (.stallLimitExpiry c no) s fun t =>
        t.get CTL_SK_CTL_reason c = 0x023C ∧ (t.cl c).eng.stopped = true ∧ (t.cl c).faulted = 0x023C ∧
        (∃ k', t.sk c no = some k' ∧ k'.ended = true ∧ (k.reason = 0 → k'.reason = 0x023C)) ∧
        raisedLast t 0x023C c ∧ memSame s t ∧ clusBut s t c) ∧
    ((∀ x ∈ k.starving, s.feedHalted c k (x.2 == 1 && sideFed k.w x.1) = true) → exec (.stallLimitExpiry c no) s = .next s)

/-- CREDIT_RETURN, LOCAL_OPERAND_READ_DONE (R66, R67): a returned credit frees one slot of the port, and the next tile of a local
source or side operand, read whole from the own window (a block-scaled one with its companion), enters its port in index order; then the
skein's tiles move on. An address that the check refuses ends the skein and faults the context with its code (R55). -/
def Obligations.TilesEnterPortsUnderCredits : Prop :=
  ∀ (c : Clu) (no : Nat) (s : State) (k : Skein), s.sk c no = some k →
    (∀ (j : Fin 4) (st : Stage), k.stages[j.val]? = some st →
      (st.p0.length + st.seqLen < st.occ0 → Completes (.creditReturn c no j 0) s fun t =>
        t = State.run (s.modStage c no j fun x => { x with occ0 := x.occ0 - 1 }) c no) ∧
      (st.p1.length < st.occ1 → 16 ≤ st.stn → Completes (.creditReturn c no j 1) s fun t =>
        t = State.run (s.modStage c no j fun x => { x with occ1 := x.occ1 - 1 }) c no) ∧
      (st.occ0 ≤ st.p0.length + st.seqLen → exec (.creditReturn c no j 0) s = .next s)) ∧
    (∀ side : Bool, (if side then k.sideLocal else k.srcLocal) = true → (side = false → s.isCross c k.w = false) →
      k.takes = true → feedDue k side = true → s.feedRoom c k side = true →
      let i := if side then k.sideArr else k.srcArr
      let f := if side then dSideFmt k.w else dSrcFmt k.w
      let addr := if side then sideAddr k.w i else srcAddr k.w i
      let comp := compAddr k.w (if side then sideAddr k.w 0 else srcAddr k.w 0) i
      (∀ a, f ≠ 4 → s.localAddr c (.stream false) addr 1024 = .ok a →
        Completes (.localOperandReadDone c no side) s fun t =>
          t = ((s.noteRead a 1024).stamp a 1024).feed c no k side (feedTile k side (s.rdMem a 1024) [] (s.rdPoison a 1024))) ∧
      (∀ a b, f = 4 → s.localAddr c (.stream false) addr 1024 = .ok a → s.localAddr c (.stream false) comp 64 = .ok b →
        Completes (.localOperandReadDone c no side) s fun t =>
          t = ((((s.noteRead a 1024).stamp a 1024).noteRead b 64).stamp b 64).feed c no k side
                (feedTile k side (s.rdMem a 1024) (s.rdMem b 64) (s.rdPoison a 1024 || s.rdPoison b 64))) ∧
      (∀ e, s.localAddr c (.stream false) addr 1024 = .error e →
        Completes (.localOperandReadDone c no side) s fun t => t = (s.endSk c no e).addrFault c e addr))

/-! ### The matrix station -/

/-- MAT_CTL_EN, MAT_CTL_DISABLE, MAT_WARM_EXPIRY (R113, R118, R120, R121): an enable checks every valid op; a disable clears both
buffers and turns the station off; while a skein holds the station either write is lost and noted; the expiry of the warm time turns
a ready station off. -/
def Obligations.MatrixStationEnableDisableAndWarmExpiry : Prop :=
  ∀ (c : Clu) (m : Mat) (v : Word) (s : State),
    (s.stnHeld c m = false → s.get MAT_CTL_en c m = 0 → firstFail (matEnChecks c m s) = 0 →
      Completes (.matCtlEn c m v) s fun t =>
        t.get MAT_CTL_en c m = 1 ∧ t.get MAT_CTL_warm c m = nfld v.toNat 16 16 ∧ t.get MAT_STAT_passes c m = 0 ∧
        t.rreg MAT_STALL c m = 0 ∧
        regsBut s t [MAT_CTL.addr c m 0, MAT_STAT.addr c m 0, MAT_STALL.addr c m 0] ∧ onlyRegs s t) ∧
    (s.stnHeld c m = false → s.get MAT_CTL_en c m = 0 → firstFail (matEnChecks c m s) ≠ 0 →
      Completes (.matCtlEn c m v) s fun t =>
        t.get MAT_CTL_en c m = 0 ∧ t.get MAT_CTL_reason c m = firstFail (matEnChecks c m s) ∧
        regsBut s t [MAT_CTL.addr c m 0] ∧ onlyRegs s t) ∧
    (s.stnHeld c m = false →
      Completes (.matCtlDisable c m v) s fun t =>
        t.get MAT_CTL_en c m = 0 ∧ t.bufSt c m 0 = 0 ∧ t.bufSt c m 1 = 0 ∧ t.mat c m = MatStn.init ∧
        t.get MAT_STAT_state c m = 0 ∧ t.get MAT_STAT_rows_on c m = 0 ∧
        regsBut s t [MAT_CTL.addr c m 0, MAT_STAT.addr c m 0] ∧ onlyUnit s t c) ∧
    (s.stnHeld c m = true →
      Completes (.matCtlEn c m v) s fun t =>
        t.get MAT_STAT_wr_lost c m = 1 ∧ t.get MAT_CTL_en c m = s.get MAT_CTL_en c m ∧ regsBut s t [MAT_STAT.addr c m 0] ∧ onlyRegs s t) ∧
    (s.stnHeld c m = true →
      Completes (.matCtlDisable c m v) s fun t =>
        t.get MAT_STAT_wr_lost c m = 1 ∧ t.get MAT_CTL_en c m = s.get MAT_CTL_en c m ∧ regsBut s t [MAT_STAT.addr c m 0] ∧ onlyRegs s t) ∧
    (s.get MAT_STAT_state c m = 2 → s.stnHeld c m = false →
      Completes (.matWarmExpiry c m) s fun t =>
        t.get MAT_STAT_state c m = 0 ∧ t.get MAT_STAT_rows_on c m = 0 ∧ regsBut s t [MAT_STAT.addr c m 0] ∧ onlyRegs s t)

/-- MAT_CTX_SAVE, MAT_CTX_RESTORE, MAT_CTX_DONE (R117): a save writes the image of Table 4.6 into Common and nothing else of memory; a
restore reads a well-formed image and makes the buffer that it names held, with its modes (an image that names none leaves both free);
either stays busy until its last access, whose end sets done and lets a skein that waited proceed. A command of a station that is disabled or
held by a skein, with a bad image, a buffer in use, an image outside Common or another one running is refused with the first code. -/
def Obligations.AccumulatorBankSavesAndRestores : Prop :=
  ∀ (c : Clu) (m : Mat) (v : Word) (s : State),
    let a := c.val * 0x800000 + nfld v.toNat 6 15 * 64
    let i := s.rdMem a 8256
    let ready : Prop := s.get MAT_CTL_en c m = 1 ∧ s.stnHeld c m = false
    let fits : Prop := nfld v.toNat 6 15 * 64 + 8256 ≤ 0x200000
    let good : Prop := fits → ctxImageOk i = true ∧ s.rdPoison a 8256 = false
    let free : Prop := s.bufSt c m 0 = 0 ∧ s.bufSt c m 1 = 0
    let idle : Prop := s.get MAT_CTX_CTL_busy c m = 0
    let refused := fun (x : Instr) (code : Nat) => Completes x s fun t =>
      t.get MAT_CTX_CTL_reason c m = code ∧ regsBut s t [MAT_CTX_CTL.addr c m 0] ∧ onlyRegs s t
    (ready → fits → idle →
      Completes (.matCtxSave c m v) s fun t =>
        (∀ n < 8256, t.rawByte (a + n) = lget 0 (s.ctxImage c m) n) ∧ memBut s t a 8256 ∧ t.get MAT_CTX_CTL_busy c m = 1 ∧
        t.mat c m = s.mat c m ∧ (t.cl c).eng = (s.cl c).eng ∧ (t.cl c).core = (s.cl c).core ∧ clusBut s t c) ∧
    (ready → good → free → fits → idle →
      Completes (.matCtxRestore c m v) s fun t =>
        let b := leAt i 1 1 - 1
        (leAt i 1 1 = 0 → t.bufSt c m 0 = 0 ∧ t.bufSt c m 1 = 0 ∧ t.mat c m = s.mat c m) ∧
        (leAt i 1 1 ≠ 0 → t.bufSt c m b = 3 ∧ t.bufSt c m (1 - b) = 0 ∧
          (t.mat c m).buf b = ⟨imageBuf i (64 + 4096 * b), leAt i 8 16, leAt i 2 1 == 1⟩ ∧ (t.mat c m).heldMul = leAt i 3 1 % 4 ∧
          (t.mat c m).heldFeed = leAt i 3 1 / 4 % 2 ∧ (t.mat c m).heldGroup = leAt i 3 1 / 8 % 4 ∧
          t.get MAT_STAT_held_poison c m = leAt i 2 1) ∧
        t.get MAT_CTX_CTL_busy c m = 1 ∧ (t.cl c).eng = (s.cl c).eng ∧ (t.cl c).core = (s.cl c).core ∧ memSame s t ∧ clusBut s t c) ∧
    (¬ ready → refused (.matCtxSave c m v) 0x0341 ∧ refused (.matCtxRestore c m v) 0x0341) ∧
    (ready → ¬ good → refused (.matCtxRestore c m v) 0x0342) ∧ (ready → good → ¬ free → refused (.matCtxRestore c m v) 0x0343) ∧
    (ready → ¬ fits → refused (.matCtxSave c m v) 0x0344) ∧ (ready → good → free → ¬ fits → refused (.matCtxRestore c m v) 0x0344) ∧
    (ready → fits → ¬ idle → refused (.matCtxSave c m v) 0x0345) ∧
    (ready → good → free → fits → ¬ idle → refused (.matCtxRestore c m v) 0x0345) ∧
    (¬ idle →
      (s.stnSkein c m = none → Completes (.matCtxDone c m) s fun t =>
        t.get MAT_CTX_CTL_busy c m = 0 ∧ t.get MAT_CTX_CTL_done c m = 1 ∧ regsBut s t [MAT_CTX_CTL.addr c m 0] ∧ onlyRegs s t) ∧
      (∀ k j st, s.stnSkein c m = some (k, j, st) → Completes (.matCtxDone c m) s fun t =>
        t = State.run ((s.put MAT_CTX_CTL_busy c 0 m).put MAT_CTX_CTL_done c 1 m) c k.no)) ∧
    (idle → exec (.matCtxDone c m) s = .next s)

/-- MAT_STATIONARY_LOADED, MAT_ACCUMULATION_DRAINED (R91, R95): the tile at the head of port 1 fills a free register set and its
slot's credit returns; the oldest draining buffer may leave: its tiles go through the output path one by one, as that has room, and with
the last of them the buffer is free; after either the skein's tiles move on. -/
def Obligations.MatrixStationLoadsSetsAndDrainsBuffers : Prop :=
  ∀ (c : Clu) (m : Mat) (s : State) (k : Skein) (j : Nat) (st : Stage) (r : MatRun), s.stnSkein c m = some (k, j, st) → st.mat = some r →
    k.ended = false →
    (∀ x rest, st.p1 = x :: rest → r.sets.length < 2 →
      Completes (.matStationaryLoaded c m) s fun t =>
        t = State.run (s.modStage c k.no j fun y =>
          { y with p1 := rest, occ1 := y.occ1 - 1, p1n := y.p1n + 1, p1end := y.p1end || x.last,
                   mat := y.mat.map fun r => { r with sets := r.sets ++ [x] } }) c k.no) ∧
    (2 ≤ r.sets.length → exec (.matStationaryLoaded c m) s = .next s) ∧
    (∀ b rest, r.draining = b :: rest →
      (Completes (.matAccumulationDrained c m) s fun t =>
        t = State.run (s.modStage c k.no j fun y => { y with mat := y.mat.map fun r => { r with go := true } }) c k.no) ∧
      (∃ t, s.matDrain c k.no j m k r = some t ∧
        (dDstFmt k.w ≠ 5 ∨ r.part = 3 → t.bufSt c m b = 0 ∧ (t.mat c m).buf b = AccBuf.init ∧
          regsBut s t [MAT_STAT.addr c m 0]) ∧
        (dDstFmt k.w = 5 → r.part ≠ 3 → t.regs = s.regs ∧ t.mat c m = s.mat c m) ∧ onlyUnit s t c)) ∧
    (r.draining = [] → exec (.matAccumulationDrained c m) s = .next s)

/-! ### The control core and the companion stations -/

/-- The alu and the immediate instructions (R166, Table 6.13): register d takes the function of registers a and b, or of register a and
the immediate (g0 stays zero), the pc moves to the next instruction, and nothing outside the core changes. -/
def Obligations.CoreAluAndImmediateInstructionsWriteRegisterD : Prop :=
  ∀ (c : Clu) (s : State) (w : Nat), s.issue c = some w →
    (∀ p ∈ ([ (.ctlAdd c, 0, fun a b => a + b), (.ctlSub c, 1, fun a b => a - b), (.ctlAnd c, 2, fun a b => a &&& b),
        (.ctlOr c, 3, fun a b => a ||| b), (.ctlXor c, 4, fun a b => a ^^^ b), (.ctlShl c, 5, fun a b => a <<< (b.toNat % 64)),
        (.ctlShr c, 6, fun a b => a >>> (b.toNat % 64)), (.ctlSar c, 7, fun a b => a.sshiftRight (b.toNat % 64)),
        (.ctlMul c, 8, fun a b => a * b), (.ctlSlt c, 9, fun a b => if a.toInt < b.toInt then 1 else 0),
        (.ctlSltu c, 10, fun a b => if a.toNat < b.toNat then 1 else 0), (.ctlMin c, 11, fun a b => if a.toInt < b.toInt then a else b),
        (.ctlMax c, 12, fun a b => if a.toInt < b.toInt then b else a), (.ctlMinu c, 13, fun a b => if a.toNat < b.toNat then a else b),
        (.ctlMaxu c, 14, fun a b => if a.toNat < b.toNat then b else a) ] : List (Instr × Nat × (Word → Word → Word))),
      iOp w = 1 → iFunct w = p.2.1 →
      Completes p.1 s fun t =>
        (∀ r, t.greg c r = if r = iD w ∧ r ≠ 0 then p.2.2 (s.greg c (iA w)) (s.greg c (iB w)) else s.greg c r) ∧
        (t.cl c).core.pc = (s.cl c).core.pc + 4 ∧ (t.cl c).core.imem = (s.cl c).core.imem ∧ (t.cl c).eng = (s.cl c).eng ∧
        onlyClu s t c) ∧
    (∀ p ∈ ([ (.ctlAddi c, 2, fun a i => a + BitVec.ofInt 64 (sext 16 i)), (.ctlLui c, 3, fun _ i => BitVec.ofInt 64 (sext 16 i) <<< 16),
        (.ctlOri c, 4, fun a i => a ||| BitVec.ofNat 64 i), (.ctlShli c, 5, fun a i => a <<< (i % 64)),
        (.ctlShri c, 6, fun a i => a >>> (i % 64)) ] : List (Instr × Nat × (Word → Nat → Word))),
      iOp w = p.2.1 →
      Completes p.1 s fun t =>
        (∀ r, t.greg c r = if r = iD w ∧ r ≠ 0 then p.2.2 (s.greg c (iA w)) (iImm w) else s.greg c r) ∧
        (t.cl c).core.pc = (s.cl c).core.pc + 4 ∧ (t.cl c).core.imem = (s.cl c).core.imem ∧ (t.cl c).eng = (s.cl c).eng ∧
        onlyClu s t c)

/-- Branches, jumps and halt (R166, Table 6.13): a taken branch adds four times its signed offset to the pc, an untaken one moves on;
jal keeps the return address; jr jumps to a register; halt stops with state 5. No general register but jal's d changes. -/
def Obligations.CoreBranchesJumpsAndHalt : Prop :=
  ∀ (c : Clu) (s : State) (w : Nat), s.issue c = some w →
    let pc := (s.cl c).core.pc
    (∀ p ∈ ([ (.ctlBeq c, 0x10, fun a b => decide (a = b)), (.ctlBne c, 0x11, fun a b => decide (a ≠ b)),
        (.ctlBlt c, 0x12, fun a b => decide (a.toInt < b.toInt)), (.ctlBltu c, 0x13, fun a b => decide (a.toNat < b.toNat)) ] :
        List (Instr × Nat × (Word → Word → Bool))),
      iOp w = p.2.1 →
      Completes p.1 s fun t =>
        (t.cl c).core.pc = (if p.2.2 (s.greg c (iA w)) (s.greg c (iB w)) then imod 64 ((pc : Int) + 4 * sext 11 (iOff w)) else pc + 4) ∧
        (∀ r, t.greg c r = s.greg c r) ∧ onlyClu s t c) ∧
    (iOp w = 0x14 → Completes (.ctlJal c) s fun t =>
      (t.cl c).core.pc = imod 64 ((pc : Int) + 4 * sext 21 (iJump w)) ∧
      (∀ r, t.greg c r = if r = iD w ∧ r ≠ 0 then BitVec.ofNat 64 (pc + 4) else s.greg c r) ∧ onlyClu s t c) ∧
    (iOp w = 0x15 → Completes (.ctlJr c) s fun t =>
      (t.cl c).core.pc = (s.greg c (iA w)).toNat ∧ (∀ r, t.greg c r = s.greg c r) ∧ onlyClu s t c) ∧
    (iOp w = 0x1B → Completes (.ctlHalt c) s fun t =>
      t.get CLU_CORE_CTL_state c = 5 ∧ regsBut s t [CLU_CORE_CTL.addr c 0 0] ∧ onlyRegs s t)

/-- Loads and stores of a core that meet on-chip memory or a register, or fault (R55, R167, R561): a load is issued with its zero-extended
bytes on the way to register d; a store writes exactly its bytes; each moves the pc on, and waits for its answer, which the return and the
acknowledgement take. A refused address, a failure that answers the access, and poisoned data fault the context; an access of memory whose
cluster is of another partition is counted as stale and never answered. -/
def Obligations.CoreLoadsAndStoresReachOnChipMemory : Prop :=
  ∀ (c : Clu) (s : State),
    let id := (s.cl c).core.nextId
    (∀ p ∈ ([ (.ctlLoad1 c, 8, 1), (.ctlLoad2 c, 9, 2), (.ctlLoad4 c, 10, 4), (.ctlLoad8 c, 11, 8) ] : List (Instr × Nat × Nat)),
      ∀ w, s.issue c = some w → iOp w = p.2.1 → (s.cl c).core.loads.length < 8 →
        ((s.cl c).core.stores.any fun x => s.sameBlock c x.addr (s.ctlAddr c w)) = false →
        let issued := fun (t : State) =>
          (∃ l ∈ (t.cl c).core.loads, l.id = id ∧ l.d = iD w ∧ l.size = p.2.2 ∧ l.addr = s.ctlAddr c w ∧ l.dropped = false) ∧
          (t.cl c).core.pc = (s.cl c).core.pc + 4 ∧ (∀ r, t.greg c r = s.greg c r) ∧ memSame s t ∧ clusBut s t c
        (∀ a, s.resolve c .load (s.ctlAddr c w) p.2.2 = .ok (.mem a) → a < onchipTop →
          (s.portOk (a / 0x800000) (s.cluPG c).1 (s.cluPG c).2 = true → Completes p.1 s fun t =>
            issued t ∧ t.replies = s.replies ++ [(.load c id, ⟨s.rdMem a p.2.2, s.rdPoison a p.2.2, 0⟩)]) ∧
          (s.portOk (a / 0x800000) (s.cluPG c).1 (s.cluPG c).2 = false → Completes p.1 s fun t => issued t ∧ t.replies = s.replies)) ∧
        (∀ a, s.resolve c .load (s.ctlAddr c w) p.2.2 = .ok (.reg a) →
          ¬ (p.2.2 = 8 ∧ (a = CTL_CQ_POP.addr c 0 0 ∨ a = CTL_DRAW.addr c 0 0)) → Completes p.1 s fun t =>
            issued t ∧ t.regs = s.regs ∧ t.replies.length = s.replies.length + 1 ∧
            ∃ d, t.replies.getLast? = some (.load c id, ⟨d, false, 0⟩) ∧ d.length = p.2.2) ∧
        (∀ e, s.resolve c .load (s.ctlAddr c w) p.2.2 = .error e → (s.cl c).faulted = 0 → Completes p.1 s fun t =>
          issued t ∧ (t.cl c).faulted = e ∧ raisedLast t e c ∧ t.replies = s.replies)) ∧
    (∀ p ∈ ([ (.ctlStore1 c, 12, 1), (.ctlStore2 c, 13, 2), (.ctlStore4 c, 14, 4), (.ctlStore8 c, 15, 8) ] : List (Instr × Nat × Nat)),
      ∀ w, s.issue c = some w → iOp w = p.2.1 →
        let issued := fun (t : State) =>
          (∃ x ∈ (t.cl c).core.stores, x.id = id ∧ x.addr = s.ctlAddr c w) ∧
          (t.cl c).core.pc = (s.cl c).core.pc + 4 ∧ (∀ r, t.greg c r = s.greg c r)
        (∀ a, s.resolve c .store (s.ctlAddr c w) p.2.2 = .ok (.mem a) → a < onchipTop →
          (s.portOk (a / 0x800000) (s.cluPG c).1 (s.cluPG c).2 = true → Completes p.1 s fun t =>
            issued t ∧ (∀ n < p.2.2, t.rawByte (a + n) = lget 0 (leBytes p.2.2 (s.greg c (iD w)).toNat) n) ∧ memBut s t a p.2.2 ∧
            t.replies = s.replies ++ [(.store c id, ⟨[], false, 0⟩)] ∧ (∀ d, d ≠ c.val → d ≠ a / 0x800000 → t.cl d = s.cl d)) ∧
          (s.portOk (a / 0x800000) (s.cluPG c).1 (s.cluPG c).2 = false → Completes p.1 s fun t =>
            issued t ∧ memSame s t ∧ t.replies = s.replies ∧ clusBut s t c)) ∧
        (∀ e, s.resolve c .store (s.ctlAddr c w) p.2.2 = .error e → (s.cl c).faulted = 0 → Completes p.1 s fun t =>
          issued t ∧ (t.cl c).faulted = e ∧ raisedLast t e c ∧ t.replies = s.replies ∧ memSame s t ∧ clusBut s t c)) ∧
    (∀ id l r, (s.cl c).core.loads.find? (fun x => x.id == id) = some l → s.replyOf (.load c id) = some r →
      let back := fun (t : State) =>
        (t.cl c).core.loads = lrem (fun x => x.id == id) (s.cl c).core.loads ∧ t.replies = lrem (fun p => p.1 == Who.load c id) s.replies ∧
        memSame s t ∧ clusBut s t c
      let same := fun (t : State) => ∀ g, t.greg c g = s.greg c g
      (l.dropped = false → r.reason = 0 → r.poison = false → Completes (.ctlLoadReturn c id) s fun t =>
        back t ∧ t.regs = s.regs ∧ (∀ g, t.greg c g = if g = l.d ∧ g ≠ 0 then BitVec.ofNat 64 (loadData l r.data) else s.greg c g)) ∧
      (l.dropped = true → Completes (.ctlLoadReturn c id) s fun t => back t ∧ t.regs = s.regs ∧ same t) ∧
      (l.dropped = false → r.reason = 0 → r.poison = true → (s.cl c).faulted = 0 → Completes (.ctlLoadReturn c id) s fun t =>
        back t ∧ same t ∧ (t.cl c).faulted = s.loadPoison c l.addr) ∧
      (l.dropped = false → r.reason ≠ 0 → (s.cl c).faulted = 0 → Completes (.ctlLoadReturn c id) s fun t =>
        back t ∧ same t ∧ (t.cl c).faulted = r.reason)) ∧
    (∀ id x r, (s.cl c).core.stores.find? (fun x => x.id == id) = some x → s.replyOf (.store c id) = some r →
      Completes (.ctlStoreAck c id) s fun t =>
        (t.cl c).core.stores = lrem (fun x => x.id == id) (s.cl c).core.stores ∧ (∀ g, t.greg c g = s.greg c g) ∧
        (r.reason = 0 → t.regs = s.regs ∧ (t.cl c).faulted = (s.cl c).faulted) ∧
        (r.reason ≠ 0 → (s.cl c).faulted = 0 → (t.cl c).faulted = r.reason) ∧ memSame s t ∧ clusBut s t c)

/-- wsem, fence and kend and their ends (R167 to R169): wsem takes n from its semaphore once it holds n (at once where n is 0); fence ends when
every store is acknowledged; kend ends when the engine is idle as well, counts, and with yield_req writes the save area (pc of the next
instruction and g1 to g31), after which the core is yielded. -/
def Obligations.CoreWaitsRetireAndKendYields : Prop :=
  ∀ (c : Clu) (s : State),
    let next := fun (t : State) => (t.cl c).core.wait = .none ∧ (t.cl c).core.pc = (s.cl c).core.pc + 4 ∧ (t.cl c).core.g = (s.cl c).core.g
    (∀ w, s.issue c = some w → iOp w = 0x18 →
      let n := (s.greg c (iA w)).toNat % 65536
      (n ≠ 0 → Completes (.ctlWsem c) s fun t =>
        t.get CLU_CORE_CTL_state c = 2 ∧ (t.cl c).core.wait = .wsem (nfld w 16 4) n ∧ (t.cl c).core.pc = (s.cl c).core.pc ∧
        regsBut s t [CLU_CORE_CTL.addr c 0 0] ∧ onlyUnit s t c) ∧
      (n = 0 → Completes (.ctlWsem c) s fun t => next t ∧ t.regs = s.regs ∧ onlyClu s t c)) ∧
    (∀ sem n, (s.cl c).core.wait = .wsem sem n → sem < 16 →
      (n ≤ s.get CTL_SEM_value c sem → Completes (.ctlWsemRetire c) s fun t =>
        t.get CTL_SEM_value c sem = s.get CTL_SEM_value c sem - n ∧ t.get CLU_CORE_CTL_state c = 1 ∧ next t ∧
        regsBut s t [CTL_SEM.addr c sem 0, CLU_CORE_CTL.addr c 0 0] ∧ onlyUnit s t c) ∧
      (s.get CTL_SEM_value c sem < n → exec (.ctlWsemRetire c) s = .next s)) ∧
    (∀ w, s.issue c = some w → iOp w = 0x19 →
      Completes (.ctlFence c) s fun t => t.get CLU_CORE_CTL_state c = 3 ∧ (t.cl c).core.wait = .fence ∧ onlyUnit s t c) ∧
    ((s.cl c).core.wait = .fence → (s.cl c).core.stores = [] →
      Completes (.ctlFenceRetire c) s fun t =>
        t.get CLU_CORE_CTL_state c = 1 ∧ next t ∧ regsBut s t [CLU_CORE_CTL.addr c 0 0] ∧ onlyUnit s t c) ∧
    ((s.cl c).core.stores ≠ [] → exec (.ctlFenceRetire c) s = .next s ∧ exec (.ctlKendRetire c) s = .next s) ∧
    (∀ w, s.issue c = some w → iOp w = 0x1A →
      Completes (.ctlKend c) s fun t => t.get CLU_CORE_CTL_state c = 3 ∧ (t.cl c).core.wait = .kend ∧ onlyUnit s t c) ∧
    (s.engIdle c = false → exec (.ctlKendRetire c) s = .next s) ∧
    ((s.cl c).core.wait = .kend → (s.cl c).core.stores = [] → s.engIdle c = true →
      (s.get CLU_CORE_CTL_yield_req c = 0 → Completes (.ctlKendRetire c) s fun t =>
        t.get CTL_KSTAT_kernels c = (s.get CTL_KSTAT_kernels c + 1) % 2 ^ 32 ∧ t.get CLU_CORE_CTL_state c = 1 ∧ next t ∧
        regsBut s t [CTL_KSTAT.addr c 0 0, CLU_CORE_CTL.addr c 0 0] ∧ onlyUnit s t c) ∧
      (s.get CLU_CORE_CTL_yield_req c = 1 → Completes (.ctlKendRetire c) s fun t =>
        t.get CTL_KSTAT_kernels c = (s.get CTL_KSTAT_kernels c + 1) % 2 ^ 32 ∧ (t.cl c).core.wait = .saving ∧
        (∀ n < 256, t.rawByte (s.saveArea c + n) = lget 0 (s.saveImage c) n) ∧
        memBut s t (s.saveArea c) 256 ∧ clusBut s t c)) ∧
    ((s.cl c).core.wait = .saving →
      Completes (.ctlYieldSaved c) s fun t => t.get CLU_CORE_CTL_state c = 4 ∧ (t.cl c).core.wait = .none ∧
        regsBut s t [CLU_CORE_CTL.addr c 0 0] ∧ onlyUnit s t c)

/-- Aselo's control of a core (R169, R170, R561): run starts it afresh from CLU_CORE_PC with its count at zero (the general registers keep what
they held, by the model's choice: log 178); resume reads pc and general registers back from the save area, and fails on a bad pc with 0x04E4
and on poisoned data with 0x0541; neither does more than store fields while the core runs; stop stops it and drops its loads, a halted or
faulted core keeping its state; a yield request is only noted. -/
def Obligations.CoreRunResumeStopAndYieldRequest : Prop :=
  ∀ (c : Clu) (v : Word) (s : State),
    let i := s.rdMem (s.saveArea c) 256
    let bad := s.rdPoison (s.saveArea c) 256
    (s.coreActive c = false →
      Completes (.cluCoreRun c v) s fun t =>
        t.get CLU_CORE_CTL_run c = 1 ∧ t.get CLU_CORE_CTL_state c = 1 ∧ (t.cl c).core.pc = s.get CLU_CORE_PC_pc c * 4 ∧
        t.get CTL_KSTAT_kernels c = 0 ∧ (t.cl c).core.g = (s.cl c).core.g ∧ (t.cl c).faulted = 0 ∧
        regsBut s t [CLU_CORE_CTL.addr c 0 0, CTL_KSTAT.addr c 0 0] ∧ onlyUnit s t c) ∧
    (s.coreActive c = true → ∀ x ∈ ([.cluCoreRun c v, .cluCoreResume c v] : List Instr),
      Completes x s fun t => t.get CLU_CORE_CTL_state c = s.get CLU_CORE_CTL_state c ∧ regsBut s t [CLU_CORE_CTL.addr c 0 0] ∧ onlyRegs s t) ∧
    (s.coreActive c = false → bad = false → leAt i 0 8 < 0x4000 →
      Completes (.cluCoreResume c v) s fun t =>
        t.get CLU_CORE_CTL_run c = 1 ∧ t.get CLU_CORE_CTL_state c = 1 ∧ (t.cl c).core.pc = leAt i 0 8 ∧
        (∀ r, 1 ≤ r → r < 32 → t.greg c r = BitVec.ofNat 64 (leAt i (8 * r) 8)) ∧
        t.get CTL_KSTAT_kernels c = s.get CTL_KSTAT_kernels c ∧ memSame s t ∧ clusBut s t c) ∧
    (s.coreActive c = false → bad = false → 0x4000 ≤ leAt i 0 8 →
      Completes (.cluCoreResume c v) s fun t => t.get CLU_CORE_CTL_reason c = 0x04E4 ∧
        regsBut s t [CLU_CORE_CTL.addr c 0 0] ∧ onlyRegs s t) ∧
    (s.coreActive c = false → bad = true →
      Completes (.cluCoreResume c v) s fun t => (t.cl c).faulted = 0x0541 ∧ t.get CLU_CORE_CTL_state c = 6 ∧ memSame s t ∧ clusBut s t c) ∧
    Completes (.cluCoreStop c v) s (fun t =>
      t.get CLU_CORE_CTL_run c = 0 ∧
      t.get CLU_CORE_CTL_state c = (if s.get CLU_CORE_CTL_state c = 5 ∨ s.get CLU_CORE_CTL_state c = 6 then s.get CLU_CORE_CTL_state c else 0) ∧
      (∀ l ∈ (t.cl c).core.loads, l.dropped = true) ∧ (t.cl c).eng = (s.cl c).eng ∧ regsBut s t [CLU_CORE_CTL.addr c 0 0] ∧ onlyUnit s t c) ∧
    Completes (.cluCoreYieldReq c v) s fun t =>
      t.get CLU_CORE_CTL_yield_req c = 1 ∧ t.get CLU_CORE_CTL_state c = s.get CLU_CORE_CTL_state c ∧
      regsBut s t [CLU_CORE_CTL.addr c 0 0] ∧ onlyRegs s t

/-- CLU_IMEM_LOAD, IMEM_LOAD_DONE, CTL_ILLEGAL, CTL_DRAW, STATION_CTL_EN (R170, R166, R171, R164, R165): a copy that passes the checks fills the
instruction store and is done once it ends, a failing one is refused with 0x04E3; a pc outside the store or off a word ends the context
with 0x04E2, an illegal word with 0x04E1, a poisoned one with 0x0541; an 8-byte read of CTL_DRAW returns the dither function's bits and
advances the index; a station is enabled when its checks pass, and else names the first failure; while a skein holds it the write is lost
and noted. -/
def Obligations.InstructionCopyIllegalWordsDrawsAndStationEnables : Prop :=
  ∀ (c : Clu) (v : Word) (s : State),
    (nbit v.toNat 30 = true → s.imemOk c v = true →
      Completes (.cluImemLoad c v) s fun t =>
        (t.cl c).core.copying = true ∧ t.get CLU_IMEM_LOAD_done c = 0 ∧
        (∀ i, tget 0 (t.cl c).core.imem i = if i < nfld v.toNat 21 9 * 16 then
          BitVec.ofNat 64 (leAt (s.rdMem (c.val * 0x800000 + nfld v.toNat 6 15 * 64) (nfld v.toNat 21 9 * 64)) (4 * i) 4)
          else tget 0 (s.cl c).core.imem i) ∧
        (t.cl c).core.pc = (s.cl c).core.pc ∧ (t.cl c).eng = (s.cl c).eng ∧ memSame s t ∧ clusBut s t c) ∧
    (nbit v.toNat 30 = true → s.imemOk c v = false →
      Completes (.cluImemLoad c v) s fun t => t.get CLU_CORE_CTL_reason c = 0x04E3 ∧
        regsBut s t [CLU_IMEM_LOAD.addr c 0 0, CLU_CORE_CTL.addr c 0 0] ∧ onlyRegs s t) ∧
    ((s.cl c).core.copying = true →
      Completes (.imemLoadDone c) s fun t =>
        t.get CLU_IMEM_LOAD_done c = 1 ∧ (t.cl c).core.copying = false ∧ regsBut s t [CLU_IMEM_LOAD.addr c 0 0] ∧ onlyUnit s t c) ∧
    (s.coreFree c = true → (s.cl c).faulted = 0 →
      let pc := (s.cl c).core.pc
      let ends := fun (code : Nat) => Completes (.ctlIllegal c) s fun t =>
        (t.cl c).faulted = code ∧ t.get CLU_CORE_CTL_state c = 6 ∧ t.get CLU_CORE_CTL_reason c = code ∧
        regsBut s t [CLU_CORE_CTL.addr c 0 0] ∧ onlyUnit s t c
      ((0x4000 ≤ pc ∨ pc % 4 ≠ 0) → ends 0x04E2) ∧
      (pc < 0x4000 → pc % 4 = 0 → tget false (s.cl c).core.marks (pc / 16) = true → ends 0x0541) ∧
      (∀ w, s.fetched c = some w → iLegal w = false → ends 0x04E1) ∧
      (∀ w, s.fetched c = some w → iLegal w = true → exec (.ctlIllegal c) s = .next s)) ∧
    (∀ l rest, (s.cl c).core.loads = l :: rest → l.size = 8 → s.resolve c .load l.addr 8 = .ok (.reg (CTL_DRAW.addr c 0 0)) →
      Completes (.ctlDraw c) s fun t =>
        (∀ g, t.greg c g = if g = l.d ∧ g ≠ 0 ∧ l.dropped = false then
          BitVec.ofNat 64 (dither (s.rreg CLU_DITHER_SEED c) (s.get CLU_DITHER_STEP_step c)
            (s.get CLU_DRAW_CFG_tensor_id c) (s.get CLU_DRAW_CFG_index c)) else s.greg c g) ∧
        t.get CLU_DRAW_CFG_index c = (s.get CLU_DRAW_CFG_index c + 1) % 2 ^ 32 ∧ (t.cl c).core.loads = rest ∧
        regsBut s t [CLU_DRAW_CFG.addr c 0 0] ∧ onlyUnit s t c) ∧
    (∀ stn : Fin 4,
      let n := 0x10 + stn.val
      let ctl := (stnEn n).reg.addr c 0 0
      let stat := (stnLost n).reg.addr c 0 0
      (s.stnHeld c n = false → s.get (stnEn n) c = 0 → firstFail (stnEnChecks c n s) = 0 →
        Completes (.stationCtlEn c stn v) s fun t =>
          t.get (stnEn n) c = 1 ∧ t.get (stnTilesOut n) c = 0 ∧ regsBut s t [ctl, stat] ∧ onlyRegs s t) ∧
      (s.stnHeld c n = false → s.get (stnEn n) c = 0 → firstFail (stnEnChecks c n s) ≠ 0 →
        Completes (.stationCtlEn c stn v) s fun t =>
          t.get (stnEn n) c = 0 ∧ t.get (stnReason n) c = firstFail (stnEnChecks c n s) ∧ regsBut s t [ctl] ∧ onlyRegs s t) ∧
      (s.stnHeld c n = true →
        Completes (.stationCtlEn c stn v) s fun t =>
          t.get (stnLost n) c = 1 ∧ t.get (stnEn n) c = s.get (stnEn n) c ∧ regsBut s t [stat] ∧ onlyRegs s t))

/-! ### On-chip memory -/

/-- Stored words and blocks (R53, R175, R179 to R181, R183, R205): in a word whose syndromes are zero, any change of one symbol is found and corrected, and both check
symbols XORed with 0xFF mark the word poisoned. Bytes written to memory read back, and no other byte changes, whatever the words held before;
a word written whole and not poisoned is good, and one written poisoned reads poisoned. -/
def Obligations.StoredBytesReadBackUnderTheSymbolCode : Prop :=
  (∀ (w : List Byte), w.length = 18 → classWord w = .good →
     (∀ (i : Nat) (e : Byte), i < 18 → e ≠ 0 → classWord (w.set i ((w.getD i 0) ^^^ e)) = .corrected i e.toNat) ∧
     classWord ((w.set 16 (w.getD 16 0 ^^^ 0xFF)).set 17 (w.getD 17 0 ^^^ 0xFF)) = .poison) ∧
  (∀ (s : State) (a : Nat) (bs : List Byte) (p : Bool), bs ≠ [] →
     ((a + bs.length ≤ onchipTop ∧ a / 0x800000 = (a + bs.length - 1) / 0x800000 ∧ (s.cl (a / 0x800000)).clr = none) ∨
       (hbmBase ≤ a ∧ a + bs.length ≤ hbmTop)) →
     (s.wrData a bs p).rdMem a bs.length = bs ∧ memBut s (s.wrData a bs p) a bs.length ∧
     (p = true → (s.wrData a bs p).rdPoison a bs.length = true) ∧
     (p = false → a < onchipTop → a % 16 = 0 → bs.length % 16 = 0 → (s.wrData a bs p).rdPoison a bs.length = false))

/-- CLU_CLEAR, CLEAR_DONE (R185): a range inside the granules is taken and busy; when it is done every byte of the range is zero, but that a
word written meanwhile may hold what was written; done is set, no other byte has changed, and borrowed lines of the range are dirty (R193); an
empty range, one past granule 119, and a second clear are refused with 0x0521. -/
def Obligations.ClearZeroesItsRangeAlone : Prop :=
  ∀ (c : Clu) (v : Word) (s : State),
    let first := nfld v.toNat 0 7
    let count := nfld v.toNat 8 7
    (count ≠ 0 → first + count ≤ 120 → s.get CLU_CLEAR_busy c = 0 →
      Completes (.cluClear c v) s fun t =>
        t.get CLU_CLEAR_busy c = 1 ∧ (t.cl c).clr = some (first, count) ∧ t.get CLU_CLEAR_first c = first ∧
        t.get CLU_CLEAR_count c = count ∧ regsBut s t [CLU_CLEAR.addr c 0 0] ∧ onlyUnit s t c) ∧
    ((count = 0 ∨ 120 < first + count ∨ s.get CLU_CLEAR_busy c = 1) →
      Completes (.cluClear c v) s fun t =>
        t.get CLU_CLEAR_reason c = 0x0521 ∧ t.get CLU_CLEAR_busy c = s.get CLU_CLEAR_busy c ∧
        regsBut s t [CLU_CLEAR.addr c 0 0] ∧ onlyRegs s t) ∧
    ((s.cl c).clr = none → exec (.clearDone c) s = .next s) ∧
    (∀ f n, (s.cl c).clr = some (f, n) → f + n ≤ 128 →
      Completes (.clearDone c) s fun t =>
        (∀ x, c.val * 0x800000 + f * 0x10000 ≤ x → x < c.val * 0x800000 + (f + n) * 0x10000 →
          t.rdByte x = 0 ∨ (x - x % 16 ∈ (s.cl c).lateWr ∧ t.rawByte x = s.rawByte x)) ∧
        (∀ x, x < c.val * 0x800000 + f * 0x10000 ∨ c.val * 0x800000 + (f + n) * 0x10000 ≤ x → t.rawByte x = s.rawByte x) ∧
        t.get CLU_CLEAR_busy c = 0 ∧ t.get CLU_CLEAR_done c = 1 ∧ (t.cl c).clr = none ∧
        (∀ i < 32, s.get CLU_BSLOT_valid c i = 1 → 0 < n → 4 * f ≤ s.get CLU_BSLOT_line c i → s.get CLU_BSLOT_line c i < 4 * (f + n) →
          t.get CLU_BSLOT_dirty c i = 1) ∧
        regsBut s t ([CLU_CLEAR.addr c 0 0, CLU_RETURN.addr c 0 0] ++ (List.range 32).map fun i => CLU_BSLOT.addr c i 0) ∧ clusBut s t c)

/-- CLU_SCRUB_EN, CLU_SCRUB_CLR_CNT, SCRUB_INTERVAL (R184, R198, R199): the scrubber runs only with an interval that is not zero; the
counts can be zeroed; a pass moves block by block, repairs what it has read, poisons what it cannot repair, counts, and never changes
what a read of memory returns. -/
def Obligations.ScrubbingRepairsWithoutChangingWhatReadsReturn : Prop :=
  ∀ (c : Clu) (v : Word) (s : State),
    let b := s.get MEM_SCRUB_STAT_position c
    let a := c.val * 0x800000 + 64 * b
    (s.get CLU_SCRUB_en c = 0 → nfld v.toNat 8 16 ≠ 0 → nbit v.toNat 1 = false →
      Completes (.cluScrubEn c v) s fun t =>
        t.get CLU_SCRUB_en c = 1 ∧ t.get CLU_SCRUB_interval c = nfld v.toNat 8 16 ∧ regsBut s t [CLU_SCRUB.addr c 0 0] ∧ onlyRegs s t) ∧
    (s.get CLU_SCRUB_en c = 0 → nfld v.toNat 8 16 = 0 → nbit v.toNat 1 = false →
      Completes (.cluScrubEn c v) s fun t =>
        t.get CLU_SCRUB_en c = 0 ∧ t.get CLU_SCRUB_reason c = 0x0519 ∧ regsBut s t [CLU_SCRUB.addr c 0 0] ∧ onlyRegs s t) ∧
    (Completes (.cluScrubClrCnt c v) s fun t =>
        t.rreg MEM_ECC_CNT c = 0 ∧ t.rreg MEM_ECC_ADDR c = 0 ∧ t.get CLU_SCRUB_en c = s.get CLU_SCRUB_en c ∧
        regsBut s t [CLU_SCRUB.addr c 0 0, MEM_ECC_CNT.addr c 0 0, MEM_ECC_ADDR.addr c 0 0] ∧ onlyRegs s t) ∧
    (s.get CLU_SCRUB_en c = 1 → (∀ w ∈ (s.cl c).writeback, w % 16 = 0) →
      Completes (.scrubInterval c) s fun t =>
        (∀ x, t.rdByte x = s.rdByte x) ∧ t.get MEM_SCRUB_STAT_position c = (b + 1) % 122880 ∧
        t.get MEM_SCRUB_STAT_passes c =
          (if b + 1 = 122880 then (s.get MEM_SCRUB_STAT_passes c + 1) % 2 ^ 32 else s.get MEM_SCRUB_STAT_passes c) ∧
        (∀ w ∈ (s.cl c).writeback, s.wclass w = .uncorrectable → t.wclass w = .poison) ∧
        (∀ w ∈ (s.cl c).writeback, ∀ i e, s.wclass w = .corrected i e → t.wclass w = .good) ∧ clusBut s t c) ∧
    (s.get CLU_SCRUB_en c = 0 → exec (.scrubInterval c) s = .next s) ∧
    (s.get CLU_SCRUB_en c = 1 → (s.cl c).writeback = [] → s.get MEM_ECC_CNT_corrected c < 2 ^ 32 - 1 →
      (∃ i e, s.wclass (a + 16) = .corrected i e) → s.wclass a = .good → s.wclass (a + 32) = .good → s.wclass (a + 48) = .good →
      Completes (.scrubInterval c) s fun t =>
        t.get MEM_ECC_CNT_corrected c = s.get MEM_ECC_CNT_corrected c + 1 ∧ (t.cl c).writeback = [a + 16] ∧ raisedLast t 0x05F0 c ∧
        t.mem = s.mem ∧ t.ecc = s.ecc)

/-- CLU_BORROW_EN, CLU_BSLOT_WRITE (R194, R195, R199): the budget is 6 lines at reset and at most 32; an enable that passes Table 7.16 sets
en, a failing one leaves it 0 with the first failing code; a slot written within the budget, on a line that no other valid slot names and that
may be lent, is marked, and may be unmarked; a write that names a line from 480 to 511 or a line already lent, or that passes
the budget, is ignored with 0x0515. A write of a line that Aselo may not lend is not made (the model's choice: log 185). -/
def Obligations.BorrowSlotsStayWithinTheBudget : Prop :=
  (∀ c : Clu, State.reset.get CLU_BORROW_CFG_ret_lines c = 6) ∧
  ∀ (c : Clu) (slot : Fin 32) (v : Word) (s : State),
    let r := nfld v.toNat 1 6
    let lo := s.get CLU_SPILL_BASE_base c * 0x4000
    let lines := (s.validSlots c).map fun i => s.get CLU_BSLOT_line c i
    let others := (s.validSlots c).filter fun i => i != slot.val
    let line := nfld v.toNat 0 9
    let ignored := Completes (.cluBslotWrite c slot v) s fun t =>
      t.get CLU_BORROW_CFG_reason c = 0x0515 ∧ regsBut s t [CLU_BORROW_CFG.addr c 0 0] ∧ onlyRegs s t
    let c1 : Prop := 1 ≤ r ∧ r ≤ 32
    let c2 : Prop := isHbm lo = true ∧ isHbm (lo + r * 0x4000 - 1) = true ∧ hbmCroft lo = hbmCroft (lo + r * 0x4000 - 1) ∧
      hbmCroft lo ∈ s.aliasCrofts c
    let c3 : Prop := ∀ l ∈ lines, l < 480
    let c4 : Prop := lines.length ≤ r ∧ lines.Nodup
    let failed := fun (code : Nat) => Completes (.cluBorrowEn c v) s fun t =>
      t.get CLU_BORROW_CFG_en c = 0 ∧ t.get CLU_BORROW_CFG_reason c = code ∧ regsBut s t [CLU_BORROW_CFG.addr c 0 0] ∧ onlyRegs s t
    (s.get CLU_BORROW_CFG_en c = 0 →
      (c1 → c2 → c3 → c4 → Completes (.cluBorrowEn c v) s fun t =>
        t.get CLU_BORROW_CFG_en c = 1 ∧ t.get CLU_BORROW_CFG_ret_lines c = r ∧ regsBut s t [CLU_BORROW_CFG.addr c 0 0] ∧ onlyRegs s t) ∧
      (¬ c1 → failed 0x0511) ∧ (c1 → ¬ c2 → failed 0x0512) ∧ (c1 → c2 → ¬ c3 → failed 0x0513) ∧ (c1 → c2 → c3 → ¬ c4 → failed 0x0514)) ∧
    (s.get CLU_BORROW_CFG_en c = 1 →
      (s.get CLU_BSLOT_valid c slot = 0 → nbit v.toNat 16 = true → line < 480 →
        (∀ i ∈ others, s.get CLU_BSLOT_line c i ≠ line) → (others.map fun i => s.get CLU_BSLOT_line c i).Nodup →
        others.length < s.get CLU_BORROW_CFG_ret_lines c →
        (s.mayLend c line 1 = true → Completes (.cluBslotWrite c slot v) s fun t =>
          t.get CLU_BSLOT_valid c slot = 1 ∧ t.get CLU_BSLOT_line c slot = line ∧ t.get CLU_BSLOT_dirty c slot = 0 ∧
          regsBut s t [CLU_BSLOT.addr c slot 0] ∧ onlyRegs s t) ∧
        (s.mayLend c line 1 = false → exec (.cluBslotWrite c slot v) s = .next s)) ∧
      (nbit v.toNat 16 = false → line < 480 → Completes (.cluBslotWrite c slot v) s fun t =>
        t.get CLU_BSLOT_valid c slot = 0 ∧ t.get CLU_BSLOT_line c slot = line ∧ regsBut s t [CLU_BSLOT.addr c slot 0] ∧ onlyRegs s t) ∧
      (480 ≤ line → ignored) ∧ (nbit v.toNat 16 = true → (∃ i ∈ others, s.get CLU_BSLOT_line c i = line) → ignored) ∧
      (nbit v.toNat 16 = true → s.get CLU_BORROW_CFG_ret_lines c ≤ others.length → ignored))

/-- CLU_RETURN, CLU_REFILL, RETURN_DONE, REFILL_DONE (R196, R207): a return frees the clean slots at once and sends every dirty line, block
by block, towards its slot's spill area in HBM3; a refill reads a slot's spill area; each ends when its last block has been answered (a return
with no valid slot left); a disabled or busy unit, and a refill of a slot that is not valid, is refused with 0x0516. -/
def Obligations.ReturnAndRefillMoveBorrowedLines : Prop :=
  ∀ (c : Clu) (v : Word) (s : State),
    let slot := nfld v.toNat 2 5
    let dirty := (s.validSlots c).filter fun i => s.get CLU_BSLOT_dirty c i == 1
    let area := fun (i : Nat) => (List.range 256).map fun b => s.get CLU_SPILL_BASE_base c * 0x4000 + i * 0x4000 + 64 * b
    let refused := fun (x : Instr) => Completes x s fun t =>
      t.get CLU_RETURN_reason c = 0x0516 ∧ t.get CLU_RETURN_busy c = s.get CLU_RETURN_busy c ∧ regsBut s t [CLU_RETURN.addr c 0 0] ∧ onlyRegs s t
    (s.get CLU_BORROW_CFG_en c = 1 → s.get CLU_RETURN_busy c = 0 →
      (Completes (.cluReturn c v) s fun t =>
        (∀ i < 32, t.get CLU_BSLOT_valid c i = if i ∈ dirty then 1 else 0) ∧ t.get CLU_RETURN_busy c = 1 ∧
        (∃ l, t.hbmq = s.hbmq ++ l ∧ l.map HReq.addr = dirty.flatMap area) ∧
        (∃ no, (t.cl c).ret = some ⟨no, false, dirty.map fun i => (i, 256), false⟩) ∧ memSame s t ∧ clusBut s t c) ∧
      (s.get CLU_BSLOT_valid c slot = 1 → Completes (.cluRefill c v) s fun t =>
        (∃ l, t.hbmq = s.hbmq ++ l ∧ l.map HReq.addr = area slot) ∧
        t.get CLU_RETURN_busy c = 1 ∧ (∃ no, (t.cl c).ret = some ⟨no, true, [(slot, 256)], false⟩) ∧
        regsBut s t [CLU_RETURN.addr c 0 0] ∧ memSame s t ∧ clusBut s t c)) ∧
    ((s.get CLU_BORROW_CFG_en c = 0 ∨ s.get CLU_RETURN_busy c = 1) → refused (.cluReturn c v) ∧ refused (.cluRefill c v)) ∧
    (s.get CLU_BSLOT_valid c slot = 0 → refused (.cluRefill c v)) ∧
    (∀ no left, (∀ p ∈ left, p.2 = 0) →
      ((s.cl c).ret = some ⟨no, false, left, false⟩ →
        (s.validSlots c = [] → Completes (.returnDone c) s fun t =>
          t.get CLU_RETURN_busy c = 0 ∧ t.get CLU_RETURN_done c = 1 ∧ (t.cl c).ret = none ∧ regsBut s t [CLU_RETURN.addr c 0 0] ∧
          onlyUnit s t c) ∧
        (s.validSlots c ≠ [] → exec (.returnDone c) s = .next s)) ∧
      ((s.cl c).ret = some ⟨no, true, left, false⟩ → (∀ p ∈ left, p.1 < 32) →
        Completes (.refillDone c) s fun t =>
          t.get CLU_RETURN_busy c = 0 ∧ t.get CLU_RETURN_done c = 1 ∧ (t.cl c).ret = none ∧
          (∀ p ∈ left, t.get CLU_BSLOT_dirty c p.1 = 0) ∧ onlyUnit s t c)) ∧
    (∀ x, (s.cl c).ret = some x → x.halted = true ∨ (∃ p ∈ x.left, p.2 ≠ 0) →
      exec (.returnDone c) s = .next s ∧ exec (.refillDone c) s = .next s)

/-! ### HBM3 and the stream stations -/

/-- HBM_CTL_EN, HBM_PAGE_CMD (R37, R210, R227): a trained channel with a scrub interval comes up, and an untrained or failed one or a
zero interval is refused; a page command sets the presence state of its page alone, and an undefined state, a page past 6,143 or a
busy unit is refused with 0x0621. -/
def Obligations.ChannelEnableAndPageStates : Prop :=
  ∀ (ch : Chan) (v : Word) (s : State),
    let p := nfld v.toNat 0 13
    let st := nfld v.toNat 13 2
    let pageOf := fun (s : State) q => nfld (s.rreg HBM_PSTATE ch (q / 32)) (2 * (q % 32)) 2
    (s.get HBM_CTL_en ch = 0 → s.get HBM_CTL_trained ch = 1 → s.get HBM_CTL_failed ch = 0 → nfld v.toNat 16 16 ≠ 0 →
      Completes (.hbmCtlEn ch v) s fun t =>
        t.get HBM_CTL_en ch = 1 ∧ t.get HBM_CTL_scrub_int ch = nfld v.toNat 16 16 ∧ regsBut s t [HBM_CTL.addr ch 0 0] ∧ onlyRegs s t) ∧
    (s.get HBM_CTL_en ch = 0 → (s.get HBM_CTL_trained ch = 0 ∨ s.get HBM_CTL_failed ch = 1) →
      Completes (.hbmCtlEn ch v) s fun t =>
        t.get HBM_CTL_en ch = 0 ∧ t.get HBM_CTL_reason ch = 0x0611 ∧ regsBut s t [HBM_CTL.addr ch 0 0] ∧ onlyRegs s t) ∧
    (s.get HBM_CTL_en ch = 0 → s.get HBM_CTL_trained ch = 1 → s.get HBM_CTL_failed ch = 0 → nfld v.toNat 16 16 = 0 →
      Completes (.hbmCtlEn ch v) s fun t =>
        t.get HBM_CTL_en ch = 0 ∧ t.get HBM_CTL_reason ch = 0x0631 ∧ regsBut s t [HBM_CTL.addr ch 0 0] ∧ onlyRegs s t) ∧
    (nbit v.toNat 15 = true → p < 6144 → st ≠ 3 → s.get HBM_PAGE_CMD_busy ch = 0 →
      Completes (.hbmPageCmd ch v) s fun t =>
        pageOf t p = st ∧ (∀ q < 6144, q ≠ p → pageOf t q = pageOf s q) ∧ t.get HBM_PAGE_CMD_done ch = 1 ∧
        regsBut s t [HBM_PAGE_CMD.addr ch 0 0, HBM_PSTATE.addr ch (p / 32) 0] ∧ onlyRegs s t) ∧
    (nbit v.toNat 15 = true → (6144 ≤ p ∨ st = 3 ∨ s.get HBM_PAGE_CMD_busy ch = 1) →
      Completes (.hbmPageCmd ch v) s fun t =>
        t.get HBM_CTL_reason ch = 0x0621 ∧ regsBut s t [HBM_PAGE_CMD.addr ch 0 0, HBM_CTL.addr ch 0 0] ∧ onlyRegs s t)

/-- HBM_REQUEST_ACCEPT (R37, R204, R205, R207, R209, R227): the one request that waits is taken: a read answers the bytes that stand there, a
write stores its bytes; a disabled channel refuses with 0x0612, a page that is absent or moving with 0x0225 or 0x0226, but never to
Aselo, and a failed channel a write with 0x0642; a request of a generation that is not current is counted and dropped (R459); a class waits
while a higher one does, unless its own head has aged. -/
def Obligations.ChannelServesRequestsByPresenceAndPriority : Prop :=
  ∀ (ch : Chan) (s : State) (r : HReq), hbmChan r.addr = ch.val → isHbm r.addr = true → r.addr % 64 = 0 → r.cls < 4 →
    (∀ cls : Fin 4, cls.val = r.cls → s.hbmq = [r] → s.hbmCurrent r = true →
      (s.get HBM_CTL_en ch = 1 → (s.pageState r.addr = 0 ∨ r.cls = 0) → s.get SEC_HBMKEY_keyed 0 (hbmCroft r.addr) = 1 →
        (∀ c id, r.who = .load c id → r.op = .read 64 → s.get HBM_CTL_failed ch = 0 →
          Completes (.hbmRequestAccept ch cls) s fun t =>
            t.replies = s.replies ++ [(r.who, ⟨s.rdMem r.addr 64, s.rdPoison r.addr 64, 0⟩)] ∧ t.hbmq = [] ∧ memSame s t) ∧
        (∀ c id d, d.length = 64 → r.who = .store c id → r.op = .write d (2 ^ 64 - 1) false →
          (s.get HBM_CTL_failed ch = 0 → Completes (.hbmRequestAccept ch cls) s fun t =>
            t.rdMem r.addr 64 = d ∧ t.rdPoison r.addr 64 = false ∧ memBut s t r.addr 64 ∧
            t.replies = s.replies ++ [(r.who, ⟨[], false, 0⟩)] ∧ t.hbmq = []) ∧
          (s.get HBM_CTL_failed ch = 1 → Completes (.hbmRequestAccept ch cls) s fun t =>
            t.replies = s.replies ++ [(r.who, ⟨[], false, 0x0642⟩)] ∧ t.hbmq = [] ∧ memSame s t))) ∧
      (∀ c id, r.who = .load c id → r.op = .read 64 → s.get HBM_CTL_en ch = 1 → r.cls ≠ 0 → s.pageState r.addr = 1 ∨ s.pageState r.addr = 2 →
        s.get HBM_FAULT_CNT_presence ch < 2 ^ 32 - 1 →
        Completes (.hbmRequestAccept ch cls) s fun t =>
          t.replies = s.replies ++ [(r.who, ⟨[], false, if s.pageState r.addr = 1 then 0x0225 else 0x0226⟩)] ∧ t.hbmq = [] ∧
          t.get HBM_FAULT_CNT_presence ch = s.get HBM_FAULT_CNT_presence ch + 1 ∧ memSame s t) ∧
      (∀ c id, r.who = .load c id → s.get HBM_CTL_en ch = 0 → r.op = .read 64 →
        Completes (.hbmRequestAccept ch cls) s fun t =>
          t.replies = s.replies ++ [(r.who, ⟨[], false, 0x0612⟩)] ∧ t.hbmq = [] ∧ t.regs = s.regs ∧ memSame s t)) ∧
    (∀ cls : Fin 4, cls.val = r.cls → s.hbmq = [r] → s.hbmCurrent r = false →
      Completes (.hbmRequestAccept ch cls) s fun t => t.replies = s.replies ∧ t.hbmq = [] ∧ memSame s t ∧
        (s.get PRT_STALE_discarded 0 (hbmCroft r.addr) < 2 ^ 32 - 1 →
          t.get PRT_STALE_discarded 0 (hbmCroft r.addr) = s.get PRT_STALE_discarded 0 (hbmCroft r.addr) + 1)) ∧
    (∀ (low : Fin 4) (x : HReq), r ∈ s.hbmq → hbmRank r.cls < hbmRank low → s.hbmHead ch low = some x →
      (s.tick < x.stamp + 40 → exec (.hbmRequestAccept ch low) s = .next s) ∧
      (x.stamp + 40 ≤ s.tick → Completes (.hbmRequestAccept ch low) s fun t =>
        t = (({ s with hbmq := lrem (fun y => y == x) s.hbmq } : State).hbmRetry ch).hbmTake x))

/-- HBM_PATROL, HBM_PARITY_FAIL (R206, R209): the patrol reads the next block of an idle enabled channel and never changes what a read
returns; a parity failure fails the channel, counts, and records both events. -/
def Obligations.PatrolRepairsAndParityFailsTheChannel : Prop :=
  ∀ (ch : Chan) (s : State),
    (s.get HBM_CTL_en ch = 1 → (∀ r ∈ s.hbmq, hbmChan r.addr ≠ ch.val) → tget 0 s.patrol ch < chBlocks →
      Completes (.hbmPatrol ch) s fun t =>
        tget 0 t.patrol ch = (tget 0 s.patrol ch + 1) % chBlocks ∧ (∀ x, t.rdByte x = s.rdByte x) ∧
        (s.wclass (chanOffset ch (64 * tget 0 s.patrol ch)) = .uncorrectable →
          t.wclass (chanOffset ch (64 * tget 0 s.patrol ch)) = .poison) ∧ t.clu = s.clu ∧ t.hbmq = s.hbmq) ∧
    ((s.get HBM_CTL_en ch = 0 ∨ ∃ r ∈ s.hbmq, hbmChan r.addr = ch.val) → exec (.hbmPatrol ch) s = .next s) ∧
    (s.get HBM_CTL_failed ch = 1 → exec (.hbmParityFail ch) s = .next s) ∧
    (s.get HBM_CTL_failed ch = 0 → s.get HBM_FAULT_CNT_parity ch < 2 ^ 32 - 1 →
      Completes (.hbmParityFail ch) s fun t =>
        t.get HBM_CTL_failed ch = 1 ∧ t.get HBM_FAULT_CNT_parity ch = s.get HBM_FAULT_CNT_parity ch + 1 ∧
        (t.evr.raised.drop s.evr.raised.length).map Event.code = [0x06F2, 0x06F3] ∧
        regsBut s t [HBM_CTL.addr ch 0 0, HBM_FAULT_CNT.addr ch 0 0] ∧ onlyRegsEvr s t)

/-- STR_CTL_EN, STR_QCFG_EN (R213, R225, R227): a unit needs its retry and halt limits; a queue needs an enabled unit, a class, an
outstanding limit, a rate and a depth in range, and room for its limit and its rate beside the unit's enabled queues; it starts with a
full bucket. -/
def Obligations.StreamUnitsAndQueuesCheckTheirEnables : Prop :=
  ∀ (c : Clu) (u : StrU) (q : StrN) (v : Word) (s : State),
    let cls := nfld v.toNat 1 2
    let lim := nfld v.toNat 4 7
    let depth := nfld v.toNat 16 13
    let rate := s.get STR_QRATE_rate c u q
    let on := (List.range 32).filter fun i => i != q.val && s.get STR_QCFG_en c u i == 1
    let refused := fun code => Completes (.strQcfgEn c u q v) s fun t =>
      t.get STR_QCFG_en c u q = 0 ∧ t.get STR_QCFG_reason c u q = code ∧ regsBut s t [STR_QCFG.addr c u q] ∧ onlyRegs s t
    (s.get STR_CTL_en c u = 0 → nfld v.toNat 8 8 ≠ 0 → nfld v.toNat 16 16 ≠ 0 →
      Completes (.strCtlEn c u v) s fun t => t.get STR_CTL_en c u = 1 ∧ regsBut s t [STR_CTL.addr c u 0] ∧ onlyRegs s t) ∧
    (s.get STR_CTL_en c u = 0 → (nfld v.toNat 8 8 = 0 ∨ nfld v.toNat 16 16 = 0) →
      Completes (.strCtlEn c u v) s fun t =>
        t.get STR_CTL_en c u = 0 ∧ t.get STR_CTL_reason c u = 0x025C ∧ regsBut s t [STR_CTL.addr c u 0] ∧ onlyRegs s t) ∧
    (s.get STR_QCFG_en c u q = 0 →
      (s.get STR_CTL_en c u = 0 → refused 0x025D) ∧
      (s.get STR_CTL_en c u = 1 →
        (cls = 0 → refused 0x0256) ∧
        (cls ≠ 0 → (lim = 0 ∨ 64 < lim) → refused 0x0251) ∧
        (cls ≠ 0 → 1 ≤ lim → lim ≤ 64 → (rate = 0 ∨ 131072 < rate) → refused 0x0252) ∧
        (cls ≠ 0 → 1 ≤ lim → lim ≤ 64 → 1 ≤ rate → rate ≤ 131072 → (depth < 17 ∨ 4096 < depth) → refused 0x0253) ∧
        (cls ≠ 0 → 1 ≤ lim → lim ≤ 64 → 1 ≤ rate → rate ≤ 131072 → 17 ≤ depth → depth ≤ 4096 →
          (240 < lim + (on.map fun i => s.get STR_QCFG_limit c u i).sum → refused 0x0254) ∧
          (lim + (on.map fun i => s.get STR_QCFG_limit c u i).sum ≤ 240 →
            131072 < rate + (on.map fun i => s.get STR_QRATE_rate c u i).sum → refused 0x0255)) ∧
        (cls ≠ 0 → 1 ≤ lim → lim ≤ 64 → 1 ≤ rate → rate ≤ 131072 → 17 ≤ depth → depth ≤ 4096 →
          lim + (on.map fun i => s.get STR_QCFG_limit c u i).sum ≤ 240 → rate + (on.map fun i => s.get STR_QRATE_rate c u i).sum ≤ 131072 →
          Completes (.strQcfgEn c u q v) s fun t =>
            t.get STR_QCFG_en c u q = 1 ∧ t.get STR_QCFG_limit c u q = lim ∧ (t.q c (32 * u + q)).tokens = depth * 65536 ∧
            t.rreg STR_QCNT c u q = 0 ∧ regsBut s t [STR_QCFG.addr c u q, STR_QCNT.addr c u q] ∧ onlyUnit s t c)))

/-- STR_TRANSFER_START, STR_TRANSFER_DONE (R211 to R214): with nothing ready a unit starts nothing; a tile of a read stream in HBM3
leaves as one request a block, takes its queue's tokens, and moves the round-robin pointer past the queue; a tile whose last block has
come enters its port, and one whose last write is acknowledged is counted. -/
def Obligations.StreamTransfersStartAndEnd : Prop :=
  ∀ (c : Clu) (u : StrU) (q : StrN) (s : State),
    let f := 32 * u.val + q.val
    ((s.get STR_CTL_en c u = 0 ∨ s.strPick c u = none) → exec (.strTransferStart c u) s = .next s) ∧
    (∀ k i a, s.get STR_CTL_en c u = 1 → s.strPick c u = some q.val → s.strReady c f = some (k, (i, none, 0), [⟨0, a, 16, [], beAll⟩]) →
      (s.q c f).role < 2 → (s.cl c).rr.length = 2 → ∀ o, s.resolve c (.stream false) a 1024 = .ok (.mem o) → isHbm o = true →
      Completes (.strTransferStart c u) s fun t =>
        (∃ l, t.hbmq = s.hbmq ++ l ∧ l.map HReq.addr = (List.range 16).map (fun b => o + 64 * b) ∧
          ∀ r ∈ l, r.op = .read 64 ∧ r.cls = s.get STR_QCFG_class c u q ∧ r.part = s.get CLU_PART_partition c) ∧
        (t.q c f).next = i + 1 ∧ (t.q c f).xfers.length = (s.q c f).xfers.length + 1 ∧
        (t.q c f).tokens = s.tokens c f - 16 * 65536 ∧ lget 0 (t.cl c).rr u = (q.val + 1) % 32 ∧ t.regs = s.regs ∧ memSame s t ∧
        clusBut s t c) ∧
    (∀ t0 id no k, (s.q c f).xfers.find? (fun t => t.id == id) = some t0 → (s.q c f).bound = some no → s.sk c no = some k →
      t0.dropped = false → t0.redo = none → t0.bad = 0 → t0.n ≤ t0.done.length →
      (∀ side : Bool, (s.q c f).role = (if side then 1 else 0) → t0.write = none → k.takes = true →
        (∀ x ∈ (s.q c f).xfers, x.dropped = true ∨ t0.tile ≤ x.tile) → s.feedRoom c k side = true →
        Completes (.strTransferDone c u q id) s fun t =>
          t = (((s.dropXfer c f id).bump STR_QCNT_tiles c u q).feed c no k side
            (feedTile k side t0.tileData.1 t0.tileData.2.1 t0.tileData.2.2))) ∧
      (t0.write ≠ none →
        Completes (.strTransferDone c u q id) s fun t =>
          t = ((((s.dropXfer c f id).bump STR_QCNT_tiles c u q).syncSink c no).run c no)))

/-- STR_RETRY_TIMER, STR_QCMD_RESUME, STR_QCMD_ABANDON, HALT_LIMIT_EXPIRY (R220, R222, R224): a presence halt is retried with one access
to the saved block, a read or, of a sink, a write of the tile kept; a resume of a host page's halt succeeds where the page grants the access;
a command to a queue that is not halted is refused with 0x025A; abandoning a halted queue and passing its halt limit
end the skein with 0x025B and 0x0257, and the context faults. -/
def Obligations.HaltedStreamsRetryResumeOrEnd : Prop :=
  ∀ (c : Clu) (u : StrU) (q : StrN) (s : State),
    let f := 32 * u.val + q.val
    let addr := s.rreg STR_QADDR c u q
    let ended := fun (no code : Nat) (t : State) =>
      (∃ k, t.sk c no = some k ∧ k.ended = true ∧ k.reason = code) ∧ (t.cl c).faulted = code ∧ t.get STR_QCFG_reason c u q = code ∧
      t.get CLU_CORE_CTL_state c = 6 ∧ memSame s t ∧ clusBut s t c
    ((s.q c f).halted = false →
      (Completes (.strQcmdResume c u q) s fun t =>
        t.get STR_QCFG_reason c u q = 0x025A ∧ regsBut s t [STR_QCFG.addr c u q] ∧ onlyRegs s t) ∧
      (Completes (.strQcmdAbandon c u q) s fun t =>
        t.get STR_QCFG_reason c u q = 0x025A ∧ regsBut s t [STR_QCFG.addr c u q] ∧ onlyRegs s t) ∧
      exec (.strRetryTimer c u q) s = .next s ∧ exec (.haltLimitExpiry c u q) s = .next s) ∧
    (∀ no k, (s.q c f).halted = true → (s.q c f).bound = some no → s.sk c no = some k →
      (s.presenceHalt c f = true → (s.q c f).retrying = false → k.ended = false → s.get STR_QCNT_retries c u q < 65535 →
        let retried := fun (o : Nat) (p : MOp → Prop) => ∀ i ∈ ([.strRetryTimer c u q, .strQcmdResume c u q] : List Instr),
          Completes i s fun t =>
            (∃ r, t.hbmq = s.hbmq ++ [r] ∧ r.who = .retry c u q ∧ r.addr = o ∧ p r.op) ∧ (t.q c f).halted = true ∧
            (t.q c f).retrying = true ∧ t.get STR_QCNT_retries c u q = s.get STR_QCNT_retries c u q + 1 ∧ memSame s t ∧ clusBut s t c
        (∀ o, (s.q c f).again = none → (s.q c f).role < 2 → s.resolve c (.stream false) addr 64 = .ok (.mem o) → isHbm o = true →
          retried o fun op => op = .read 64) ∧
        (∀ o r p rest, (s.q c f).again = some r → (s.q c f).role = 2 → dMode k.w = 0 →
          writePieces r.2.1 0 (sinkAddr k.w r.1.tile) (compAddr k.w (sinkAddr k.w 0) r.1.tile) (s.get STR_QPOS_block c u q) = p :: rest →
          s.resolve c (.stream true) p.addr 64 = .ok (.mem o) → isHbm o = true →
          retried o fun op => ∃ d be, op = .write d be r.2.1.poison)) ∧
      (s.presenceHalt c f = false →
        (s.strGranted c f = true → Completes (.strQcmdResume c u q) s fun t => (t.q c f).halted = false ∧ memSame s t ∧ clusBut s t c) ∧
        (s.strGranted c f = false → Completes (.strQcmdResume c u q) s fun t => (t.q c f).halted = true ∧ memSame s t ∧ clusBut s t c) ∧
        exec (.strRetryTimer c u q) s = .next s) ∧
      (k.ended = false → k.reason = 0 → ((s.q c f).role < 2 ∨ dMode k.w = 0) → (s.cl c).faulted = 0 →
        Completes (.strQcmdAbandon c u q) s (ended no 0x025B) ∧
        Completes (.haltLimitExpiry c u q) s fun t => ended no 0x0257 t ∧ raisedLast t 0x0257 c))

/-- PAGE_REQUEST_RESPONSE, ATS_TRANSLATION_RESPONSE (R216, R221): a Page Request that the host answers with Success asks for the page's
translation anew, any other answer ends the stream with 0x0258; a translation that was asked for is kept, and a halted queue that it
grants resumes; one that was not asked for changes nothing. -/
def Obligations.HostPagesResumeTheirStreams : Prop :=
  ∀ (c : Clu) (u : StrU) (q : StrN) (s : State),
    let f := 32 * u.val + q.val
    (∀ i code r, s.pcie.prs[i]? = some r → r.who = .retry c u q → r.dropped = false → (s.q c f).halted = true → (s.q c f).prs = true →
      (code = 0 → Completes (.pageRequestResponse i code) s fun t =>
        (∃ a, t.pcie.waits = s.pcie.waits ++ [a] ∧ a.who = .retry c u q ∧ a.pasid = r.pasid ∧
          a.iova = s.rreg STR_QADDR c u q % 2 ^ 57 ∧ (a.pasid, a.iova / 4096) ∈ t.pcie.asked) ∧ t.regs = s.regs ∧ t.clu = s.clu ∧ memSame s t) ∧
      (code ≠ 0 → ∀ no k, (s.q c f).bound = some no → s.sk c no = some k → k.ended = false → k.reason = 0 → (s.q c f).role < 2 →
        (s.cl c).faulted = 0 → Completes (.pageRequestResponse i code) s fun t =>
          (∃ k', t.sk c no = some k' ∧ k'.ended = true ∧ k'.reason = 0x0258) ∧ (t.cl c).faulted = 0x0258 ∧ memSame s t ∧ clusBut s t c)) ∧
    (∀ pasid page rd wr,
      ((pasid, page) ∉ s.pcie.asked → exec (.atsTranslationResponse pasid page rd wr) s = .next s) ∧
      ((pasid, page) ∈ s.pcie.asked → (∀ a ∈ s.pcie.waits, (a.pasid, a.iova / 4096) ≠ (pasid, page)) →
        Completes (.atsTranslationResponse pasid page rd wr) s fun t =>
          t.atcFind pasid page = (if rd || wr then some (rd, wr) else none) ∧ t.pcie.waits = s.pcie.waits ∧ t.regs = s.regs ∧
          t.clu = s.clu ∧ memSame s t) ∧
      (∀ a, (pasid, page) ∈ s.pcie.asked → s.pcie.waits = [a] → a.who = .retry c u q → a.pasid = pasid → a.iova / 4096 = page →
        grants rd wr a.op = true → (s.q c f).halted = true →
        Completes (.atsTranslationResponse pasid page rd wr) s fun t =>
          (t.q c f).halted = false ∧ t.pcie.waits = [] ∧ t.regs = s.regs ∧ memSame s t ∧ clusBut s t c))

/-! ### Bales -/

/-- BALE_LOAD (R239, R242): phase 1 runs the checks of Table 9.10 in its order, those of the sums and R502's policy check in their places,
and changes nothing of the module: a failing bale is answered with the first failing check's code and the bale's identifier, a passing one
waits for phase 2 as an instance that is not loaded; a bale whose read failed is answered with that code. A load that arrives while another
of its partition is under way waits. A malformed message and one for a partition that does not exist are refused (the codes: log 64).
BALE_LOAD_PHASE2, BALE_LOAD_TIMEOUT (R241, R242, R243): phase 2 waits until the occupants of the named granules are gone; then the
reservation is in effect and the named granules are cleared. A section whose digest differs refuses the load with 0x0115, a block that refuses
its enable with 0x0131 and that block's code, and the limit with 0x0134; the instance is gone then, and every granule that was held for it
is cleared. A load that every block accepts ends loaded, with every cluster bound to it, and beside other instances it waits for a gap. -/
def Obligations.BaleLoadChecksThenLoadsOrUndoes : Prop :=
  ((∀ (p len : Nat) (bale : List Byte) (s : State), (s.loadChecks p len bale).map Prod.snd =
     [0x0133, 0x0111, 0x0112, 0x0113, 0x0114, 0x0115, 0x0116, 0x0117, 0x0118, 0x0119, 0x011A, 0x011B, 0x011C, 0x011D, 0x0123, 0x0124,
      0x0125, 0x0126, 0x0127, 0x0121, 0x0122, 0x0B27]) ∧
   ∀ (b : Mbx) (bale r : List Byte) (fail : Nat) (s : State),
     let p := if b.val = 0 then mPay r 13 1 else boxOwner b
     let len := mPay r 8 4
     let checks := s.loadChecks p len bale
     let formed : Prop := mHandle r = 0 ∧ mPay r 12 1 < 8 ∧ mPay r 14 2 = 0 ∧ (b.val ≠ 0 → mPay r 13 1 = 0) ∧ (s.pasidSlot p (mPay r 12 1)).2 = true
     let refused := fun (code : Nat) (payload : List Byte) => Completes (.baleLoad b bale fail) s fun t =>
       responded t b code 0 payload ∧ t.sys = s.sys ∧ modSame s t
     requested s b 0x0131 r →
       (s.opBusy p b = true → exec (.baleLoad b bale fail) s = .next s) ∧
       (s.opBusy p b = false →
         (¬ formed → refused 0x0904 []) ∧
         (formed → s.partExists p = false → refused 0x0905 []) ∧
         (formed → s.partExists p = true →
           (0 < fail → fail < 65536 → refused fail (List.replicate 16 0)) ∧
           (fail = 0 →
             (∀ (n : Nat) (x : Bool × Nat), checks[n]? = some x → x.1 = false → (∀ y ∈ checks.take n, y.1 = true) →
               refused x.2 (leBytes 8 (bId bale) ++ List.replicate 8 0)) ∧
             (256 * 2 ^ 20 < len → refused 0x0133 (leBytes 8 (bId bale) ++ List.replicate 8 0)) ∧
             (len ≤ 256 * 2 ^ 20 → bTotal bale ≤ 256 * 2 ^ 20 → leAt bale 0 4 ≠ 0x454C4142 →
               refused 0x0111 (leBytes 8 (bId bale) ++ List.replicate 8 0)) ∧
             ((∀ y ∈ checks, y.1 = true) → Completes (.baleLoad b bale fail) s fun t =>
               (∃ i : Inst, t.sys.insts = s.sys.insts ++ [i] ∧ i.loaded = false ∧ i.hold = 0 ∧ i.part = p ∧ i.bale = bale ∧ i.digest = bDigest bale ∧
                 i.cls = bCls bale ∧ i.box = b.val ∧ i.handle = s.sys.nextHandle ∧ t.sys.nextHandle = s.sys.nextHandle + 1) ∧
               (t.box b).stage = 2 ∧ modSame s t))))) ∧
  ∀ (h : Nat) (s : State),
    ((s.instAt h = none ∨ ∃ i, s.instAt h = some i ∧ i.loaded = true) →
      exec (.baleLoadPhase2 h) s = .next s ∧ exec (.baleLoadTimeout h) s = .next s) ∧
    ∀ i : Inst, s.instAt h = some i → i.loaded = false → h < 2 ^ 64 →
      let cleared := fun (t : State) => ∀ a ∈ s.aliases i.part, ∀ g < 120, nbit (mGrans (bMan i.bale) a) g = true → ∀ x < 0x10000,
        t.rawByte (s.aliasClu i.part a * 0x800000 + g * 0x10000 + x) = 0
      let undone := fun (code block : Nat) (t : State) =>
        responded t i.box code 0 (leBytes 8 i.baleId ++ leBytes 2 block ++ List.replicate 6 0) ∧ t.sys.insts.length + 1 = s.sys.insts.length
      let s1 := s.modInst h fun i => { i with hold := 1 }
      let s2 := (s1.aliases i.part).foldl (fun (s : State) a => s.wipeMask (s.aliasClu i.part a) (mGrans (bMan i.bale) a))
        (s1.modInst h fun i => { i with hold := 2 })
      let q := untilRefused (fun (s : State) a => s.loadClu i a) (s2.aliases i.part) s2
      (Completes (.baleLoadTimeout h) s fun t =>
        undone 0x0134 0 t ∧ (i.hold = 2 → cleared t) ∧ (i.hold ≠ 2 → memSame s t) ∧
        ∃ e ∈ t.evr.raised.drop s.evr.raised.length, e.code = 0x0134) ∧
      (i.setup = true → exec (.baleLoadPhase2 h) s = .next s) ∧
      (i.setup = false →
        (((s.occupants i).foldl (fun (s : State) k => s.drainCopy k) s1).allHeld i = false → Completes (.baleLoadPhase2 h) s fun t =>
          t.instAt h = some { i with hold := 1 } ∧ t.box i.box = s.box i.box ∧ t.regs = s.regs) ∧
        (s.allHeld i = true →
          ((∃ x ∈ bSections i.bale, secMatches i.bale x.ty = false) → Completes (.baleLoadPhase2 h) s fun t => undone 0x0115 0 t ∧ cleared t) ∧
          ((∀ x ∈ bSections i.bale, secMatches i.bale x.ty = true) →
            (q.2 ≠ 0 → Completes (.baleLoadPhase2 h) s fun t => undone 0x0131 q.2 t ∧ cleared t) ∧
            (q.2 = 0 → (∀ j ∈ s.instsOf i.part, j.handle = h ∨ j.loaded = false) → Completes (.baleLoadPhase2 h) s fun t =>
              (∃ j, t.instAt h = some j ∧ j.loaded = true ∧ j.hold = 2) ∧ responded t i.box 0 h (leBytes 8 i.baleId ++ List.replicate 8 0) ∧
              ∀ c ∈ s.partClus i.part, (t.cl c).inst = some h) ∧
            (q.2 = 0 → (∃ j ∈ s.instsOf i.part, j.handle ≠ h ∧ j.loaded = true) → Completes (.baleLoadPhase2 h) s fun t =>
              (∃ j, t.instAt h = some j ∧ j.loaded = false ∧ j.setup = true ∧ j.hold = 2) ∧ t.box i.box = s.box i.box))))

/-- INSTANCE_REPROGRAM (R245): the stations of an instance loaded beside others are set up only in a gap, with every station disabled; the
gap is recorded and the next step waits for its end; then the instance is loaded, or undone with 0x0131 and the code of the block that refused.
BALE_UNLOAD (R242, R246): an unload that names no loaded instance is refused with 0x0135; one that arrives while another operation of the
partition is under way waits. A latency-critical instance stops once its step is over, a best-effort one once its cores have yielded, which is asked
for; then its skeins are cancelled, and once nothing of it is outstanding its queues are disabled, its granules are cleared and released, and
the unload is answered. -/
def Obligations.InstancesAreSetUpInGapsAndUnloaded : Prop :=
  (∀ (h : Nat) (s : State),
     (s.instAt h = none → exec (.instanceReprogram h) s = .next s) ∧
     ∀ i : Inst, s.instAt h = some i →
       ((i.setup = false ∨ s.inGap i.part = false) → exec (.instanceReprogram h) s = .next s) ∧
       (i.setup = true → s.inGap i.part = true → h < 2 ^ 64 →
         let q := untilRefused (fun (s : State) a => s.loadLast i a) (s.aliases i.part) (s.clusOff (s.partClus i.part))
         (q.2 = 0 → Completes (.instanceReprogram h) s fun t =>
           (∃ j, t.instAt h = some j ∧ j.loaded = true ∧ j.setup = false) ∧
           responded t i.box 0 h (leBytes 8 i.baleId ++ List.replicate 8 0) ∧ s.tick ≤ (t.part i.part).gapEnd ∧
           ∃ e ∈ t.evr.raised.drop s.evr.raised.length, e.code = 0x09F2) ∧
         (q.2 ≠ 0 → Completes (.instanceReprogram h) s fun t =>
           responded t i.box 0x0131 0 (leBytes 8 i.baleId ++ leBytes 2 q.2 ++ List.replicate 6 0) ∧
           t.sys.insts.length + 1 = s.sys.insts.length ∧ s.tick ≤ (t.part i.part).gapEnd ∧
           ∃ e ∈ t.evr.raised.drop s.evr.raised.length, e.code = 0x09F2))) ∧
  ∀ (b : Mbx) (r : List Byte) (s : State), ((s.box b).stage = 1 ∨ (s.box b).stage = 2) → (s.box b).req = r → mType r = 0x0132 →
    (s.unloadInst b r = none → Completes (.baleUnload b) s fun t => responded t b 0x0135 0 [] ∧ t.sys = s.sys ∧ modSame s t) ∧
    ∀ i, s.unloadInst b r = some i →
      let s1 := (s.beSettle i.part).mbxKeep b
      let stepping : Prop := i.cls = 1 ∧ ∃ l, s1.loopOf i.part = some l ∧ l.phase = 3
      let active : Prop := i.cls = 2 ∧ s1.instActive i = true
      let s2 := s1.stopCtx (s1.heldBy i.handle)
      let ready : Prop := s2.ctxDrained (s1.heldBy i.handle) = true ∧ s2.othersQuiet i = true
      (s.opBusy i.part b = true → exec (.baleUnload b) s = .next s) ∧
      (s.opBusy i.part b = false →
        (stepping → exec (.baleUnload b) s = .next s1) ∧
        (¬ stepping → active → Completes (.baleUnload b) s fun t =>
          (t.box b).stage = 2 ∧ t.sys = s1.sys ∧ memSame s1 t ∧
          ∀ c ∈ s1.coreClus i, (s1.cl c).inst = some i.handle → t.get CLU_CORE_CTL_yield_req c = 1) ∧
        (¬ stepping → ¬ active → ¬ ready → exec (.baleUnload b) s = .next s2) ∧
        (¬ stepping → ¬ active → ready → Completes (.baleUnload b) s fun t =>
          responded t b 0 0 [] ∧ t.sys.insts.length + 1 = s.sys.insts.length ∧
          ((∀ q ∈ mQs (bMan i.bale), q.q < 64) →
            ∀ q ∈ mQs (bMan i.bale), t.get STR_QCFG_en (s.aliasClu i.part q.clu) (q.q / 32) (q.q % 32) = 0) ∧
          (i.hold = 2 → ∀ a ∈ s.aliases i.part, ∀ g < 120, nbit (mGrans (bMan i.bale) a) g = true → ∀ x < 0x10000,
            t.rawByte (s.aliasClu i.part a * 0x800000 + g * 0x10000 + x) = 0)))

/-! ### Adapters -/

/-- ADP_CTL_EN, ADP_TABLE (R164, R259, R268): an enable that passes Table 10.8 restarts the fetch counters, a failing one names its first
failing check; the write is lost while a skein holds the station. A tile of a table operation fills 64 entries in order, up to the first
malformed one, which ends the skein with 0x0D04. -/
def Obligations.AdapterStationEnablesAndFillsItsEntries : Prop :=
  ∀ (c : Clu) (v : Word) (no : Nat) (s : State),
    let lc := fun (q : Nat) => s.get STR_QCFG_en c (q / 32) (q % 32) = 1 ∧ s.get STR_QCFG_class c (q / 32) (q % 32) = 1
    let valid := fun (o : Nat) => ∃ i < 16, s.rreg ADP_OP c i = o ∧ nbit o 0 = true
    let c1 : Prop := lc (s.get ADP_CFG_fetch_q c) ∧
      (s.get ADP_CFG_copy_en c = 0 ∨ (lc (s.get ADP_CFG_copy_q c) ∧ s.get ADP_CFG_copy_q c ≠ s.get ADP_CFG_fetch_q c))
    let c2 : Prop := ∀ o, valid o → nfld o 1 2 ≠ 3 ∧ (nfld o 1 2 = 0 ∨ nfld o 3 2 ≠ 0) ∧ nfld o 10 3 ≤ 3
    let c3 : Prop := ∀ o, valid o → (nfld o 1 2 = 1 → nfld o 5 4 = 5 ∨ nfld o 5 4 = 0) ∧ (nfld o 1 2 = 2 → nfld o 5 4 = 0 ∨ nfld o 5 4 = 1) ∧
      (nfld o 10 3 = 0 ∨ (nfld o 1 2 = 1 ∧ nfld o 5 4 = 0))
    let failed := fun (code : Nat) => Completes (.adpCtlEn c v) s fun t =>
      t.get ADP_CTL_en c = 0 ∧ t.get ADP_CTL_reason c = code ∧ regsBut s t [ADP_CTL.addr c 0 0] ∧ onlyRegs s t
    (s.stnHeld c 0x14 = true → exec (.adpCtlEn c v) s = .next (s.put ADP_STAT_wr_lost c 1)) ∧
    (s.stnHeld c 0x14 = false → s.get ADP_CTL_en c = 0 →
      (c1 → c2 → c3 → Completes (.adpCtlEn c v) s fun t =>
        t.get ADP_CTL_en c = 1 ∧ t.rreg ADP_CNT c = 0 ∧ t.get ADP_STAT_tiles_out c = 0 ∧
        regsBut s t [ADP_CTL.addr c 0 0, ADP_CNT.addr c 0 0, ADP_STAT.addr c 0 0] ∧ onlyRegs s t) ∧
      (¬ c1 → failed 0x0D11) ∧ (c1 → ¬ c2 → failed 0x0D12) ∧ (c1 → c2 → ¬ c3 → failed 0x0D13)) ∧
    (∀ k j st o x rest, s.adpAt c no 0 = some (k, j, st, o) → st.p0 = x :: rest →
      let m := adpLoad (64 * st.n) (chunks 16 64 x.data) (s.cl c).adp
      let s1 := ((s.modCl c fun y => { y with adp := m.1 }).modStage c no j fun y =>
        { y with p0 := rest, n := y.n + 1, inEnd := y.inEnd || x.last }).modSk c no fun k => { k with poisoned := k.poisoned || x.poison }
      ((∀ b ∈ chunks 16 64 x.data, adpEntryOk b = true) →
        Completes (.adpTable c no) s fun t => t = s1.run c no) ∧
      ((∃ b ∈ chunks 16 64 x.data, adpEntryOk b = false) → (s.cl c).faulted = 0 →
        Completes (.adpTable c no) s fun t =>
          (t.cl c).faulted = 0x0D04 ∧ t.get ADP_CTL_reason c = 0x0D04 ∧ (t.cl c).adp = m.1 ∧ memSame s t ∧ clusBut s t c)) ∧
    (∀ n (bs : List (List Byte)) (m : Tab AdpEntry) i, (∀ b ∈ bs, adpEntryOk b = true) → i < bs.length →
      tget AdpEntry.unused (adpLoad n bs m).1 (n + i) = adpEntryOf (bs.getD i []))

/-- ADP_FETCH_ISSUE, ADP_DOWN, ADP_UP (R253, R259 to R262): the next run of rows asks for its half-record of rank × wt / 8 tiles at its home
in the own croft, or at its copy in the own window; a run whose row fails the check of R260 ends the skein with its code; activations are
collected into row groups, and a last tile that leaves a group incomplete ends the skein with 0x0D06. -/
def Obligations.AdapterStationFetchesAndGroups : Prop :=
  ∀ (c : Clu) (no : Nat) (s : State) (kind : Nat) (k : Skein) (j : Nat) (st0 : Stage) (o : Nat), s.adpAt c no kind = some (k, j, st0, o) →
    let st := st0.takeIndex
    let first := lget 0 st.acc 0
    let due := fun (i : Nat) => st.rowIdx i ≠ 0xFFFF ∧ st.runStart i = i
    (kind = 1 ∨ kind = 2 →
      (∀ i, first ≤ i → i < st.idx.length → i < adpRows k j st o → due i → (∀ n, first ≤ n → n < i → ¬ due n) →
        let v := st.rowIdx i
        let e := s.adpEntry c v
        let u := if kind = 2 then 128 * e.rank * adpWt o else 0
        let home := hbmBase + s.ownAlias c * croftBytes + e.home * 1024 + nfld o 16 24 * 256 * e.rank + u
        let copy := (100 * s.ownAlias c + cluLocal c) * 0x800000 + e.copy * 0x10000 + nfld o 40 14 * 256 * e.rank + u
        let ok : Prop := v < 0x1000 ∧ e.rank ≠ 0 ∧ e.tag = s.get ADP_BASE_tag c
        let failed := fun (code : Nat) => (s.cl c).faulted = 0 → Completes (.adpFetchIssue c no) s fun t =>
          (t.cl c).faulted = code ∧ t.get ADP_CTL_reason c = code ∧ (t.cl c).adpPend = (s.cl c).adpPend ∧ memSame s t ∧ clusBut s t c
        (ok → (s.cl c).adpHeld + e.rank * adpWt o / 8 ≤ 128 →
          Completes (.adpFetchIssue c no) s fun t =>
            (t.cl c).adpPend = (s.cl c).adpPend ++ (List.range (e.rank * adpWt o / 8)).map (fun n =>
              if nbit e.flags 0 = true ∧ s.get ADP_CFG_copy_en c = 1 then (s.get ADP_CFG_copy_q c, i, copy + 1024 * n)
              else (s.get ADP_CFG_fetch_q c, i, home + 1024 * n)) ∧
            (t.cl c).adpBuf = (s.cl c).adpBuf ++ [(i, [], false, e.rank * adpWt o / 8)] ∧ t.regs = s.regs ∧ onlyUnit s t c) ∧
        (ok → 128 < (s.cl c).adpHeld + e.rank * adpWt o / 8 → exec (.adpFetchIssue c no) s = .next (s.modStage c no j fun _ => st)) ∧
        (0x1000 ≤ v → failed 0x0D02) ∧ (v < 0x1000 → e.rank = 0 → failed 0x0D03) ∧
        (v < 0x1000 → e.rank ≠ 0 → e.tag ≠ s.get ADP_BASE_tag c → failed 0x0D05)) ∧
      ((∀ i, first ≤ i → i < st.idx.length → i < adpRows k j st o → ¬ due i) →
        exec (.adpFetchIssue c no) s = .next (s.modStage c no j fun _ => st))) ∧
    (∀ x rest, st.p0 = x :: rest → st.grp.length < adpGroup o → (∀ y ∈ st.grp, y.last = false) →
      ∀ q ∈ ([(.adpDown c no, 1), (.adpUp c no, 2)] : List (Instr × Nat)), kind = q.2 →
        (st.grp.length + 1 < adpGroup o → x.last = false →
          Completes q.1 s fun t => t = s.modStage c no j fun _ => { st with p0 := rest, n := st.n + 1, grp := st.grp ++ [x] }) ∧
        (st.grp.length + 1 < adpGroup o → x.last = true → (s.cl c).faulted = 0 →
          Completes q.1 s fun t => (t.cl c).faulted = 0x0D06 ∧ t.get ADP_CTL_reason c = 0x0D06 ∧ memSame s t ∧ clusBut s t c)) ∧
    (∀ half a h, s.adpUpRow c 0xFFFF half a h = h) ∧
    (∀ half h v, ∀ n < 64, (v = 0xFFFF ∨ (s.adpEntry c v).rank ≤ n) → (s.adpDownRow c o v half h).getD n XNum.nan = XNum.zero)

/-- CONTRACT_CREATE, CONTRACT_END (R190, R191, R242, R271, R272): a contract takes its pins' granules when they are free, or when evicting
by age frees them, and is refused with 0x0533 when no room can be made; its end unpins every adapter and releases it, with 0x0534 where a
lease still holds a copy. A request waits while a load or an unload of the partition is under way. -/
def Obligations.ContractsReserveAndRelease : Prop :=
  ∀ (b : Mbx) (r : List Byte) (s : State), b.val ≠ 0 → b.val < 17 →
    let p := b.val - 1
    let refused := fun (x : Instr) (code : Nat) => Completes x s fun t => responded t b code 0 [] ∧ t.sys = s.sys ∧ modSame s t
    let formed : Prop := mHandle r = 0 ∧ zeros r 41 7 = true ∧ 0 < mPay r 6 2 ∧ mPay r 6 2 ≤ 4096 ∧ mPay r 8 1 ∈ [4, 8, 16, 32, 64]
    let took := fun (t : State) (gs : List Nat) =>
      t.sys.contracts = s.sys.contracts ++ [⟨s.sys.nextHandle, p, mPay r 0 4, mPay r 4 2, mPay r 6 2, mPay r 8 1, gs⟩] ∧
      responded t b 0 s.sys.nextHandle []
    (s.opBusy p b = true → exec (.contractCreate b) s = .next s ∧ exec (.contractEnd b) s = .next s) ∧
    (s.opBusy p b = false → requested s b 0x0141 r →
      (¬ formed → refused (.contractCreate b) 0x0904) ∧
      (formed → (∀ v, s.verAt p (mPay r 4 2) = some v → v.state ≠ 1) → refused (.contractCreate b) 0x0905) ∧
      (∀ v, formed → s.verAt p (mPay r 4 2) = some v → v.state = 1 →
        let n := cdiv (mPay r 8 1 * v.c) 65536
        let room := s.makeRoom p fun t => (t.freeRuns p n (mPay r 6 2) []).isSome
        (room = none → refused (.contractCreate b) 0x0533) ∧
        (∀ gs, s.freeRuns p n (mPay r 6 2) [] = some gs → s.sys.nextHandle < 2 ^ 64 →
          Completes (.contractCreate b) s fun t => took t gs ∧ modSame s t) ∧
        (∀ u gs, room = some u → u.freeRuns p n (mPay r 6 2) [] = some gs → s.sys.nextHandle < 2 ^ 64 →
          Completes (.contractCreate b) s fun t => took t gs))) ∧
    (s.opBusy p b = false → requested s b 0x0142 r →
      (s.contractAt p (mHandle r) = none → refused (.contractEnd b) 0x0905) ∧
      (∀ k, s.contractAt p (mHandle r) = some k →
        Completes (.contractEnd b) s fun t =>
          responded t b (if (s.pinsOf k.handle).any fun e => e.2.leases != 0 then 0x0534 else 0) 0 [] ∧
          (∀ x ∈ t.sys.contracts, x.handle ≠ k.handle) ∧ (∀ slot x, t.recAt slot = some x → x.contract ≠ some k.handle)))

/-- PIN, UNPIN, POOL_FILL_DONE (R187, R189, R191, R192, R272): a pin is checked in order; within the contract it places the adapter's copy in a
place of the contract's granules: a resident copy moves there, and one that is made anew fills. An unpin of a copy that a lease holds leaves it
draining and answers 0x0534. A fill that ends well makes the copy resident with every granule stamped, one marked draining is draining then,
and one that fails frees and clears its granules. (Where a pin stands and that it waits for a place are the model's: log 75.) -/
def Obligations.PinsAndFillsPlaceCopies : Prop :=
  (∀ (b : Mbx) (r : List Byte) (s : State), b.val ≠ 0 → b.val < 17 →
    let p := b.val - 1
    let slot := mPay r 0 2
    let refused := fun (x : Instr) (code : Nat) => Completes x s fun t => responded t b code 0 [] ∧ t.sys = s.sys ∧ modSame s t
    (s.opBusy p b = true → exec (.pin b) s = .next s ∧ exec (.unpin b) s = .next s) ∧
    (s.opBusy p b = false → ∀ q ∈ ([(.pin b, 0x0143), (.unpin b, 0x0144)] : List (Instr × Nat)), requested s b q.2 r →
      (zeros r 36 4 = false → refused q.1 0x0904) ∧
      (zeros r 36 4 = true → s.contractAt p (mHandle r) = none → refused q.1 0x0905) ∧
      (zeros r 36 4 = true → s.contractAt p (mHandle r) ≠ none → s.adapter p slot (mPay r 2 2) = none → refused q.1 0x0D22)) ∧
    (∀ (k : Contract) (a : Rec), s.opBusy p b = false → zeros r 36 4 = true → s.contractAt p (mHandle r) = some k →
      s.adapter p slot (mPay r 2 2) = some a →
      let pinned := fun (x : Rec) => x.contract = some k.handle ∧ x.unpin = false ∧ x.leases = a.leases
      let ready : Prop := a.state = 1 ∧ a.owner = k.owner ∧ a.contract = none ∧ a.base = k.base
      (requested s b 0x0143 r →
        (a.state = 2 → refused (.pin b) 0x0D22) ∧ (a.state = 0 → refused (.pin b) 0x0D27) ∧
        (a.state = 1 → (a.owner ≠ k.owner ∨ a.contract ≠ none) → refused (.pin b) 0x0905) ∧
        (a.state = 1 → a.owner = k.owner → a.contract = none → a.base ≠ k.base → refused (.pin b) 0x0D23) ∧
        (ready → k.rankMax < a.rank → refused (.pin b) 0x0D24) ∧
        (ready → a.rank ≤ k.rankMax → k.pins ≤ (s.pinsOf k.handle).length → refused (.pin b) 0x0D25) ∧
        (ready → a.rank ≤ k.rankMax → (s.pinsOf k.handle).length < k.pins →
          (s.contractRun k = none → exec (.pin b) s = .next s) ∧
          (∀ g, s.contractRun k = some g →
            (a.copy = none → Completes (.pin b) s fun t =>
              (∃ x, t.recAt slot = some x ∧ x.copy = some (g, 0) ∧ x.copyNo = a.copyNo + 1 ∧ pinned x) ∧ responded t b 0 0 [] ∧ modSame s t) ∧
            (∀ f, a.copy = some (f, 1) → Completes (.pin b) s fun t =>
              (∃ x, t.recAt slot = some x ∧ x.copy = some (g, 1) ∧ x.copyNo = a.copyNo ∧ pinned x) ∧ responded t b 0 0 [] ∧
              ∀ c < 1600, ∀ n < 120, t.get MEM_STAMP_stamp c n = s.get MEM_STAMP_stamp c n) ∧
            (∀ f, a.copy = some (f, 2) → Completes (.pin b) s fun t =>
              (∃ x, t.recAt slot = some x ∧ x.copy = some (g, 0) ∧ x.olds = a.olds ++ [(f, a.copyNo, a.drainN)] ∧ pinned x) ∧
              responded t b 0 0 [] ∧ modSame s t) ∧
            (∀ f st, a.copy = some (f, st) → st = 0 ∨ st = 3 → Completes (.pin b) s fun t =>
              (∃ x, t.recAt slot = some x ∧ x.copy = some (g, 0) ∧ x.copyNo = a.copyNo + 1 ∧ pinned x) ∧ responded t b 0 0 [])))) ∧
      (requested s b 0x0144 r →
        (a.contract ≠ some k.handle → refused (.unpin b) 0x0905) ∧
        (a.contract = some k.handle → a.leases = 0 → Completes (.unpin b) s fun t =>
          (∃ x, t.recAt slot = some x ∧ x.contract = none ∧ x.copy = none) ∧ responded t b 0 0 []) ∧
        (a.contract = some k.handle → a.leases ≠ 0 → Completes (.unpin b) s fun t =>
          (∃ x, t.recAt slot = some x ∧ x.unpin = true ∧ x.contract = a.contract ∧ x.leases = a.leases ∧
            ∀ f st, a.copy = some (f, st) → st < 2 → x.copy = some (f, 3 - st) ∧ x.drainN = a.leases) ∧
          responded t b 0x0534 0 [] ∧ modSame s t)))) ∧
  ∀ (slot : Nat) (s : State) (r : Rec) (f : Nat), s.recAt slot = some r → f + r.grans ≤ 120 →
    let cleared := fun (t : State) => ∀ c ∈ s.partClus r.part, ∀ x < r.grans * 0x10000, t.rawByte (c * 0x800000 + f * 0x10000 + x) = 0
    let stamped := fun (t : State) => ∀ c ∈ s.partClus r.part, ∀ g < r.grans, t.get MEM_STAMP_stamp c (f + g) = s.stampNow
    let gone := fun (t : State) => (∃ x, t.recAt slot = some x ∧ x.copy = none ∧ (r.unpin = true → x.contract = none)) ∧ cleared t
    (r.copy = some (f, 0) →
      (Completes (.poolFillDone slot true) s fun t => t.recAt slot = some { r with copy := some (f, 1) } ∧ stamped t) ∧
      (Completes (.poolFillDone slot false) s fun t => gone t ∧ ∀ x, t.recAt slot = some x → x.contract = none)) ∧
    (r.copy = some (f, 3) →
      (r.drainN ≠ 0 → Completes (.poolFillDone slot true) s fun t => t.recAt slot = some { r with copy := some (f, 2) } ∧ stamped t) ∧
      (r.drainN = 0 → Completes (.poolFillDone slot true) s gone) ∧ Completes (.poolFillDone slot false) s gone) ∧
    ((r.copy = none ∨ r.copy = some (f, 1) ∨ r.copy = some (f, 2)) → ∀ ok, exec (.poolFillDone slot ok) s = .next s)

/-! ### Home channels: the update engine -/

/-- UNIT_UPDATE (R37, R290 to R296, R300, R301): with every sum of its unit complete, and with c where clipping is fused, the engine takes one
step of its record's optimizer: the new masters stand in the unit's first 1,024 bytes and nothing outside the unit changes; a poisoned unit
stays as it is and the step carries 0x0C41; an export writes g of every element, an apply subtracts the export unit's δ from every
master. A record that fails a check at the step's first unit ends the step with the check's code; sums that read poisoned void it; a
unit with an absent page waits. The record table and the unit's reduction record lie in the channel, as the enables ask (R384). Aselo's own polling of its jobs follows each. -/
def Obligations.UnitUpdateStepsOneUnit : Prop :=
  (∀ (ch : Chan) (n : Part) (s : State),
    let e := s.updE ch n
    let st := s.get UPD_JOB_STAT_state ch n
    let txn := s.get UPD_JOB_STEP_txn_step ch n
    let fresh : Prop := e.recd = []
    let r := if e.recd.isEmpty then s.recBytes ch n txn else e.recd
    let pos := if rKind r = 5 ∧ e.apply = false then e.exported else e.next
    let due : Prop := s.get UPD_CTL_en ch = 1 ∧ s.get UPD_JOB_CFG_valid ch n = 1 ∧ (st = 1 ∨ st = 2 ∨ st = 3) ∧ (fresh ∨ pos < rUnits r) ∧
      s.unitComplete ch n pos = true ∧ (rFused r = true → e.c.isSome = true)
    let recHere : Prop := fresh → s.chHere ch (s.recEntry ch n) 256 = true
    let recBad : Prop := fresh ∧ (s.chBad ch (s.recEntry ch n) 128 = true ∨ s.chBad ch (s.recEntry ch n + 128 + 64 * (txn % 2)) 64 = true)
    let recOk : Prop := ¬ recBad ∧ (fresh → firstFail (recChecks r txn) = 0)
    let here : Prop := s.unitHere ch n r pos (rKind r == 5 && !e.apply) = true
    let sumsOk : Prop := s.chBad ch (s.redRec ch n pos + 320) 1024 = false
    let ca := (rRun r + pos) * 2048
    let xa := (rExport r + pos) * 2048
    let x := HomeUnit.of (s.chRd ch ca 2048)
    let stat := UPD_JOB_STAT.addr ch n 0
    let reads := [HBM_ECC_CNT.addr ch 0 0, HBM_ECC_ADDR.addr ch 0 0]
    let polled := fun (P : State → Prop) => Completes (.unitUpdate ch n) s fun t => ∃ u : State, t = u.jobsPoll ∧ P u
    let ended := fun (code : Nat) => polled fun u =>
      u.get UPD_JOB_STAT_state ch n = 7 ∧ u.get UPD_JOB_STAT_reason ch n = code ∧ regsBut s u (stat :: reads) ∧ u.upd = s.upd ∧ memSame s u
    let poisoned := polled fun u => memSame s u ∧ (u.updE ch n).next = pos + 1 ∧ (u.updE ch n).handed = e.handed ∧
      u.get UPD_JOB_STAT_reason ch n = 0x0C41 ∧ u.get UPD_JOB_STAT_units_done ch n = s.get UPD_JOB_STAT_units_done ch n ∧
      regsBut s u (stat :: reads) ∧ u.clu = s.clu
    let done := fun (masters : List Byte) => s.get UPD_JOB_STAT_units_done ch n < 2 ^ 32 - 1 → polled fun u =>
      u.chRd ch ca 1024 = masters ∧ memBut s u (chanOffset ch ca) 2048 ∧ (u.updE ch n).next = pos + 1 ∧ (u.updE ch n).handed = e.handed ++ [pos] ∧
      u.get UPD_JOB_STAT_committed ch n = 1 ∧ u.get UPD_JOB_STAT_units_done ch n = s.get UPD_JOB_STAT_units_done ch n + 1 ∧
      regsBut s u (stat :: reads) ∧ u.clu = s.clu
    (¬ due → exec (.unitUpdate ch n) s = .next s.jobsPoll) ∧
    (s.get UPD_TABLE_base ch + 2 ≤ chUnits → s.redRec ch n pos + 2048 ≤ chUnits * 2048 →
    (due → ¬ recHere → polled fun u => onlyRegs s u ∧ regsBut s u [HBM_FAULT_CNT.addr ch 0 0]) ∧
    (due → recHere → recBad → ended 0x0C42) ∧
    (due → recHere → ¬ recBad → fresh → firstFail (recChecks r txn) ≠ 0 → ended (firstFail (recChecks r txn))) ∧
    (due → recHere → recOk →
      (¬ here → polled fun u => memSame s u ∧ (u.updE ch n).next = e.next ∧ (u.updE ch n).exported = e.exported ∧
        regsBut s u (HBM_FAULT_CNT.addr ch 0 0 :: reads)) ∧
      (here → ¬ sumsOk → polled fun u =>
        memSame s u ∧ u.get UPD_JOB_STAT_state ch n = 6 ∧ u.get UPD_JOB_STAT_reason ch n = 0x0C65 ∧ (u.updE ch n).next = e.next) ∧
      (here → sumsOk → pos < rUnits r → rRun r + rUnits r ≤ chUnits → rExport r + rUnits r ≤ chUnits →
        (rKind r ≤ 4 →
          let gs := gradsOf r (s.unitSums ch n pos)
          let c := if rFused r = true then bin32.dec (e.c.getD 0) else numOne
          (s.unitBad ch ca r = true → poisoned) ∧ (s.unitBad ch ca r = false → done (x.update r (rFirstUnit r + pos) c gs).masters)) ∧
        (rKind r = 5 → e.apply = false → polled fun u =>
          u.chRd ch xa 2048 = (s.unitSums ch n pos).flatMap (fun x => leBytes 8 (acc40.enc none (f32Mul x (rF r 60)))) ∧
          memBut s u (chanOffset ch xa) 2048 ∧ (u.updE ch n).exported = pos + 1 ∧ (u.updE ch n).next = e.next) ∧
        (rKind r = 5 → e.apply = true →
          let δ := fun (k : Nat) => acc40.dec (s.chNum ch (xa + 8 * k) 8)
          ((s.chBad ch ca 1024 = true ∨ s.chBad ch xa 2048 = true) → poisoned) ∧
          (s.chBad ch ca 1024 = false → s.chBad ch xa 2048 = false →
            done (HomeUnit.masters { x with w := x.w.zipIdx.map fun p => bin32.enc none (rne32 ((bin32.dec p.1).add (δ p.2).neg)) }))))))) ∧
  (∀ (x : HomeUnit) (r : List Byte) (unit : Nat) (c : XNum) (gs : List (Option XNum)) (k : Nat), k < 256 →
    let w := bin32.dec (lget 0 x.w k)
    let w1 := lget 0 (x.update r unit c gs).w k
    (lget none gs k = none → w1 = lget 0 x.w k) ∧
    (∀ a, lget none gs k = some a →
      let g := f32Mul a c
      let i := 256 * unit + k
      (rKind r = 1 → w1 = bin32.enc none (f32Sub w (f32Mul (rF r 140) (f32Add g (f32Mul (rF r 52) w))))) ∧
      (rKind r = 2 →
        let m1 := sr16 r tenM i (f32Add (f32Mul (rF r 56) (bf16.dec (lget 0 x.m k))) (f32Add g (f32Mul (rF r 52) w)))
        w1 = bin32.enc none (f32Sub w (f32Mul (rF r 140) m1)) ∧ lget 0 (x.update r unit c gs).m k = bf16.enc none m1) ∧
      (rKind r = 3 →
        let m1 := sr16 r tenM i (f32Add (f32Mul (rF r 32) (bf16.dec (lget 0 x.m k))) (f32Mul (rF r 36) g))
        let v1 := sr16 r tenV i (f32Add (f32Mul (rF r 40) (bf16.dec (lget 0 x.v k))) (f32Mul (rF r 44) (f32Mul g g)))
        let u := f32Add (f32Div (f32Mul m1 (rF r 144)) (f32Add (f32Sqrt (f32Mul v1 (rF r 148))) (rF r 48))) (f32Mul (rF r 52) w)
        w1 = bin32.enc none (f32Sub w (f32Mul (rF r 140) u)) ∧ lget 0 (x.update r unit c gs).m k = bf16.enc none m1 ∧
          lget 0 (x.update r unit c gs).v k = bf16.enc none v1)))

/-- UPD_CTL_EN, UPD_JOB_VALID, UPD_CMD_VOID, UPD_CMD_APPLY, RANK_WAIT_EXPIRY (R301, R365, R371, R384): the enables run their checks; a
void stops a valid entry that has not ended; an apply begins the apply phase of an entry of kind 0x05 and is refused with 0x0C47 by
another; a wait for a rank that is due voids the step with 0x0C61 and reports it to the root's Aselo. -/
def Obligations.UpdateEnablesCommandsAndRankWait : Prop :=
  ∀ (ch : Chan) (n : Part) (v : Word) (s : State),
    let stat := UPD_JOB_STAT.addr ch n 0
    (s.get UPD_CTL_en ch = 0 →
      let failed := fun (code : Nat) => Completes (.updCtlEn ch v) s fun t =>
        t.get UPD_CTL_en ch = 0 ∧ t.get UPD_CTL_reason ch = code ∧ regsBut s t [UPD_CTL.addr ch 0 0] ∧ onlyRegs s t
      (s.get HBM_CTL_en ch = 1 → s.get UPD_TABLE_base ch + 2 ≤ chUnits →
        Completes (.updCtlEn ch v) s fun t => t.get UPD_CTL_en ch = 1 ∧ regsBut s t [UPD_CTL.addr ch 0 0] ∧ onlyRegs s t) ∧
      (s.get HBM_CTL_en ch = 0 → failed 0x0C16) ∧ (s.get HBM_CTL_en ch = 1 → chUnits < s.get UPD_TABLE_base ch + 2 → failed 0x0C17)) ∧
    (s.get UPD_JOB_CFG_valid ch n = 0 →
      let s1 := s.plainBut UPD_JOB_CFG_valid ch n 0 v
      let refused := fun (code : Nat) => Completes (.updJobValid ch n v) s fun t =>
        t.get UPD_JOB_CFG_valid ch n = 0 ∧ t.get UPD_JOB_STAT_reason ch n = code ∧ regsBut s t [UPD_JOB_CFG.addr ch n 0, stat] ∧ onlyRegs s t
      let wait := nfld v.toNat 9 10
      (s.get UPD_CTL_en ch = 0 → refused 0x0C11) ∧
      (s.get UPD_CTL_en ch = 1 → (wait = 0 ∨ 1000 < wait) → refused 0x0C12) ∧
      (firstFail (updJobChecks ch n s1) ≠ 0 → refused (firstFail (updJobChecks ch n s1))) ∧
      (firstFail (updJobChecks ch n s1) = 0 →
        Completes (.updJobValid ch n v) s fun t =>
          t.get UPD_JOB_CFG_valid ch n = 1 ∧ t.get UPD_JOB_CFG_wait_ms ch n = wait ∧ t.get UPD_JOB_CFG_rmax ch n = nfld v.toNat 1 8 ∧
          t.get UPD_JOB_STAT_state ch n = 1 ∧ t.get UPD_JOB_STAT_units_done ch n = 0 ∧ t.updE ch n = UpdEnt.init ∧
          regsBut s t [UPD_JOB_CFG.addr ch n 0, stat] ∧ t = { s with regs := t.regs, upd := t.upd })) ∧
    (nfld v.toNat 0 4 = n.val →
      let st := s.get UPD_JOB_STAT_state ch n
      let kind := s.chNum ch (s.recEntry ch n + 2) 1
      (s.get UPD_JOB_CFG_valid ch n = 0 → exec (.updCmdVoid ch v) s = .next s ∧ exec (.updCmdApply ch v) s = .next s) ∧
      (s.get UPD_JOB_CFG_valid ch n = 1 →
        (st ≠ 0 → st ≠ 7 →
          Completes (.updCmdVoid ch v) s fun t =>
            t.get UPD_JOB_STAT_state ch n = 6 ∧ t.get UPD_JOB_STAT_reason ch n = s.get UPD_JOB_STAT_reason ch n ∧ regsBut s t [stat] ∧ onlyRegs s t) ∧
        (st = 0 ∨ st = 7 → exec (.updCmdVoid ch v) s = .next s) ∧
        (kind ≠ 5 → Completes (.updCmdApply ch v) s fun t =>
          t.get UPD_JOB_STAT_reason ch n = 0x0C47 ∧ t.get UPD_JOB_STAT_state ch n = st ∧ regsBut s t [stat] ∧ onlyRegs s t) ∧
        (kind = 5 → Completes (.updCmdApply ch v) s fun t =>
          t.updE ch n = { s.updE ch n with apply := true } ∧ regsBut s t [stat] ∧ t = { s with regs := t.regs, upd := t.upd }))) ∧
    (let due := s.get UPD_JOB_CFG_valid ch n = 1 ∧ s.get UPD_JOB_STAT_state ch n = 1 ∧ ∃ p, p < s.runUnits ch n ∧ s.unitPartial ch n p = true
     (due → Completes (.rankWaitExpiry ch n) s fun t =>
        t.get UPD_JOB_STAT_state ch n = 6 ∧ t.get UPD_JOB_STAT_reason ch n = 0x0C61 ∧ memSame s t ∧
        (addrModule (s.rootAddr ch n) = s.moduleId →
          t.redIn = s.redIn ++ [(aseloOff, redMsg (s.entryJob ch n) (s.get UPD_JOB_STEP_txn_step ch n) 3 0 0x0C61 0 0)] ∧
          raisedLast t 0x0C61 ch ∧ regsBut s t [stat])) ∧
     (¬due → exec (.rankWaitExpiry ch n) s = .next s))

/-! ### Lokel -/

/-- LNK_CTL_EN, LNK_CTL_DISABLE, LINK_TRAINING_DONE, LINK_RETRAIN, RETRAIN_TIMEOUT, LNK_ROUTE_EN, ROUTE_WRITE, LNK_MODULE_ID_WRITE (R247, R323, R328,
R329, R334, R355, R495): an enable that passes its checks starts the first training; training ends up, with every flit of the replay
buffer sent again in order, or down with 0x0716 when the digests differ; a retrain keeps what the link holds, its expiry loses it; a
disable empties the link; a route write that breaks a check is ignored while routing is enabled; an identifier that changes zeroizes the
key slots. -/
def Obligations.LinksTrainRetrainFailAndRoute : Prop :=
  (∀ (l : Lnk) (v : Word) (digest : List Byte) (s : State),
    let ctl := LNK_CTL.addr l 0 0
    let st := s.get LNK_CTL_state l
    let x := s.link l
    let code := firstFail (linkChecks l (s.plainBut LNK_CTL_en l 0 0 v))
    (s.get LNK_CTL_en l = 0 →
      (code = 0 → Completes (.lnkCtlEn l v) s fun t =>
        t.get LNK_CTL_en l = 1 ∧ t.get LNK_CTL_state l = 1 ∧ t.get LNK_CTL_reason l = s.get LNK_CTL_reason l ∧
        t.get LNK_CTL_retrain_us l = nfld v.toNat 16 16 ∧ t.link l = { Link.init with first := true, joinDue := x.joinDue } ∧
        regsBut s t [ctl] ∧ t = { s with regs := t.regs, links := t.links }) ∧
      (code ≠ 0 → Completes (.lnkCtlEn l v) s fun t =>
        t.get LNK_CTL_en l = 0 ∧ t.get LNK_CTL_state l = st ∧ t.get LNK_CTL_reason l = code ∧ regsBut s t [ctl] ∧ onlyRegs s t) ∧
      (nfld v.toNat 16 16 = 0 → code = 0x0711)) ∧
    (Completes (.lnkCtlDisable l v) s fun t =>
      t.get LNK_CTL_en l = 0 ∧ t.get LNK_CTL_state l = 0 ∧ t.link l = { Link.init with joinDue := x.joinDue } ∧
      regsBut s t [ctl] ∧ t = { s with regs := t.regs, links := t.links }) ∧
    ((st = 1 ∨ st = 3) →
      (digest ≠ s.rsvDigest l → Completes (.linkTrainingDone l digest) s fun t =>
        t.get LNK_CTL_en l = 0 ∧ t.get LNK_CTL_state l = 0 ∧ t.get LNK_CTL_reason l = 0x0716 ∧ regsBut s t [ctl] ∧ onlyRegs s t) ∧
      (digest = s.rsvDigest l → Completes (.linkTrainingDone l digest) s fun t =>
        t.get LNK_CTL_state l = 2 ∧ (t.link l).first = false ∧ (t.link l).joinDue = [] ∧
        (∃ sent, (t.link l).replay = x.replay.map (fun f => { f with resent := 0 }) ++ sent) ∧ regsBut s t [ctl] ∧ memSame s t) ∧
      (digest = s.rsvDigest l → x.joinDue = [] → x.ready = [] → x.wire.length + x.replay.length ≤ 256 →
        Completes (.linkTrainingDone l digest) s fun t => (t.link l).wire = x.wire ++ x.replay.map x.bytesOf)) ∧
    (st ≠ 1 → st ≠ 3 → exec (.linkTrainingDone l digest) s = .next s) ∧
    (st = 2 → s.get LNK_STAT_retrains l < 65535 → Completes (.linkRetrain l) s fun t =>
      t.get LNK_CTL_state l = 3 ∧ t.get LNK_STAT_retrains l = s.get LNK_STAT_retrains l + 1 ∧ raisedLast t 0x07F1 l ∧
      regsBut s t [ctl, LNK_STAT.addr l 0 0] ∧ onlyRegsEvr s t) ∧
    (st = 3 → Completes (.retrainTimeout l) s fun t =>
      t.get LNK_CTL_state l = 4 ∧ (t.link l).replay = [] ∧ (t.link l).ready = [] ∧ (t.link l).rx = x.rx ∧ raisedLast t 0x07F2 l ∧
      regsBut s t [ctl] ∧ memSame s t) ∧
    (st ≠ 2 → exec (.linkRetrain l) s = .next s) ∧ (st ≠ 3 → exec (.retrainTimeout l) s = .next s)) ∧
  (∀ (d : Die) (w : Fin 1024) (v : Word) (s : State),
    let u := dieLink d
    let id := s.get LNK_MODULE_id u
    let new := nfld v.toNat 0 12
    let mod := LNK_MODULE.addr u 0 0
    let s1 := if new = id then s else { s.put LNK_MODULE_id u new with keys := [] }
    let code := firstFail (routeChecks d (s1.plainBut LNK_MODULE_route_en u 0 0 v))
    let x := (s.accessWrite LNK_ROUTE u w 0 v.toNat (2 ^ 64 - 1)).rreg LNK_ROUTE u w
    let stored := Completes (.routeWrite d w v) s fun t =>
      (∀ j < 4, nfld (t.rreg LNK_ROUTE u w) (16 * j) 9 = nfld v.toNat (16 * j) 9) ∧ regsBut s t [LNK_ROUTE.addr u w 0] ∧ onlyRegs s t
    let ignored := fun (code : Nat) => Completes (.routeWrite d w v) s fun t =>
      t.rreg LNK_ROUTE u w = s.rreg LNK_ROUTE u w ∧ t.get LNK_MODULE_reason u = code ∧ regsBut s t [mod] ∧ onlyRegs s t
    (s.get LNK_MODULE_route_en u = 0 →
      (Completes (.lnkRouteEn d v) s fun t =>
        t.get LNK_MODULE_route_en u = (if code = 0 then 1 else 0) ∧ (code ≠ 0 → t.get LNK_MODULE_reason u = code) ∧
        t.get LNK_MODULE_id u = new ∧ t.keys = (if new = id then s.keys else []) ∧ regsBut s t [mod] ∧
        t = { s with regs := t.regs, keys := t.keys }) ∧
      stored ∧
      (Completes (.lnkModuleIdWrite d v) s fun t =>
        t.get LNK_MODULE_id u = new ∧ t.keys = [] ∧ regsBut s t [mod] ∧ t = { s with regs := t.regs, keys := [] })) ∧
    (s.get LNK_MODULE_route_en u = 1 →
      (routeOk id w x = true → routeOwn id w x = true → stored) ∧ (routeOk id w x = false → ignored 0x0717) ∧
      (routeOk id w x = true → routeOwn id w x = false → ignored 0x0718) ∧
      exec (.lnkModuleIdWrite d v) s = .next s))

/-- FLIT_RECEIVE, CONTROL_FLIT, MESSAGE_FORWARD (R316, R317, R321, R322, R325, R327 to R329, R331, R332, R335): a flit with a wrong CRC, out of
order, or without room in the buffer of 1,024 is not accepted and asks for replay; the awaited one is accepted; an acknowledgement frees the replay buffer, a
nack has what is left of it sent again, and a flit resent for the eighth time retrains the link; a control flit brings and carries the
freed counts, with the acknowledgement in its header; a message for another module goes out on the link of its route with its hops lowered, flit
by flit as it arrives, and is dropped and counted where its route is inconsistent. (When the credits of a message longer than 7 flits
return is the model's: log 193.) -/
def Obligations.FlitsAreTakenInOrderAndMessagesForwarded : Prop :=
  ∀ (l : Lnk) (s : State),
    let x := s.link l
    (∀ b : List Byte,
      let crc := leAt b 268 4 = crc32c (slice b 0 268)
      let want := match x.ackSeq with | none => 0 | some a => (a + 1) % 4096
      let r := s.flitRsv l b
      let before := tget [] x.part r
      let words := (List.range 14).map (flitWord b)
      let zero := nfld (fHdr b) 6 2 == 0 && nfld (fHdr b) 34 6 == 0
      let kept := if fAckValid b then ackReplay x.replay (fAck b) else x.replay
      (s.get LNK_CTL_state l ≠ 2 → exec (.flitReceive l b) s = .next s) ∧
      (s.get LNK_CTL_state l = 2 →
        (¬crc → s.get LNK_ERR_CNT_crc_fail l < 2 ^ 32 - 1 → Completes (.flitReceive l b) s fun t =>
          t.get LNK_ERR_CNT_crc_fail l = s.get LNK_ERR_CNT_crc_fail l + 1 ∧ t.link l = { x with nack := true } ∧
          regsBut s t [LNK_ERR_CNT.addr l 0 0] ∧ t = { s with regs := t.regs, links := t.links }) ∧
        (crc → fNack b = false →
          (∃ sent, Completes (.flitReceive l b) s fun t => (t.link l).replay = kept ++ sent) ∧
          (2 ≤ fType b → fType b ≤ 5 → (fLseq b ≠ want ∨ 1024 ≤ x.stored) → Completes (.flitReceive l b) s fun t =>
            (t.link l).nack = true ∧ (t.link l).ackSeq = x.ackSeq ∧ (t.link l).rx = x.rx ∧ (t.link l).part = x.part ∧
            t.regs = s.regs ∧ t = { s with links := t.links }) ∧
          (fLseq b = want → x.stored < 1024 →
            (2 ≤ fType b → fType b ≤ 5 → Completes (.flitReceive l b) s fun t =>
              (t.link l).ackSeq = some want ∧ (t.link l).nack = false ∧ regsBut s t [LNK_STAT.addr l 0 0] ∧ memSame s t) ∧
            (fType b = 5 ∨ fType b = 4 → Completes (.flitReceive l b) s fun t =>
              ∃ lost m, (t.link l).rx = x.rx ++ lost ++ [m] ∧ (before = [] ∨ fType b = 4 → lost = []) ∧ (before = [] ∨ fType b = 5 → m.rsv = r) ∧
                tget [] (t.link l).part r = [] ∧
                (fType b = 5 → before = [] → m.cls = fClass b ∧ m.hdr = fHdr b / 2 ^ 40 ∧ m.flits = 1 ∧ m.okSeq = zero ∧ m.words = words ∧ m.done = 0) ∧
                (fType b = 4 → m.flits = before.length + 1 ∧ m.words = before.flatMap Flit.words ++ words)) ∧
            (fType b = 3 → Completes (.flitReceive l b) s fun t =>
              (t.link l).rx = x.rx ∧ (tget [] (t.link l).part r).length = before.length + 1)) ∧
          (fType b = 1 → Completes (.flitReceive l b) s fun t =>
            (∀ i < 64, let w := flitWord b (i / 16)
              tget 0 (t.link l).peerFreed i = if w.2 then tget 0 x.peerFreed i else freedTotal (tget 0 x.peerFreed i) (leAt w.1 (i % 16) 1)) ∧
            (t.link l).rx = x.rx ∧ t = { s with links := t.links })) ∧
        (crc → fNack b = true → kept ≠ [] → s.get LNK_ERR_CNT_replays l < 2 ^ 32 - 1 → Completes (.flitReceive l b) s fun t =>
          (∃ sent, (t.link l).replay = kept.map (fun f => { f with resent := f.resent + 1 }) ++ sent) ∧
          t.get LNK_ERR_CNT_replays l = s.get LNK_ERR_CNT_replays l + 1 ∧ (∃ e ∈ t.evr.raised.drop s.evr.raised.length, e.code = 0x07F0) ∧
          t.get LNK_CTL_state l = if kept.any (fun f => decide (7 ≤ f.resent)) then 3 else 2))) ∧
    (s.get LNK_CTL_state l = 2 → Completes (.controlFlit l) s fun t =>
      (t.link l).ctl = (List.range 64).map (fun i => BitVec.ofNat 8 (tget 0 x.freed i)) ∧
      (∃ b, (t.link l).wire.getLast? = some b ∧ fType b = 1 ∧ fAck b = x.ackSeq.getD 0 % 4096 ∧ fAckValid b = x.ackSeq.isSome ∧ fNack b = x.nack ∧
        ∀ i < 64, leAt b (16 + i + i / 16 * 2) 1 = tget 0 x.freed i % 256) ∧ t = { s with links := t.links }) ∧
    (s.get LNK_CTL_state l ≠ 2 → exec (.controlFlit l) s = .next s) ∧
    (∀ (r : Fin 64),
      let through := fun (dst hops span cls o q dist : Nat) =>
        s.route (linkDie l) dst = some (o, dist) ∧ dist + 1 = hops ∧ o < 24 ∧ s.rsvOf o span cls = some q ∧
          (s.get LNK_CTL_state o = 2 ∨ s.get LNK_CTL_state o = 3)
      let put := fun (t : State) (o : Nat) (fs : List Flit) =>
        (s.get LNK_CTL_state o = 3 → (t.link o).ready = (s.link o).ready ++ fs) ∧
        (t.link o).replay.length + (t.link o).ready.length = (s.link o).replay.length + (s.link o).ready.length + fs.length
      (∀ m : RxMsg, s.rxHead l r = some m →
        ((m.dst = s.moduleId ∨ m.opcode = 5 ∨ m.hopByHop = true) → exec (.messageForward l r) s = .next s) ∧
        (m.dst ≠ s.moduleId → m.opcode ≠ 5 → m.hopByHop = false →
          (∀ o q dist, (if m.cut = 0 then through m.dst (hHops m.hdr) m.span m.cls o q dist else m.way = (o, q, dist)) →
            let fs := (mkFlits m.cls (hopsHdr m.hdr dist) q m.words).drop m.cut
            Completes (.messageForward l r) s fun t =>
              put t o fs ∧ rxTaken s t l r ∧ tget 0 (t.link l).freed r = tget 0 x.freed r + (min 7 m.flits - min 7 m.cut) ∧
              t = { s with links := t.links }) ∧
          (m.cut = 0 → (∀ o dist, s.route (linkDie l) m.dst = some (o, dist) → dist + 1 ≠ hHops m.hdr ∨ 24 ≤ o) →
            s.get LNK_DROP_CNT_route l < 65534 → Completes (.messageForward l r) s fun t =>
              s.get LNK_DROP_CNT_route l < t.get LNK_DROP_CNT_route l ∧ rxTaken s t l r ∧ memSame s t ∧
              (isRequest m.opcode = false → t.get LNK_DROP_CNT_route l = s.get LNK_DROP_CNT_route l + 1 ∧
                regsBut s t [LNK_DROP_CNT.addr l 0 0])) ∧
          (m.cut = 0 → ∀ o dist, s.route (linkDie l) m.dst = some (o, dist) → dist + 1 = hHops m.hdr → o < 24 →
            (s.rsvOf o m.span m.cls = none ∨ s.get LNK_CTL_state o ∈ [0, 1, 4]) → Completes (.messageForward l r) s fun t =>
              rxTaken s t l r ∧ memSame s t ∧ (isRequest m.opcode = false → t = s.rxFree l m)))) ∧
      (∀ f fs, s.rxHead l r = none → tget [] x.part r = f :: fs → hDst f.hdr ≠ s.moduleId → hOpcode f.hdr ≠ 5 → hOpcode f.hdr ≠ 0x10 →
        (tget (0, 0, 0, 0) x.cuts r).1 = 0 → ∀ o q dist, through (hDst f.hdr) (hHops f.hdr) (hSpan f.hdr) f.cls o q dist →
          Completes (.messageForward l r) s fun t =>
            put t o ((f :: fs).map fun f => { f with hdr := hopsHdr f.hdr dist, rsv := q, resent := 0 }) ∧
            tget (0, 0, 0, 0) (t.link l).cuts r = (fs.length + 1, o, q, dist) ∧
            tget 0 (t.link l).freed r = tget 0 x.freed r + min 7 (fs.length + 1) ∧ t = { s with links := t.links }) ∧
      (s.rxHead l r = none → tget [] x.part r = [] → exec (.messageForward l r) s = .next s))

/-- READ_REQUEST, PULL_READ, REMOTE_WRITE, ACCUMULATE, CLOSE, ACK_SEND (R338 to R343, R349, R460): a request that passes the checks of Table 12.8 and that
the inbound regulator admits is performed and leaves the buffer: a read is answered with the bytes that stand there and changes no memory, a write
stores its blocks and nothing else, an accumulate hands its blocks to the home adder, and the newest write or accumulate of a stream is to
be acknowledged; a pull of a block that the root has still to land waits. A failing fifth check, and a latency-critical access of a croft that
admits none, refuses the request and breaks its stream; a close frees the stream's entry; the acknowledgement is sent once. -/
def Obligations.RemoteRequestsArePerformedOrBreakTheirStream : Prop :=
  (∀ (l : Lnk) (r : Fin 64) (s : State) (m : RxMsg) (plain : List Byte), s.rxHead l r = some m → m.dst = s.moduleId →
    (s.reqCheck l m).2 = some plain →
    let s1 := (s.reqCheck l m).1
    let off := m.addr % 2 ^ 46
    let lc := m.cls = 1 ∧ isHbm off = true
    let depth := s1.get LNK_INRSV_depth (dieLink (croftDie (hbmCroft off))) (hbmCroft off % 8)
    let n := s1.inAdmit m
    let s2 := s1.inSpend m n
    let at_ := off + 64 * m.done
    let due := fun (t : State) => ∀ e, s1.tgt (linkDie l) m = some e → ∃ e', t.tgt (linkDie l) m = some e' ∧ e'.ackDue = some m.oseq
    let ops := ([(.readRequest l r, 1), (.remoteWrite l r, 3), (.accumulate l r, 4), (.pullRead l r, 9)] : List (Instr × Nat))
    (∀ i ∈ ops, m.opcode = i.2 →
      (s1.remoteCheck m.opcode m.addr m.b m.span m.cls ≠ 0 → exec i.1 s = .next (s1.lokRefuse l m (s1.remoteCheck m.opcode m.addr m.b m.span m.cls))) ∧
      (s1.remoteCheck m.opcode m.addr m.b m.span m.cls ≠ 0 → (s1.tgt (linkDie l) m).isSome = true →
        Completes i.1 s fun t => (∃ e, t.tgt (linkDie l) m = some e ∧ e.broken = true) ∧ rxTaken s1 t l r ∧ memSame s t) ∧
      (s1.remoteCheck m.opcode m.addr m.b m.span m.cls = 0 →
        (lc → depth = 0 → exec i.1 s = .next (s1.lokRefuse l m 0x0726)) ∧
        ((lc → depth ≠ 0) →
          (s1.boundary off = false → exec i.1 s = .next ((s1.stale (memCroft off)).rxFree l m)) ∧
          (s1.boundary off = true → s1.pullHeld m = true → exec i.1 s = .next s1) ∧
          (s1.boundary off = true → s1.pullHeld m = false → n = 0 → m.done < m.b → exec i.1 s = .next s1)))) ∧
    (s1.remoteCheck m.opcode m.addr m.b m.span m.cls = 0 → (lc → depth ≠ 0) → s1.boundary off = true → s1.pullHeld m = false →
      (m.done + n = m.b → 0 < n →
        (∀ i ∈ ([(.readRequest l r, 1), (.pullRead l r, 9)] : List (Instr × Nat)), m.opcode = i.2 → s1.rangeRefuse off m.b m.cls (.read 64) = none →
          Completes i.1 s fun t =>
            t = (((s2.noteRead off (64 * m.b)).stamp off (64 * m.b)).lokAnswer (ansDie l m) l m 2 0 m.oseq
              ((List.range m.b).map fun k => s2.rdMem (off + 64 * k) 64) ((List.range m.b).map fun k => s2.rdPoison (off + 64 * k) 64)).rxFree l m ∧
            rxTaken s1 t l r ∧ memSame s t) ∧
        (m.opcode = 4 → s1.rangeRefuse off m.b m.cls (.accum 0 [] false) = none →
          let a := s2.adderTake off m.opf ((List.range m.b).map fun i => slice plain (64 * i) 64) ((List.range m.b).any fun i => m.poison i)
          (a.2 = 0 → Completes (.accumulate l r) s fun t =>
            t.mem = a.1.mem ∧ t.ecc = a.1.ecc ∧ t.regs = a.1.regs ∧ t.redIn = a.1.redIn ∧ t.upd = a.1.upd ∧ due t ∧
            (t.link l).rx = lrem (fun y => y.rsv == r.val) (a.1.link l).rx) ∧
          (a.2 ≠ 0 → exec (.accumulate l r) s = .next (a.1.lokRefuse l m a.2 false)))) ∧
      (m.opcode = 3 → 0 < n → s1.rangeRefuse at_ n m.cls (.write [] 0 false) = none → Completes (.remoteWrite l r) s fun t =>
        (∀ x < 64 * n, m.b ≠ 1 ∨ nbit m.opf x = true → t.rawByte (at_ + x) = lget 0 plain (64 * m.done + x)) ∧ memBut s t at_ (64 * n) ∧
        (m.done + n = m.b → due t ∧ rxTaken s1 t l r) ∧ (m.done + n < m.b → ∃ m', t.rxHead l r = some m' ∧ m'.done = m.done + n))) ∧
    (m.opcode = 10 → Completes (.close l r) s fun t => t.tgt (linkDie l) m = none ∧ rxTaken s1 t l r ∧ t.regs = s1.regs ∧ memSame s t)) ∧
  (∀ (d : Die) (src span cls : Nat) (s : State),
    let find := fun (t : State) => (t.lokD d).tgt.find? fun e => e.src == src && e.dst == t.moduleId && e.span == span && e.cls == cls
    (∀ e, find s = some e → e.ackDue.isSome = true → Completes (.ackSend d src span cls) s fun t =>
      (∃ e', find t = some e' ∧ e'.ackDue = none ∧ e'.expect = e.expect) ∧ memSame s t) ∧
    ((∀ e, find s = some e → e.ackDue = none) → exec (.ackSend d src span cls) s = .next s))

/-- READ_RESPONSE, ACK, FAULT_RESPONSE, TRANSACTION_TIMEOUT (R338, R341, R344, R351, R353, R524): an answer that matches an outstanding request, by its
transaction tag, ends it and its data or its reason goes to the requester; a late one is discarded and counted; an ack covers every write
up to its oseq and no later one; a broken stream is known as broken at its source; a request without answer fails with 0x0731. -/
def Obligations.AnswersEndOutstandingRequests : Prop :=
  (∀ (l : Lnk) (r : Fin 64) (s : State) (m : RxMsg) (plain : List Byte), s.rxHead l r = some m → m.dst = s.moduleId →
    s.ansCheck l m = (s, some plain) →
    let late := fun (i : Instr) => Completes i s fun t =>
      t.get LNK_DROP_CNT_stale l = s.get LNK_DROP_CNT_stale l + 1 ∧ t.replies = s.replies ∧ rxTaken s t l r ∧
      regsBut s t [LNK_DROP_CNT.addr l 0 0] ∧ memSame s t
    (∀ d o, s.outFor l m = some (d, o) → s.ansCurrent o m = true →
      (m.opcode = 2 → Completes (.readResponse l r) s fun t =>
        t = (((s.rxPoison l m).rxFree l m).outAnswer d o ⟨slice plain 0 (64 * o.b), (List.range m.b).any fun i => m.poison i, 0⟩).rxTagged s l m) ∧
      (∀ c id, o.who = some (.load c id) →
        (m.opcode = 2 → Completes (.readResponse l r) s fun t =>
          t.replies = s.replies ++ [(.load c id, ⟨slice plain 0 (64 * o.b), (List.range m.b).any fun i => m.poison i, 0⟩)] ∧ rxTaken s t l r ∧
          memSame s t ∧ t.clu = s.clu) ∧
        (m.opcode = 7 → nfld m.opf 0 16 ≠ 0x0728 → Completes (.faultResponse l r) s fun t =>
          t.replies = s.replies ++ [(.load c id, ⟨[], false, nfld m.opf 0 16⟩)] ∧ rxTaken s t l r ∧ memSame s t ∧ t.clu = s.clu ∧
          (nfld m.opf 0 16 ≠ 0 → ∃ e, (.load c id, e) ∈ (t.lokD (linkDie l)).heard ∧ e.tag = evTag m.src m.cls false ∧ e.span = m.span ∧ e.oseq = m.oseq)) ∧
        (m.opcode = 7 → nfld m.opf 0 16 = 0x0728 → (s.lokD d).outs = [o] → (∀ e ∈ (s.lokD d).src, e.held = []) →
          Completes (.faultResponse l r) s fun t =>
            t.replies = s.replies ++ [(.load c id, ⟨[], false, 0x0728⟩)] ∧ (t.lokD d).outs = [] ∧
            (∀ e ∈ (t.lokD d).src, e.dst = o.dst → e.span = o.span → e.cls = o.cls → e.broken = true) ∧ memSame s t ∧ t.clu = s.clu))) ∧
    (∀ d o o2 c id, m.opcode = 6 → s.outFor l m = some (d, o) → s.ansCurrent o m = true → (s.lokD d).outs = [o, o2] → o.ttag ≠ o2.ttag →
      o2.dst = o.dst → o2.span = o.span → o2.cls = o.cls → o.who = some (.store c id) → o.opcode = 3 → o.oseq ≤ m.opf % 2 ^ 32 → m.opf % 2 ^ 32 < o2.oseq →
      Completes (.ack l r) s fun t =>
        t.replies = s.replies ++ [(.store c id, ⟨[], false, 0⟩)] ∧ (t.lokD d).outs = [o2] ∧ rxTaken s t l r ∧ t.regs = s.regs ∧ memSame s t) ∧
    (s.get LNK_DROP_CNT_stale l < 65535 →
      ((s.outFor l m = none ∨ ∃ d o, s.outFor l m = some (d, o) ∧ s.ansCurrent o m = false) →
        ∀ i ∈ ([(.readResponse l r, 2), (.ack l r, 6)] : List (Instr × Nat)), m.opcode = i.2 → late i.1) ∧
      (m.opcode = 7 → (∃ d o, s.outFor l m = some (d, o) ∧ s.ansCurrent o m = false) → late (.faultResponse l r)) ∧
      (m.opcode = 7 → s.outFor l m = none → (∀ d < 2, ∀ x ∈ (s.lokD d).roots, x.ttag ≠ m.ttag) → late (.faultResponse l r)))) ∧
  (∀ (d : Die) (ttag : Nat) (s : State),
    (∀ o c id, (s.lokD d).outs.find? (fun o => o.ttag == ttag) = some o → o.who = some (.load c id) →
      Completes (.transactionTimeout d ttag) s fun t =>
        t.replies = s.replies ++ [(.load c id, ⟨[], false, 0x0731⟩)] ∧ (∃ e ∈ t.evr.raised.drop s.evr.raised.length, e.code = 0x0731) ∧
        memSame s t ∧ t.clu = s.clu) ∧
    ((s.lokD d).outs.find? (fun o => o.ttag == ttag) = none → exec (.transactionTimeout d ttag) s = .next s))

/-- MULTICAST_BLOCK_SEND, MULTICAST_WRITE, MULTICAST_ACK, MULTICAST_ACK_SEND, PRUNE_TIMEOUT, PRUNE, END_OF_STREAM, PULL_DONE, LEAVE, JOIN, ASELO_RELAY (R341,
R346 to R350, R352, R376, R559): the root sends a message within the window and lands it itself, or the stream ends with the code of the
refusal; a receiver copies a message to the links of its entry, lands the blocks that it awaits and acknowledges what it has landed; a
hold prunes the receivers that hold the smallest value, never the root; a pruned receiver pulls the rest and says so; a module that leaves
is refused until it joins. What follows at the root is one check of its stream. (Whether Aselo can interpret a relay is a free value, log 110;
when a landing buffer is in use: log 202.) -/
def Obligations.MulticastStreamsPruneAndModulesLeave : Prop :=
  (∀ (d : Die) (id : Nat) (s : State),
    let s1 := s.mcFeed d id
    (s1.rootAt d id = none → exec (.multicastBlockSend d id) s = .next s1) ∧
    (∀ x : McRoot, s1.rootAt d id = some x → x.ready = [] → exec (.multicastBlockSend d id) s = .next (s1.mcCheck d id)) ∧
    (∀ (x : McRoot) b rest, s1.rootAt d id = some x → x.ready = b :: rest →
      let n := x.msgLen
      let src := (s1.lokD d).findSrc (4096 + x.group) x.span x.cls
      let full := src = none ∧ streamCap ≤ (s1.lokD d).src.length
      let ends := fun (code : Nat) => exec (.multicastBlockSend d id) s = .next (s1.mcEnd d x code)
      (s1.mcHeld d x = true → exec (.multicastBlockSend d id) s = .next s1) ∧
      (s1.mcHeld d x = false →
        (∀ off code, s1.mcOwn d x b.1 n = some (off, code) → Completes (.multicastBlockSend d id) s fun t => t = (s1.notePresence off code).mcEnd d x code) ∧
        (s1.mcOwn d x b.1 n = none →
          (s1.groupCode d x.group x.span x.cls ≠ 0 → ends (s1.groupCode d x.group x.span x.cls)) ∧
          (s1.groupCode d x.group x.span x.cls = 0 → full → ends 0x0727) ∧
          (s1.groupCode d x.group x.span x.cls = 0 → ¬ full → s1.sendSlot x.cls x.span = none → ends 0x072A) ∧
          (s1.groupCode d x.group x.span x.cls = 0 → ¬ full → (s1.sendSlot x.cls x.span).isSome = true → (∀ y ∈ x.ready.take n, y.2.1.length = 64) →
            Completes (.multicastBlockSend d id) s fun t => ∃ u : State, t = u.mcCheck d x.id ∧
              (∀ i < n, ∀ k < 64, u.rawByte (b.1 + 64 * i + k) = lget 0 (lget (0, [], false) x.ready i).2.1 k) ∧ memBut s u b.1 (64 * n) ∧
              (∃ y, u.rootAt d id = some y ∧ y.sent = x.sent + n ∧ y.ready = x.ready.drop n ∧ y.marks = x.marks))))) ∧
    (∀ x : McRoot, s.rootAt d id = some x →
      (x.ready = [] ∨ s.mcHeld d x = false → exec (.pruneTimeout d id) s = .next s) ∧
      (x.ready ≠ [] → s.mcHeld d x = true → Completes (.pruneTimeout d id) s fun t => ∃ u : State, t = u.mcCheck d id ∧ memSame s u ∧
        ∃ y, u.rootAt d id = some y ∧
          ∀ p ∈ x.acks, if p.2 = s.mcLow d x ∧ p.1 ≠ s.moduleId
            then p ∉ y.acks ∧ (p.1, false) ∈ y.pruned ∧ ∃ e ∈ u.evr.raised.drop s.evr.raised.length, e.code = 0x07F3 else p ∈ y.acks))) ∧
  (∀ (l : Lnk) (r : Fin 64) (s : State) (m : RxMsg) (plain : List Byte), s.rxHead l r = some m → m.opcode = 5 → (s.reqCheck l m).2 = some plain →
    let d := linkDie l
    let u := dieLink d
    let off := m.addr % 2 ^ 46
    let at_ := off + 64 * m.done
    let id := nfld m.opf 32 16
    let mseq := nfld m.opf 0 32
    let n := s.inAdmit m
    let out := s.groupOut d m.dst m.span m.cls
    let lc := m.cls = 1 ∧ isHbm off = true
    let depth := s.get LNK_INRSV_depth (dieLink (croftDie (hbmCroft off))) (hbmCroft off % 8)
    let copied := fun (t : State) => m.passed = false → (∀ p ∈ out, p.2.2 = 0) → (out.map Prod.fst).Nodup → ∀ p ∈ out, p.1 ≠ l.val →
      (t.link p.1).replay.length + (t.link p.1).ready.length =
        (s.link p.1).replay.length + (s.link p.1).ready.length + (mkFlits m.cls m.hdr p.2.1 m.words).length
    let stream := fun (v : McRecv) => (s.recvOf d m.src id = some v ∧ v.spent mseq m.done = false) ∨
      ((∀ w, s.recvOf d m.src id = some w → w.spent mseq m.done = true) ∧ ((s.lokD d).recvs.filter McRecv.holds).length < 32 ∧
        v = ⟨m.src, id, m.dst, m.cls, m.span, m.gen, 0, 0, [], false, 0, 0, none, 0, 0, 0, 0, 0⟩)
    (s.get LNK_GROUP_valid u m.dst = 1 → s.get LNK_GROUP_local u m.dst = 0 → Completes (.multicastWrite l r) s fun t =>
      rxTaken s t l r ∧ memSame s t ∧ copied t) ∧
    (s.get LNK_GROUP_valid u m.dst = 0 ∨ s.get LNK_GROUP_local u m.dst = 1 →
      (s.mcRefuse d m.dst m.src m.span m.cls m.addr m.b ≠ 0 → Completes (.multicastWrite l r) s fun t => rxTaken s t l r ∧ memSame s t ∧
        ∀ e, t.tgt d m = some e → e.broken = true) ∧
      (s.mcRefuse d m.dst m.src m.span m.cls m.addr m.b = 0 → ∀ v, stream v →
        (v.pruned = true ∨ mseq + m.done ≠ v.landed → Completes (.multicastWrite l r) s fun t => rxTaken s t l r ∧ memSame s t ∧ copied t) ∧
        (v.pruned = false → mseq + m.done = v.landed →
          (lc → depth = 0 → Completes (.multicastWrite l r) s fun t => rxTaken s t l r ∧ memSame s t) ∧
          ((lc → depth ≠ 0) → s.boundary off = true → 0 < n → s.rangeRefuse at_ n m.cls (.mcast [] false) = none →
            Completes (.multicastWrite l r) s fun t =>
              (∀ k < 64 * n, t.rawByte (at_ + k) = lget 0 plain (64 * m.done + k)) ∧ memBut s t at_ (64 * n) ∧ copied t ∧
              (∃ v', t.recvOf d m.src id = some v' ∧ v'.landed = v.landed + n) ∧
              (m.done + n = m.b → rxTaken s t l r) ∧ (m.done + n < m.b → ∃ m', t.rxHead l r = some m' ∧ m'.done = m.done + n)))))) ∧
  (∀ (l : Lnk) (r : Fin 64) (s : State) (m : RxMsg) (plain : List Byte) (x : McRoot), s.rxHead l r = some m → m.dst = s.moduleId → m.opcode = 8 →
    s.ansCheck l m = (s, some plain) →
    let id := nfld m.opf 32 16
    let d := s.rootDie l id
    s.rootAt d id = some x → x.gen = m.gen → s.genOk x.part x.gen = true →
    ((∃ p ∈ x.pruned, p.1 = m.src) → exec (.multicastAck l r) s = .next (s.rxFree l m)) ∧
    ((∀ p ∈ x.pruned, p.1 ≠ m.src) → Completes (.multicastAck l r) s fun t => ∃ u : State, t = u.mcCheck d id ∧ rxTaken s u l r ∧ memSame s u ∧
      u.rootAt d id = some { x with acks := ackPut x.acks m.src (nfld m.opf 0 32) })) ∧
  (∀ (d : Die) (root id : Nat) (s : State),
    (∀ v, s.recvOf d root id = some v → v.landed ≠ v.acked → v.pruned = false → Completes (.multicastAckSend d root id) s fun t =>
      (∃ v', t.recvOf d root id = some v' ∧ v'.acked = v.landed ∧ v'.landed = v.landed) ∧ memSame s t) ∧
    ((∀ v, s.recvOf d root id = some v → v.landed = v.acked ∨ v.pruned = true) → exec (.multicastAckSend d root id) s = .next s)) ∧
  (∀ (l : Lnk) (r : Fin 64) (s : State) (m : RxMsg) (b : List Byte),
    let id := leAt b 0 2
    let d := if (s.recvOf (linkDie l) m.src id).isSome then linkDie l else 1 - linkDie l
    ((s.noticeTake l r 4).2 = some (m, b) → ∀ v, s.recvOf d m.src id = some v → Completes (.prune l r) s fun t => memSame s t ∧
      t.recvOf d m.src id = some { v with pruned := true, buf := [], pulled := leAt b 4 4, got := leAt b 4 4, w4 := leAt b 8 8, w5 := leAt b 16 8 }) ∧
    ((s.noticeTake l r 5).2 = some (m, b) → ∀ v, s.recvOf d m.src id = some v →
      (leAt b 4 4 ≤ v.pulled → Completes (.endOfStream l r) s fun t => t.recvOf d m.src id = none ∧ memSame s t) ∧
      (v.pulled < leAt b 4 4 → Completes (.endOfStream l r) s fun t => memSame s t ∧
        ∀ v', t.recvOf d m.src id = some v' → v'.final = some (leAt b 4 4))) ∧
    ((s.noticeTake l r 6).2 = some (m, b) → ∀ x, s.rootAt (s.rootDie l id) id = some x →
      (leAt b 2 2 = 0 → Completes (.pullDone l r) s fun t => ∃ u : State, t = u.mcCheck (s.rootDie l id) id ∧ memSame s u ∧
        u.rootAt (s.rootDie l id) id = some { x with pruned := x.pruned.map fun p => if p.1 = m.src then (p.1, true) else p }) ∧
      (leAt b 2 2 ≠ 0 → x.origin.isSome = true → x.marks = [] → Completes (.pullDone l r) s fun t => memSame s t ∧
        ∀ y ∈ (t.lokD (s.rootDie l id)).roots, y.id ≠ x.id) ∧
      (leAt b 2 2 ≠ 0 → x.origin = none → Completes (.pullDone l r) s fun t => ∃ u : State, t = u.mcCheck (s.rootDie l id) x.id ∧ memSame s u ∧
        ∃ y, u.rootAt (s.rootDie l id) id = some y ∧ (m.src, true) ∈ y.pruned ∧ (∀ p ∈ y.acks, p.1 ≠ m.src) ∧ y.code = 0x0742)) ∧
    ((s.noticeTake l r 1).2 = some (m, b) → Completes (.aseloRelay l r) s fun t => memSame s t ∧
      (t.relays = s.relays ++ [(m.src, b)] ∨ (t.relays = s.relays ∧ raisedLast t 0x0906 l)))) ∧
  (∀ (l : Lnk) (r : Fin 64) (s : State) (m : RxMsg) (b : List Byte), s.rxHead l r = some m → m.opcode = 0x10 → s.ansCheck l m = (s, some b) →
    let who := leAt b 0 2
    let inc := leAt b 4 4
    (m.opf = 2 → (2, who, inc) ∉ s.notices → who ≠ s.moduleId → Completes (.leave l r) s fun t =>
      who ∈ t.left ∧ (2, who, inc) ∈ t.notices ∧ (∃ e ∈ t.evr.raised.drop s.evr.raised.length, e.code = 0x07F4) ∧
      ∀ d (q : Send), q.dst = who → (t.lokIssue d q).2 ≠ 0) ∧
    (m.opf = 3 → (3, who, inc) ∉ s.notices → who ≠ s.moduleId → Completes (.join l r) s fun t =>
      t.left = s.left.filter (· != who) ∧ (3, who, inc) ∈ t.notices ∧ t.regs = s.regs ∧ memSame s t) ∧
    (∀ i ∈ ([(.leave l r, 2), (.join l r, 3)] : List (Instr × Nat)), m.opf = i.2 → ((i.2, who, inc) ∈ s.notices ∨ who = s.moduleId) →
      Completes i.1 s fun t => t = s.rxFree l m))

/-! ### Reduction, the norm root and the step's messages -/

/-- SHARD_SEND, SHARD_COMPLETE, SHARD_WAIT_EXPIRY, CLIP_FACTOR (R141, R298, R299, R361, R362, R366 to R368): the adder refuses, discards or takes a
contribution as Table 13.3 says, adds the rank that a block awaits and stages a later one; it enters a unit's terms into the shard sum as
soon as the unit and all before it are complete; with its run complete a channel sends its shard of the norm to the root; the root adds
each shard once, answers every one with the factor when the last has come, voids the step with 0x0C64 on a shard it does not await and
with 0x0C61 when its wait ends; a channel keeps the factor, or ends its step with the reason. -/
def Obligations.NormRootAnswersEveryShard : Prop :=
  (∀ (ch : Chan) (n : Part) (s : State),
    let e := s.updE ch n
    let txn := s.get UPD_JOB_STEP_txn_step ch n
    let st := s.get UPD_JOB_STAT_state ch n
    let r := s.recBytes ch n txn
    let stat := UPD_JOB_STAT.addr ch n 0
    let root := s.rootAddr ch n
    let due := s.get UPD_JOB_CFG_valid ch n = 1 ∧ (st = 1 ∨ st = 3) ∧ e.sent = false ∧ rKind r ≠ 5 ∧ s.runComplete ch n = true
    let v := if rFused r = true then e.norm else 0
    let q := (s.modUpd ch n fun e => { e with sent := true }).redFrom ch n root
      (redMsg (rJob r) txn 1 (s.get UPD_JOB_CFG_shard ch n) 0 v (s.entryAddr ch n))
    (¬due → exec (.shardSend ch n) s = .next s) ∧
    (due → q.2 = 0 → exec (.shardSend ch n) s = .next (q.1.updPhase ch n)) ∧
    (due → q.2 ≠ 0 → exec (.shardSend ch n) s = .next (q.1.updVoid ch n q.2)) ∧
    (due → addrModule root = s.moduleId → Completes (.shardSend ch n) s fun t =>
        t.redIn = s.redIn ++ [(addrOff root, redMsg (rJob r) txn 1 (s.get UPD_JOB_CFG_shard ch n) 0 v (s.entryAddr ch n))] ∧
        t.updE ch n = { e with sent := true } ∧ regsBut s t [stat] ∧ t = { s with regs := t.regs, upd := t.upd, redIn := t.redIn }) ∧
    (s.get UPD_JOB_CFG_valid ch n = 1 → s.get UPD_JOB_CFG_root ch n = 1 → root = s.entryAddr ch n ∧ addrModule root = s.moduleId ∧
      let k := e.shards.length
      let due := 0 < k ∧ k ≤ s.get UPD_JOB_CFG_shards_m1 ch n ∧ st ≠ 6 ∧ st ≠ 7
      (due → Completes (.shardWaitExpiry ch n) s fun t =>
        t.get UPD_JOB_STAT_state ch n = 6 ∧ t.get UPD_JOB_STAT_reason ch n = 0x0C61 ∧ raisedLast t 0x0C61 ch ∧ regsBut s t [stat] ∧
        t = { s with regs := t.regs, redIn := t.redIn, evr := t.evr }) ∧
      (¬due → exec (.shardWaitExpiry ch n) s = .next s))) ∧
  (∀ (ch : Chan) (n : Part) (a opf : Nat) (blocks : List (List Byte)) (poison : Bool) (s : State), hbmChan a = ch.val → accJob opf = n.val →
    let ca := hbmChAddr a
    let pos := ca / 2048 - s.chNum ch (s.recEntry ch n + 24) 4
    let b := ca % 2048 / 64
    let rank := accRank opf
    let st := s.get UPD_JOB_STAT_state ch n
    let stale := accTxn opf ≠ s.get UPD_JOB_STEP_txn_step ch n ∨ st = 6 ∨ st = 7
    let area := s.redRec ch n pos
    let q := s.adderIntake a opf blocks poison
    let again := ∃ i < blocks.length, rank < s.redNext ch n pos (b + i) ∨ s.redStaged ch n pos (b + i) rank = true
    let unread := ∃ i < blocks.length, s.redBad ch n pos (b + i) = true
    (s.get UPD_JOB_CFG_valid ch n = 0 → q = (s, 0x0C22)) ∧
    (s.get UPD_JOB_CFG_valid ch n = 1 →
      (s.accFits ch n ca blocks.length = false → q = (s, 0x0C21)) ∧
      (s.accFits ch n ca blocks.length = true →
        (stale → q = (s.bump UPD_JOB_STEP_stale ch n 0 blocks.length, 0)) ∧
        (¬stale → poison = true → q = (s.updVoid ch n 0x0C62, 0)) ∧
        (¬stale → poison = false →
          (s.ranks ch n ≤ rank → q = (s.updVoid ch n 0x0C64, 0)) ∧
          (rank < s.ranks ch n → s.chHere ch area (redSize (s.ranks ch n)) = true → ¬unread →
            (again → q = (s.updVoid ch n 0x0C64, 0)) ∧
            (∀ data, blocks = [data] → data.length = 64 → ¬again → area + redSize (s.ranks ch n) ≤ chUnits * 2048 →
              (s.redNext ch n pos b < rank → q.2 = 0 ∧ q.1.redStaged ch n pos b rank = true ∧ q.1.redNext ch n pos b = s.redNext ch n pos b ∧
                q.1.chRd ch (s.redStage ch n pos b rank) 64 = data) ∧
              (s.redNext ch n pos b = rank → s.sumsBad ch n pos b = false → s.redStaged ch n pos b (rank + 1) = false →
                q.2 = 0 ∧ q.1.redNext ch n pos b = rank + 1 ∧
                q.1.chRd ch (area + 320 + 128 * b) 128 =
                  addSums (if s.redEmpty ch n pos = true then List.replicate 128 0 else s.chRd ch (area + 320 + 128 * b) 128) data))))))) ∧
  (∀ (ch : Chan) (n : Part) (a opf : Nat) (blocks : List (List Byte)) (poison : Bool) (s : State), hbmChan a = ch.val → accJob opf = n.val →
    let q := s.adderIntake a opf blocks poison
    let u := q.1
    let r := u.recBytes ch n (u.get UPD_JOB_STEP_txn_step ch n)
    let e := u.updE ch n
    q.2 = 0 → u.get UPD_JOB_CFG_valid ch n = 1 → u.get UPD_JOB_STAT_state ch n = 1 → rFused r = true → e.normed < rUnits r →
      (u.unitComplete ch n e.normed = false → s.adderTake a opf blocks poison = q) ∧
      (u.unitComplete ch n e.normed = true → u.chBad ch (u.redRec ch n e.normed + 320) 1024 = true →
        (s.adderTake a opf blocks poison).1 = (u.chNote ch (u.redRec ch n e.normed + 320) 1024).updVoid ch n 0x0C65) ∧
      (u.unitComplete ch n e.normed = true → u.chBad ch (u.redRec ch n e.normed + 320) 1024 = false →
        (rUnits r ≤ e.normed + 1 ∨ u.unitComplete ch n (e.normed + 1) = false) →
        (s.adderTake a opf blocks poison).1 = u.modUpd ch n fun _ =>
          { e with normed := e.normed + 1, norm := bin32.enc none (normTerms r (bin32.dec e.norm) (u.unitSums ch n e.normed)) })) ∧
  (∀ (m : Option (Lnk × Fin 64)) (s u : State) (off ch n : Nat) (blk : List Byte),
    let e := u.updE ch n
    let txn := u.get UPD_JOB_STEP_txn_step ch n
    let st := u.get UPD_JOB_STAT_state ch n
    let stat := UPD_JOB_STAT.addr ch n 0
    u.entryAt off = some (ch, n) → u.get UPD_JOB_CFG_valid ch n = 1 → leAt blk 0 4 = u.entryJob ch n →
    (s.redTake m 1 = (u, some (off, blk)) → u.get UPD_JOB_CFG_root ch n = 1 →
      let idx := leAt blk 10 2
      let m1 := u.get UPD_JOB_CFG_shards_m1 ch n
      let all := e.shards ++ [⟨idx, leAt blk 16 4, leAt blk 20 8⟩]
      let r := u.recBytes ch n txn
      let known := e.shards.any fun x => x.index == idx
      (leAt blk 4 4 ≠ txn → exec (.shardComplete m) s = .next u) ∧
      (leAt blk 4 4 = txn → st ≠ 6 → st ≠ 7 →
        (m1 < idx ∨ known = true →
          Completes (.shardComplete m) s fun t =>
            t.get UPD_JOB_STAT_state ch n = 6 ∧ t.get UPD_JOB_STAT_reason ch n = 0x0C64 ∧ (t.updE ch n).shards = e.shards ∧ regsBut u t [stat] ∧
            t = { u with regs := t.regs, redIn := t.redIn }) ∧
        (idx ≤ m1 → known = false → all.length ≤ m1 ∨ rFused r = false →
          Completes (.shardComplete m) s fun t => t.updE ch n = { e with shards := all } ∧ t = { u with upd := t.upd }) ∧
        (idx ≤ m1 → known = false → m1 < all.length → rFused r = true → (∀ x ∈ all, addrModule x.reply = u.moduleId) →
          let c := clipOf (rF r 64) (shardTotal all (m1 + 1))
          Completes (.shardComplete m) s fun t => t.updE ch n = { e with shards := all } ∧
            t.redIn = u.redIn ++ all.map (fun x => (addrOff x.reply, redMsg (rJob r) txn 2 0 c.1 c.2 0)) ∧
            t = { u with upd := t.upd, redIn := t.redIn }))) ∧
    (s.redTake m 2 = (u, some (off, blk)) → leAt blk 4 4 = txn → st = 1 ∨ st = 2 →
      (leAt blk 12 2 = 0 → Completes (.clipFactor m) s fun t => ∃ v : State, t = v.jobsPoll ∧
        v.updE ch n = { e with c := some (leAt blk 16 4) } ∧ regsBut u v [stat] ∧ v = { u with regs := v.regs, upd := v.upd }) ∧
      (leAt blk 12 2 ≠ 0 → Completes (.clipFactor m) s fun t => ∃ v : State, t = v.jobsPoll ∧
        v.get UPD_JOB_STAT_state ch n = 5 ∧ v.get UPD_JOB_STAT_reason ch n = leAt blk 12 2 ∧ regsBut u v [stat] ∧ onlyRegs u v))) ∧
  (∀ (maxNorm total : XNum) (l : List Shard) (k : Nat) (x : Shard),
    (total.nonfinite = true → clipOf maxNorm total = (0x0C48, 0)) ∧
    (total.nonfinite = false → maxNorm.lt (f32Sqrt total) = true → clipOf maxNorm total = (0, bin32.enc none (f32Div maxNorm (f32Sqrt total)))) ∧
    (total.nonfinite = false → maxNorm.lt (f32Sqrt total) = false → clipOf maxNorm total = (0, 0x3F800000)) ∧
    (l.find? (fun y => y.index == k) = some x → shardTotal l (k + 1) = f32Add (shardTotal l k) (bin32.dec x.value)))

/-- VOID_REPORT, STEP_VOID, VOID_ACK, RETURNED, RETURN_STREAM_START (R368, R370 to R372, R374, R376): a message is taken once; the root voids an
attempt once, on the first report of it, and tells every participant, and a later report is one event; a participant voids its home
channels' entries, goes to the next attempt and acknowledges once none of its accumulates is outstanding, or ends the job with 0x0C66 once a
master was written; when all have acknowledged the root goes on, with the next attempt where it may start; the returned notices are kept; a return stream starts while fewer than four run on its I/O die. -/
def Obligations.StepVoidsAcknowledgementsAndReturns : Prop :=
  (∀ (m : Option (Lnk × Fin 64)) (k : Nat) (s u : State) (p : Nat × List Byte), s.redTake m k = (u, some p) → leAt p.2 8 2 = k ∧
    (m = none → p ∈ s.redIn ∧ u = { s with redIn := lrem (fun q => leAt q.2 8 2 == k) s.redIn }) ∧
    (∀ l r, m = some (l, r) → rxTaken s u l r ∧ u.redIn = s.redIn ∧ u.upd = s.upd ∧ u.sys = s.sys ∧ u.clu = s.clu ∧ memSame s u)) ∧
  (∀ (m : Option (Lnk × Fin 64)) (s u : State) (off : Nat) (blk : List Byte) (j : Job),
    let src := s.redSrc m
    u.jobOf (leAt blk 0 4) = some j → u.jobAt j.handle = some j →
    (s.redTake m 3 = (u, some (off, blk)) →
      let mine := j.root = s.moduleId ∧ leAt blk 4 4 = j.txn % 2 ^ 32
      let late := j.voided ≠ 0 ∨ s.shardsIn j = true
      let why := leAt blk 12 2
      (¬mine → exec (.voidReport m) s = .next u) ∧
      (mine → late → Completes (.voidReport m) s fun t => raisedLast t why 0xFFFF ∧ t = { u with evr := t.evr }) ∧
      (mine → ¬late → Completes (.voidReport m) s fun t =>
        t.jobAt j.handle = some { j with voided := why, acks := [] } ∧
        (∃ e ∈ t.evr.raised, e.code = 0x0CF0 ∧ e.reason = why ∧ e.unit = 0xFFFF ∧ e.part = j.part ∧
          (m = none → e.tag = 0) ∧ ∀ l r x, m = some (l, r) → s.rxHead l r = some x → e.tag = evTag x.src x.cls false) ∧
        (j.parts = [s.moduleId] → t.redIn = u.redIn ++ [(aseloOff, redMsg j.number (j.txn % 2 ^ 32) 4 0 why 0 0)]) ∧ t.clu = u.clu ∧ memSame u t)) ∧
    (s.redTake m 4 = (u, some (off, blk)) → leAt blk 4 4 = j.txn % 2 ^ 32 →
      let hc := u.homeChans j
      let wrote := ∃ ch ∈ hc, s.get UPD_JOB_STAT_committed ch j.entry = 1
      (wrote → Completes (.stepVoid m) s fun t => ∃ x, t.jobAt j.handle = some x ∧ x.ended = 0x0C66 ∧ x.running = false ∧ x.examples = [] ∧ x.checks = []) ∧
      (¬wrote → Completes (.stepVoid m) s fun t =>
        t.jobAt j.handle = some { j with txn := j.txn + 1, running := false, kernel := false, acking := t.accBound j.part } ∧
        (u.beInsts j.part = [] → j.root = s.moduleId → j.entry < 16 →
          t.redIn = u.redIn ++ [(aseloOff, redMsg j.number (j.txn % 2 ^ 32) 5 0 0 0 0)] ∧
          ∀ ch ∈ hc, t.get UPD_JOB_STEP_txn_step ch j.entry = (j.txn + 1) % 2 ^ 32 ∧
            (u.get UPD_JOB_CFG_valid ch j.entry = 1 → u.get UPD_JOB_STAT_state ch j.entry ≠ 7 →
              t.get UPD_JOB_STAT_state ch j.entry = 1 ∧ t.get UPD_JOB_STAT_committed ch j.entry = 0 ∧ t.updE ch j.entry = UpdEnt.init)))) ∧
    (s.redTake m 4 = (u, some (off, blk)) → leAt blk 4 4 ≠ j.txn % 2 ^ 32 → exec (.stepVoid m) s = .next u) ∧
    (s.redTake m 5 = (u, some (off, blk)) →
      let acks := if j.acks.contains src = true then j.acks else j.acks ++ [src]
      (j.root ≠ s.moduleId ∨ j.voided = 0 → exec (.voidAck m) s = .next u) ∧
      (j.root = s.moduleId → j.voided ≠ 0 →
        (leAt blk 16 4 ≠ 0 → Completes (.voidAck m) s fun t => ∃ x, t.jobAt j.handle = some x ∧ x.ended = 0x0C66 ∧ x.running = false) ∧
        (leAt blk 16 4 = 0 → (∃ x ∈ j.parts, x ∉ acks) → Completes (.voidAck m) s fun t =>
          t.jobAt j.handle = some { j with acks := acks } ∧ t = { u with sys := t.sys }) ∧
        (leAt blk 16 4 = 0 → (∀ x ∈ j.parts, x ∈ acks) →
          let may := (u.modJob j.handle fun j => { j with voided := 0, acks := [] }).mayStart { j with voided := 0, acks := [] }
          (may = false → Completes (.voidAck m) s fun t =>
            t.jobAt j.handle = some { j with voided := 0, acks := [] } ∧ t = { u with sys := t.sys }) ∧
          (may = true → Completes (.voidAck m) s fun t =>
            t.jobAt j.handle = some { j with voided := 0, acks := [], running := true } ∧
            (∀ i ∈ t.sys.insts, i.part = j.part → i.cls = 2 → i.done = false ∧ i.ran = false) ∧ t = { u with sys := t.sys, regs := t.regs })))) ∧
    (s.redTake m 6 = (u, some (off, blk)) → Completes (.returned m) s fun t => ∃ v : State, t = v.jobsPoll ∧
      v.jobAt j.handle = some { j with returned := j.returned ++ [(src, leAt blk 4 4)] } ∧ v = { u with sys := v.sys })) ∧
  (∀ (d : Die) (s : State),
    let busy := ((s.lokD d).roots.filter fun r => r.origin.isNone && decide (r.chan < 128)).length
    (s.returnDue d = [] ∨ 4 ≤ busy → exec (.returnStreamStart d) s = .next s) ∧
    (∀ ch n rest, s.returnDue d = (ch, n) :: rest → busy < 4 → Completes (.returnStreamStart d) s fun t =>
      t.updE ch n = { s.updE ch n with streaming := true } ∧
      (∃ r, (t.lokD d).roots = (s.lokD d).roots ++ [r] ∧ r.id = returnId ch n (s.get UPD_JOB_STEP_txn_step ch n) ∧ r.cls = 2 ∧
        r.group = s.get UPD_JOB_RET_group ch n ∧ r.span = s.chSpan ch ∧ r.chan = ch ∧ r.job = n ∧ r.ready = [] ∧ r.sent = 0) ∧
      t = { s with lok := t.lok, upd := t.upd }))

/-- BASE_LOAD and BASE_FILL_VERIFY (R189, R242, R277, R377 to R381): a load that breaks a check completes with its code, in the order of the checks, and
one that arrives while another operation of the partition is under way waits; one that
passes them takes a run of granules in every cluster and keeps the version as filling; a fill that is complete makes the version
resident, with every granule stamped, when the digest list and the digest of the tile data match, or ends with 0x0143, 0x0144 (also for data
that arrived poisoned: log 197) or 0x0146 and leaves no version. -/
def Obligations.BaseVersionsLoadAndVerify : Prop :=
  (∀ (ch : HCh) (cseq : Nat) (image b : List Byte) (fail : Bool) (s : State) (c : Cmd), commanded s ch cseq 0x0221 c b →
    let own := s.chOwner ch
    let p := if own = manager then leAt b 20 1 else own
    let source := leAt b 4 1 == 1
    let formed := baseOk (own == manager) c b
    let wait := formed && s.opBusy p 18
    let code :=
      if formed = false then 0x0904 else if s.partExists p = false then 0x0905
      else if (s.pasidSlot p (leAt b 5 1)).2 = false then 0x0904 else if s.baseCode p b ≠ 0 then s.baseCode p b
      else if fail = true then 0x0142 else if imageOk image (s.partM p) source = false then 0x0141
      else if s.layoutOk p b image = false then 0x0D33 else if s.claimRun p 0 (iG image) = none then 0x0532 else 0
    (wait = true → exec (.baseLoad ch cseq image fail) s = .next s) ∧
    (wait = false → code ≠ 0 → Completes (.baseLoad ch cseq image fail) s fun t => finished t ch cseq code 0 0 ∧ t.sys = s.sys ∧ t.clu = s.clu ∧ memSame s t) ∧
    (wait = false → code = 0 → Completes (.baseLoad ch cseq image fail) s fun t =>
      ∃ v gran, t.sys.vers.getLast? = some v ∧ v.part = p ∧ v.tag = leAt b 0 2 ∧ v.state = 0 ∧ v.g = iG image ∧ v.gran = gran ∧
        (s.claimRun p 0 (iG image)).map Prod.snd = some gran ∧ v.baseDigest = slice image 128 64 ∧ v.shardDigest = slice image 64 64 ∧
        v.listOk = listMatches image ∧ v.succeeds = leAt b 2 2 ∧ v.ch = ch.val ∧ v.cseq = cseq)) ∧
  (∀ (p : Part) (tag : Nat) (s : State) (v : Ver), s.verAt p tag = some v → (s.hch v.ch).cmds.any (fun c => c.cseq == v.cseq) = true →
    let mem := s.baseMem v
    let sum := Config.sha512 (if v.source = true then v.data else mem)
    let code := if v.listOk = false then 0x0143 else if v.seen = 2 then 0x0146
      else if sum ≠ v.shardDigest ∨ (v.source = false ∧ s.basePoison v = true) then 0x0144 else if v.source = true ∧ mem ≠ v.data then 0x0146 else 0
    (v.state ≠ 0 ∨ s.filling v = true → exec (.baseFillVerify p tag) s = .next s) ∧
    (v.state = 0 → s.filling v = false →
      (code ≠ 0 → Completes (.baseFillVerify p tag) s fun t =>
        finished t v.ch v.cseq code 0 0 ∧ t.verAt p tag = none ∧ t.clu = s.clu ∧ memSame s t) ∧
      (code = 0 → Completes (.baseFillVerify p tag) s fun t => ∃ u : State, t = u.loopKick p ∧
        finished u v.ch v.cseq 0 v.tag 0 ∧ u.verAt p tag = some { v with state := 1, data := [] } ∧ u.clu = s.clu ∧ memSame s u ∧
        (v.gran + v.g ≤ 120 → ∀ c ∈ s.partClus p, ∀ g < v.g, u.get MEM_STAMP_stamp c (v.gran + g) = s.stampNow))))

/-! ### Host channels and the endpoint -/

/-- CHN_SQ_DB, SLOT_SEQ_READ_RETURN, SLOT_REREAD_TIMER, SLOT_BODY_ACCEPT, CHN_CQ_DB, COMPLETION_WRITE, COMPLETION_SEQ_ACK, CLOSE_ROOM_TIMEOUT (R401,
R402, R404 to R408, R412 to R416, Tables 14.6 and 14.15): a submission doorbell moves the tail, is ignored, or halts the channel; a slot is accepted, re-read or
torn by its sequence word; a body is a command, a malformed slot, or a duplicate; completions are written in order while the ring has
room, its owner's bucket holds the tokens and the link is up, body then sequence word; an acknowledged one advances posted and interrupts. What a channel then does of itself (State.chanRun: the
further reads and hand-overs) follows where the clause says so. -/
def Obligations.ChannelsTakeCommandsAndPostCompletions : Prop :=
  ∀ (ch : HCh) (s : State),
    let x := s.hch ch
    let en := s.get CHN_CTL_open ch
    let consumed := s.get CHN_SQ_STAT_consumed ch
    let head := s.get CHN_CQ_STAT_head ch
    let cnt := CHN_CNT.addr ch 0 0
    let sq := CHN_SQ_STAT.addr ch 0 0
    (∀ v : Word,
      let tail := nfld v.toNat 0 32
      (en = 0 ∨ s.get CHN_CTL_halted ch = 1 ∨ 2 ^ 31 ≤ seqDiff tail (s.get CHN_SQ_STAT_tail ch) →
        Completes (.chnSqDb ch v) s fun t => t.get CHN_CNT_bad_db ch = Nat.min (s.get CHN_CNT_bad_db ch + 1) 65535 ∧ regsBut s t [cnt] ∧ onlyRegs s t) ∧
      (en = 1 → s.get CHN_CTL_halted ch = 0 → seqDiff tail (s.get CHN_SQ_STAT_tail ch) < 2 ^ 31 →
        (s.sqSlots ch < seqDiff tail consumed → Completes (.chnSqDb ch v) s fun t =>
          t.get CHN_CTL_halted ch = 1 ∧ t.get CHN_REASON_reason ch = 0x0827 ∧ t.get CHN_SQ_STAT_tail ch = s.get CHN_SQ_STAT_tail ch ∧
          raisedLast t 0x0827 ch ∧ (t.hch ch).cmds = x.cmds ∧ regsBut s t [CHN_CTL.addr ch 0 0, CHN_REASON.addr ch 0 0] ∧ memSame s t) ∧
        (seqDiff tail consumed ≤ s.sqSlots ch → Completes (.chnSqDb ch v) s fun t => ∃ u : State, t = u.chanRun ch ∧
          u.get CHN_SQ_STAT_tail ch = tail ∧ u.get CHN_SQ_STAT_consumed ch = consumed ∧ regsBut s u [sq] ∧ onlyRegs s u)) ∧
      (en = 0 ∨ seqDiff (s.get CHN_CQ_STAT_posted ch) head < seqDiff tail head →
        Completes (.chnCqDb ch v) s fun t => t.get CHN_CNT_bad_db ch = Nat.min (s.get CHN_CNT_bad_db ch + 1) 65535 ∧ regsBut s t [cnt] ∧ onlyRegs s t) ∧
      (en = 1 → seqDiff tail head ≤ seqDiff (s.get CHN_CQ_STAT_posted ch) head →
        Completes (.chnCqDb ch v) s fun t => t.get CHN_CQ_STAT_head ch = tail ∧ t.get CHN_CQ_STAT_posted ch = s.get CHN_CQ_STAT_posted ch ∧
          regsBut s t [CHN_CQ_STAT.addr ch 0 0] ∧ onlyRegs s t)) ∧
    (∀ (cseq word : Nat) (b : List Byte), (s.slotRead ch cseq 4 = none → exec (.slotSeqReadReturn ch cseq word) s = .next s) ∧
      (s.slotRead ch cseq 124 = none → exec (.slotBodyAccept ch cseq b) s = .next s)) ∧
    (∀ (cseq word : Nat) (r : HostRead), s.slotRead ch cseq 4 = some r →
      (∀ (i : Nat) (y : SlotRd), x.slots[i]? = some y → y.cseq = cseq → y.current = false →
        Completes (.slotSeqReadReturn ch cseq word) s fun t => ∃ u : State, t = u.chanRun ch ∧
          (u.hch ch).slots[i]? = some (if word = cseq then { y with current := true } else { y with reads := y.reads + 1 }) ∧
          (u.hch ch).cmds = x.cmds ∧ u.pcie.reads = lrem (fun q => q.id == r.id) s.pcie.reads ∧ u = { s with chans := u.chans, pcie := u.pcie }) ∧
      (∀ y : SlotRd, x.slots = [y] → y.cseq = cseq → y.current = false → rereads ≤ y.reads → word ≠ cseq → cseq < 2 ^ 32 →
        Completes (.slotSeqReadReturn ch cseq word) s fun t => t.get CHN_SQ_STAT_consumed ch = cseq ∧ t.get CHN_CNT_torn ch = Nat.min (s.get CHN_CNT_torn ch + 1) 65535 ∧
          (∃ f ∈ (t.hch ch).wait, f.cseq = cseq ∧ f.reason = 0x0822 ∧ f.final = true ∧ f.torn = true ∧ f.client = 0) ∧ memSame s t)) ∧
    (∀ cseq : Nat, (∀ y ∈ x.slots, y.cseq ≠ cseq) → exec (.slotRereadTimer ch cseq) s = .next s) ∧
    (∀ (cseq : Nat) (y : SlotRd), x.slots.find? (fun r => r.cseq == cseq) = some y →
      let acc := s.chAcc ch (.chan ch cseq) (s.slotAddr ch cseq + 124) (.read 4)
      (y.current = true ∨ y.reads = 0 ∨ rereads ≤ y.again → exec (.slotRereadTimer ch cseq) s = .next s) ∧
      (y.current = false → y.reads ≠ 0 → y.again < rereads →
        (s.pcie.ats = false ∨ (∃ w, s.atcFind acc.pasid (acc.iova / 4096) = some (true, w)) → Completes (.slotRereadTimer ch cseq) s fun t =>
          t.pcie = { s.pcie with reads := s.pcie.reads ++ [⟨s.pcie.nextId, acc⟩], nextId := s.pcie.nextId + 1 } ∧
          t = { s with chans := t.chans, pcie := t.pcie }) ∧
        (s.pcie.ats = true → (∀ w, s.atcFind acc.pasid (acc.iova / 4096) ≠ some (true, w)) → Completes (.slotRereadTimer ch cseq) s fun t =>
          t.pcie.waits = s.pcie.waits ++ [acc] ∧ (acc.pasid, acc.iova / 4096) ∈ t.pcie.asked ∧ t = { s with chans := t.chans, pcie := t.pcie }))) ∧
    (∀ (cseq : Nat) (b : List Byte) (r : HostRead) (y : SlotRd) (rest : List SlotRd), s.slotRead ch cseq 124 = some r → x.slots = y :: rest →
      y.cseq = cseq → y.body = true → cseq < 2 ^ 32 → s.get CHN_REASON_buffers ch < 65536 →
      let client := leAt b 8 8
      let irq := nbit (leAt b 2 1) 1
      let known := if client = 0 then none else x.window.find? fun w => w.1 == client
      let does := fun (P : State → Prop) => Completes (.slotBodyAccept ch cseq b) s fun t => ∃ u : State, t = u.chanRun ch ∧ P u ∧
        u.get CHN_SQ_STAT_consumed ch = cseq ∧ u.get CHN_REASON_buffers ch = s.get CHN_REASON_buffers ch + 1 ∧ (u.hch ch).slots = rest ∧
        regsBut s u [sq, CHN_REASON.addr ch 0 0, cnt] ∧
        u = { s with regs := u.regs, chans := u.chans, pcie := { s.pcie with reads := lrem (fun q => q.id == r.id) s.pcie.reads } }
      (slotOk b = false → does fun u => (u.hch ch).cmds = x.cmds ∧
        ∃ f, (u.hch ch).wait = x.wait ++ [f] ∧ f.client = client ∧ f.cseq = cseq ∧ f.reason = 0x0821 ∧ f.final = true ∧
          (client ≠ 0 → (u.hch ch).window.getLast? = some (client, some f))) ∧
      (slotOk b = true → known = none → does fun u => (u.hch ch).wait = x.wait ∧ (u.hch ch).window = windowPut x.window client none ∧
        ∃ c, (u.hch ch).cmds = x.cmds ++ [c] ∧ c.cseq = cseq ∧ c.opcode = leAt b 0 2 ∧ c.client = client ∧ c.length = leAt b 4 4 ∧
          c.payload = slice b 16 96 ∧ c.object = leAt b 112 8 ∧ c.taken = false ∧ c.dups = []) ∧
      (∀ w f, slotOk b = true → known = some (w, some f) → does fun u => (u.hch ch).cmds = x.cmds ∧ (u.hch ch).window = x.window ∧
        (u.hch ch).wait = x.wait ++ [{ f with cseq := cseq, irq := irq, repost := true, frees := 1 }]) ∧
      (∀ w, slotOk b = true → known = some (w, none) → does fun u => (u.hch ch).wait = x.wait ∧ (u.hch ch).window = x.window ∧
        (u.hch ch).cmds = x.cmds.map fun c => if c.client = client then { c with dups := c.dups ++ [(cseq, irq)] } else c)) ∧
    (∀ (c : Cpl) (rest : List Cpl), x.wait = c :: rest →
      let q := seqNext x.nextQ
      let a := s.cplAddr ch q
      let free := en = 1 ∧ seqDiff q head ≤ s.cqEntries ch ∧ ¬(c.final = true ∧ s.refBusy ch c.cseq = true) ∧
        s.get PCI_LINK_STAT_up 0 = 1 ∧ s.chRoom (s.chOwner ch) c.blocks = true
      (¬free → exec (.completionWrite ch) s = .next s) ∧
      (free → Completes (.completionWrite ch) s fun t =>
        (t.hch ch).wait = rest ∧ (t.hch ch).nextQ = q ∧ (t.hch ch).seqOut = x.seqOut ++ [(q, c)] ∧
        (∃ y, t.pcie.tx.getLast? = some y ∧ y.kind = .seqWord ch q ∧ y.acc.iova = a + 28 ∧ y.acc.op = .write (leBytes 4 q) 0xF false) ∧
        (s.logs (s.chOwner ch) = false → ∃ y z, t.pcie.tx = s.pcie.tx ++ [y, z] ∧ y.kind = .data ∧ y.acc.iova = a ∧
          y.acc.op = .write c.bytes (2 ^ 28 - 1) false ∧ t = { s with chans := t.chans, pcie := t.pcie }))) ∧
    (x.wait = [] → exec (.completionWrite ch) s = .next s) ∧ (x.seqOut = [] → exec (.completionSeqAck ch) s = .next s) ∧
    (∀ (q : Nat) (c : Cpl) (rest : List (Nat × Cpl)), x.seqOut = (q, c) :: rest → q < 2 ^ 32 →
      let sent := s.pcie.tx.any fun y => y.kind == .seqWord ch q
      let v := s.get CHN_CTL_vector ch
      (sent = true ∨ s.get PCI_LINK_STAT_up 0 = 0 → exec (.completionSeqAck ch) s = .next s) ∧
      (sent = false → s.get PCI_LINK_STAT_up 0 = 1 → Completes (.completionSeqAck ch) s fun t => ∃ u : State, t = (u.chanRun ch).closeCheck ch ∧
        u.get CHN_CQ_STAT_posted ch = q ∧ (u.hch ch).seqOut = rest ∧ regsBut s u [CHN_CQ_STAT.addr ch 0 0] ∧
        u = { s with regs := u.regs, chans := u.chans, pcie := u.pcie } ∧
        (let int := c.final = true ∧ c.irq = true ∧ s.get CHN_CTL_irq_en ch = 1
         (¬int → u.pcie = s.pcie) ∧
         (int → s.msixMasked v = true → u.pcie = { s.pcie with pba := s.pcie.pba ||| 2 ^ v }) ∧
         (int → s.msixMasked v = false → ∃ y, u.pcie.tx = s.pcie.tx ++ [y] ∧ y.kind = .msix v)))) ∧
    (∀ box : Nat, x.closing = some box → x.cmds = [] → x.wait ≠ [] →
      Completes (.closeRoomTimeout ch) s fun t => raisedLast t 0x0829 ch ∧ memSame s t ∧
        (x.seqOut = [] → t.hch ch = HChan.init ∧ t.get CHN_CTL_open ch = 0 ∧ t.get CHN_REASON_buffers ch = 0 ∧ responded t box 0 0 [] ∧
          t.get CHN_SQ_STAT_consumed ch = consumed ∧ regsBut s t [CHN_CTL.addr ch 0 0, CHN_REASON.addr ch 0 0]) ∧
        (x.seqOut ≠ [] → t.hch ch = { x with wait := [] } ∧ t.regs = s.regs)) ∧
    (x.closing = none ∨ x.cmds ≠ [] ∨ x.wait = [] → exec (.closeRoomTimeout ch) s = .next s)

/-- ATS_INVALIDATION, HOST_READ_COMPLETION, HOST_READ_TIMEOUT, REFERENCE_PAGE_TIMEOUT, BAR0_IGNORED_WRITE, BAR2_READ, BAR2_WRITE, PCIE_LINK_UP,
PCIE_RETRAIN, LINK_LOSS, LINK_LOSS_RESET_ENTRY (R209, R387, R389, R390, R393, R395, R403, R405, R417, R418): an invalidation drops the named
translations and completes once no access uses them; a failed slot read halts its channel, a failed reference ends its command; BAR2
reads and writes the staging area alone; link loss copies the resume record and drops what is queued, and its reset keeps the always-on
SRAM and the failed channels (log 192). What the host reads through a channel that performs no request is open (log 206). -/
def Obligations.EndpointReadsBarsAndLinkLoss : Prop :=
  (∀ (pasid page pages : Nat) (s : State),
    let hit := fun (ps pg : Nat) => ps = pasid ∧ page ≤ pg ∧ pg < page + pages
    let used := (∃ r ∈ s.pcie.reads, hit r.acc.pasid (r.acc.iova / 4096)) ∨ ∃ y ∈ s.pcie.tx, hit y.acc.pasid (y.acc.iova / 4096)
    Completes (.atsInvalidation pasid page pages) s fun t =>
      (∀ e, e ∈ t.pcie.atc ↔ e ∈ s.pcie.atc ∧ ¬hit e.1 e.2.1) ∧ t.pcie.reads = s.pcie.reads ∧ t = { s with pcie := t.pcie } ∧
      (s.pcie.invs = [] → used → t.pcie.tx = s.pcie.tx ∧ t.pcie.invs.length = 1) ∧
      (s.pcie.invs = [] → ¬used → t.pcie.invs = [] ∧ ∃ y, t.pcie.tx = s.pcie.tx ++ [y] ∧ y.kind = .invDone)) ∧
  (∀ (id : Nat) (data : List Byte) (ep fail : Bool) (s : State) (r : HostRead), s.readAt id = some r →
    let err := PCI_ERR_CNT.addr 0 0 0
    let drop := { s.pcie with reads := lrem (fun q => q.id == id) s.pcie.reads }
    let n := fun (t : State) (f : Fld) => t.get f 0 = Nat.min (s.get f 0 + 1) 65535
    (∀ ch cseq, r.acc.who = .chan ch cseq → ch < 1024 → s.get CHN_CTL_halted ch = 0 → (s.hch ch).slots.any (fun y => y.cseq == cseq) = true →
      let halts := fun (t : State) => t.get CHN_CTL_halted ch = 1 ∧ t.get CHN_REASON_reason ch = 0x0826 ∧ (t.hch ch).slots = [] ∧
        (t.hch ch).cmds = (s.hch ch).cmds ∧ regsBut s t [err, CHN_CTL.addr ch 0 0, CHN_REASON.addr ch 0 0] ∧ memSame s t
      (fail = true → Completes (.hostReadCompletion id data ep fail) s fun t => n t PCI_ERR_CNT_ur_ca ∧ halts t) ∧
      (fail = false → ep = true → Completes (.hostReadCompletion id data ep fail) s fun t => n t PCI_ERR_CNT_poisoned_in ∧ halts t) ∧
      (Completes (.hostReadTimeout id) s fun t => n t PCI_ERR_CNT_cpl_timeout ∧ halts t ∧ raisedLast t 0x0831 0xFFFF)) ∧
    (∀ ch cseq, r.acc.who = .chan ch cseq → s.get CHN_CTL_halted ch = 1 ∨ (∀ y ∈ (s.hch ch).slots, y.cseq ≠ cseq) →
      Completes (.hostReadCompletion id data ep fail) s fun t => ∃ u : State, t = u.invCheck ∧ regsBut s u [err] ∧ u = { s with regs := u.regs, pcie := drop }) ∧
    (∀ c i, r.acc.who = .load c i → s.cluPG c = (r.acc.part, r.acc.gen) → ∀ k, r.acc.op = .read k →
      (Completes (.hostReadCompletion id data ep fail) s fun t => ∃ u : State, t = u.invCheck ∧ regsBut s u [err] ∧
        u = { s with regs := u.regs, pcie := drop, replies := s.replies ++
          [(.load c i, if fail = true then ⟨[], false, 0x0832⟩ else ⟨slice data 0 k, ep, 0⟩)] }) ∧
      (Completes (.hostReadTimeout id) s fun t => raisedLast t 0x0831 0xFFFF ∧ ∃ u : State, t = u.invCheck ∧
        u.replies = s.replies ++ [(.load c i, ⟨[], false, 0x0831⟩)] ∧ u.pcie = drop ∧ regsBut s u [err])) ∧
    (∀ ch cseq i, r.acc.who = .ref ch cseq i → (s.hch ch).cmds.any (fun c => c.cseq == cseq) = true →
      (fail = false → ep = false → ∀ k, r.acc.op = .read k → Completes (.hostReadCompletion id data ep fail) s fun t => ∃ u : State, t = u.invCheck ∧
        (u.hch ch).cmds = (s.hch ch).cmds.map (fun c => if c.cseq = cseq then { c with got := c.got ++ [(i, slice data 0 k)] } else c) ∧
        u = { s with chans := u.chans, pcie := drop }) ∧
      (fail = true ∨ ep = true → Completes (.hostReadCompletion id data ep fail) s fun t => finished t ch cseq 0x0823 0 0 ∧ t.sys = s.sys ∧ memSame s t) ∧
      (Completes (.hostReadTimeout id) s fun t => finished t ch cseq 0x0823 0 0 ∧ raisedLast t 0x0831 0xFFFF ∧ t.sys = s.sys ∧ memSame s t))) ∧
  (∀ (id : Nat) (data : List Byte) (ep fail : Bool) (s : State), s.readAt id = none →
    exec (.hostReadCompletion id data ep fail) s = .next s ∧ exec (.hostReadTimeout id) s = .next s) ∧
  (∀ (ch : HCh) (cseq : Nat) (s : State),
    let mine := fun (r : PageReq) => match r.who with | .ref a b _ => a == ch.val && b == cseq | _ => false
    (s.pcie.prs.any mine = true → (s.hch ch).cmds.any (fun c => c.cseq == cseq) = true →
      Completes (.referencePageTimeout ch cseq) s fun t => finished t ch cseq 0x0824 0 0 ∧ raisedLast t 0x0824 ch ∧ t.sys = s.sys ∧ memSame s t) ∧
    (s.pcie.prs.any mine = false → exec (.referencePageTimeout ch cseq) s = .next s)) ∧
  (∀ (off n : Nat) (data : List Byte) (s : State),
    let p := off / 2 ^ 32
    let o := off % 2 ^ 32
    let err := PCI_ERR_CNT.addr 0 0 0
    let miss := PCI_DROP_CNT.addr 0 0 0
    (bar0Permitted off n = true → exec (.bar0IgnoredWrite off n) s = .next s) ∧
    (bar0Permitted off n = false → Completes (.bar0IgnoredWrite off n) s fun t =>
      t.get PCI_ERR_CNT_ign_write 0 = Nat.min (s.get PCI_ERR_CNT_ign_write 0 + 1) 65535 ∧ regsBut s t [err] ∧ onlyRegs s t) ∧
    (n ≠ 4 ∧ n ≠ 8 ∨ off % n ≠ 0 ∨ 0x600000 ≤ off ∧ off < 0x700020 ∨ 0x808000 ≤ off → bar0Permitted off n = false) ∧
    (Completes (.bar2Read off n) s fun t => t.hostOut.1.length = n ∧ memSame s t ∧ t.clu = s.clu ∧ t.chans = s.chans ∧
      (∀ i < n, ∀ a, s.stagingOff p (o + i) = some a → s.chanOff a = false → t.hostOut.1[i]? = some (s.rdByte a)) ∧
      (∀ i < n, s.stagingOff p (o + i) = none → t.hostOut.1[i]? = some 0) ∧
      (∀ a, s.stagingOff p o = some a → (∀ i < n, s.stagingOff p (o + i) ≠ none) → t.hostOut.2 = s.rdPoison a n ∧
        t.get PCI_DROP_CNT_bar2_miss 0 = s.get PCI_DROP_CNT_bar2_miss 0) ∧
      (0 < n → s.stagingOff p o = none →
        t.hostOut.2 = false ∧ t.get PCI_DROP_CNT_bar2_miss 0 = Nat.min (s.get PCI_DROP_CNT_bar2_miss 0 + 1) (2 ^ 32 - 1))) ∧
    (let held := s.hostReaders p = true
     let ecc := (List.range 128).flatMap fun ch => [HBM_ECC_CNT.addr ch 0 0, HBM_ECC_ADDR.addr ch 0 0]
     Completes (.bar2Write off data) s fun t => t.clu = s.clu ∧ regsBut s t (miss :: ecc) ∧
      (held ∨ ∀ e ∈ t.evr.raised, e ∈ s.evr.raised ∨ e.code = 0x06F0 ∨ e.code = 0x06F1) ∧
      (held → ∃ e ∈ t.evr.raised, e.code = 0x08F3 ∧ e.unit = 0xFFFF ∧ e.part = p) ∧
      (∀ a, s.stagingOff p o = some a → memBut s t a data.length ∧ (∀ i < data.length, ∀ x, s.stagingOff p (o + i) = some x →
        (s.chanTakes x = true → t.rdByte x = lget 0 data i) ∧ (s.chanTakes x = false → t.rdByte x = s.rdByte x))) ∧
      (data ≠ [] → s.stagingOff p o = none → memSame s t ∧ onlyRegsEvr s t ∧
        t.get PCI_DROP_CNT_bar2_miss 0 = Nat.min (s.get PCI_DROP_CNT_bar2_miss 0 + 1) (2 ^ 32 - 1)))) ∧
  (∀ (speed width : Nat) (s : State),
    let stat := PCI_LINK_STAT.addr 0 0 0
    let up := s.get PCI_LINK_STAT_up 0
    let full := speed = 5 ∧ width = 16
    (s.pcie.perst = true ∨ s.pwr.pwrok = false → exec (.pcieLinkUp speed width) s = .next s) ∧
    (s.pcie.perst = false → s.pwr.pwrok = true → Completes (.pcieLinkUp speed width) s fun t =>
      t.get PCI_LINK_STAT_up 0 = 1 ∧ t.get PCI_LINK_STAT_speed 0 = speed % 16 ∧ t.get PCI_LINK_STAT_width 0 = width % 64 ∧
      t.get PCI_LINK_STAT_retrains 0 = s.get PCI_LINK_STAT_retrains 0 ∧ t.pcie = { s.pcie with retraining := false } ∧ regsBut s t [stat] ∧ memSame s t ∧
      (full → t.get PCI_LINK_STAT_degraded 0 = 0 ∧ t.evr = s.evr) ∧ (¬full → t.get PCI_LINK_STAT_degraded 0 = 1 ∧ raisedLast t 0x08F1 0xFFFF)) ∧
    (up = 1 → Completes .pcieRetrain s fun t =>
      t.get PCI_LINK_STAT_retrains 0 = Nat.min (s.get PCI_LINK_STAT_retrains 0 + 1) 65535 ∧ t.pcie = { s.pcie with retraining := true } ∧ raisedLast t 0x08F0 0xFFFF ∧
      regsBut s t [stat] ∧ memSame s t) ∧
    (up = 1 → s.resetRuns = true → Completes .linkLoss s fun t => t.get PCI_LINK_STAT_up 0 = 0 ∧ t.resetDue = s.resetDue ∧ t.resume = s.resume ∧
      memSame s t) ∧
    (up = 1 → s.resetRuns = false → Completes .linkLoss s fun t =>
      t.get PCI_LINK_STAT_up 0 = 0 ∧ t.pcie.tx = [] ∧ t.pcie.reads = [] ∧ t.pcie.waits = [] ∧ t.pcie.prs = [] ∧ t.resetDue = 1 ∧
      t.resume.cause = 1 ∧ t.resume.inc = s.incarnation + 1 ∧ t.resume.tick = s.tick ∧
      (∀ ch < 1024, tget (0, 0, 0, 0, 0) t.resume.chans ch = s.resumeEntry ch) ∧ (∃ e ∈ t.evr.raised, e.code = 0x08F2) ∧ memSame s t) ∧
    (up = 0 → exec .pcieRetrain s = .next s ∧ exec .linkLoss s = .next s) ∧
    (s.resetDue = 1 → Completes .linkLossResetEntry s fun t =>
      t.mem = [] ∧ t.clu = [] ∧ t.chans = [] ∧ t.sys = Aselo.init ∧ t.keys = [] ∧ t.links = [] ∧ t.incarnation = s.incarnation + 1 ∧ t.evr = s.evr ∧
      t.resume = s.resume ∧ t.pwr = s.pwr ∧ t.tick = s.tick ∧ t.pending = s.pending ∧ t.get PWR_STATE_cause 0 = 1 ∧
      (∀ a, isEvrReg a = true → tfind t.regs a = tfind s.regs a) ∧
      (∀ ch < 128, t.get HBM_CTL_failed ch = s.get HBM_CTL_failed ch ∧ t.get HBM_CTL_en ch = 0) ∧
      (∀ a, isEvrReg a = false → a ≠ PWR_STATE.addr 0 0 0 → (∀ ch < 128, a ≠ HBM_CTL.addr ch 0 0) → tfind t.regs a = none)) ∧
    (s.resetDue ≠ 1 → exec .linkLossResetEntry s = .next s))

/-! ### Aselo's services -/

/-- MBX_DB, MBX_RESPONSE, KEY_REGISTER, KEY_REVOKE, CHAN_OPEN, CHAN_CLOSE (R232, R399, R410, R422, R424 to R427, R430, R431): a doorbell
accepts the next request, posts the last response again, or is counted as ignored; a torn, unknown, misplaced or malformed request is
answered at once; a response is posted before the mailbox is ready and its vector is raised; the keys and channels are registered,
opened and closed as the payloads say. -/
def Obligations.MailboxesAnswerRequestsAndOpenChannels : Prop :=
  ∀ (b : Mbx) (s : State),
    let x := s.box b
    let a := s.get MBX_STAT_accepted b
    let stat := MBX_STAT.addr b 0 0
    (∀ v : Word,
      let seq := nfld v.toNat 0 16
      let r := s.bar0Bytes (boxBase b) 4096
      let code := s.mbxRefuse b seq r
      (s.get MBX_STAT_state b ≠ 1 ∨ seq ≠ a ∧ seq ≠ (a + 1) % 65536 → Completes (.mbxDb b v) s fun t =>
        t.get MBX_STAT_ignored b = Nat.min (s.get MBX_STAT_ignored b + 1) 65535 ∧ regsBut s t [stat] ∧ onlyRegs s t) ∧
      (s.get MBX_STAT_state b = 1 → seq = a →
        (x.rsp = [] → exec (.mbxDb b v) s = .next s) ∧
        (x.rsp ≠ [] → Completes (.mbxDb b v) s fun t =>
          (∀ i y, x.rsp[i]? = some y → t.bar0Byte (boxBase b + 0x1000 + i) = y) ∧ t = { s with bar0 := t.bar0, pcie := t.pcie })) ∧
      (s.get MBX_STAT_state b = 1 → seq = (a + 1) % 65536 → Completes (.mbxDb b v) s fun t =>
        t.get MBX_STAT_accepted b = seq ∧ t.get MBX_STAT_state b = 2 ∧ (t.box b).req = r ∧ regsBut s t [stat] ∧
        t = { s with regs := t.regs, mbx := t.mbx } ∧ (code = 0 → (t.box b).stage = 1) ∧ (code ≠ 0 → responded t b code 0 []) ∧
        (mSeq r ≠ seq → code = 0x0903 ∧ leAt (t.box b).rsp 2 2 = seq))) ∧
    (let prt := mType x.req = 0x0101 ∨ mType x.req = 0x0102 ∨ mType x.req = 0x0103
     let due := x.stage = 3 ∧ (prt → s.keysBusy = false)
     let vec := s.get MBX_IRQ_vector b
     (¬due → exec (.mbxResponse b) s = .next s) ∧
     (due → Completes (.mbxResponse b) s fun t =>
      (∀ i y, x.rsp[i]? = some y → t.bar0Byte (boxBase b + 0x1000 + i) = y) ∧ t.get MBX_STAT_responded b = a ∧ t.get MBX_STAT_state b = 1 ∧
      (t.box b).stage = 0 ∧ (t.box b).rsp = x.rsp ∧ regsBut s t [stat] ∧ t = { s with regs := t.regs, mbx := t.mbx, bar0 := t.bar0, pcie := t.pcie } ∧
      (s.get MBX_IRQ_en b = 0 → t.pcie = s.pcie) ∧
      (s.get MBX_IRQ_en b = 1 → t.pcie.pba = s.pcie.pba ||| 2 ^ vec ∨ ∃ y, t.pcie.tx = s.pcie.tx ++ [y] ∧ y.kind = .msix vec))) ∧
    (let idle := fun ty : Nat => x.stage ≠ 1 ∨ mType x.req ≠ ty
     (idle 0x0111 → exec (.keyRegister b) s = .next s) ∧ (idle 0x0112 → exec (.keyRevoke b) s = .next s) ∧
     (idle 0x0121 → exec (.chanOpen b) s = .next s) ∧ (idle 0x0122 → exec (.chanClose b) s = .next s)) ∧
    (∀ r : List Byte, requested s b 0x0111 r →
      let p := mPay r 0 1
      let key := mPayBytes r 8 32
      let code := if mHandle r ≠ 0 ∨ zeros r 33 7 = false ∨ zeros r 72 8 = false then 0x0904 else if s.partExists p = false then 0x0905
        else if 8 ≤ (s.keysOf p).length then 0x0941 else if (s.keysOf p).any (fun k => k.id == keyId key) = true then 0x0942 else 0
      (code ≠ 0 → Completes (.keyRegister b) s fun t => responded t b code 0 [] ∧ t = { s with mbx := t.mbx }) ∧
      (code = 0 → Completes (.keyRegister b) s fun t => responded t b 0 0 (leBytes 8 (keyId key)) ∧
        t.sys = { s.sys with keys := s.sys.keys ++ [⟨p, keyId key, key⟩] } ∧ t = { s with mbx := t.mbx, sys := t.sys })) ∧
    (∀ r : List Byte, requested s b 0x0112 r →
      let p := mPay r 0 1
      let id := mPay r 8 8
      let code := if mHandle r ≠ 0 ∨ zeros r 33 7 = false then 0x0904 else if s.partExists p = false then 0x0905
        else if (s.keysOf p).any (fun k => k.id == id) = false then 0x0943 else 0
      (code ≠ 0 → Completes (.keyRevoke b) s fun t => responded t b code 0 [] ∧ t = { s with mbx := t.mbx }) ∧
      (code = 0 → Completes (.keyRevoke b) s fun t => responded t b 0 0 [] ∧
        (∀ k, k ∈ t.sys.keys ↔ k ∈ s.sys.keys ∧ ¬(k.part = p ∧ k.id = id)) ∧ t.sys.insts = s.sys.insts ∧ t = { s with mbx := t.mbx, sys := t.sys })) ∧
    (∀ r : List Byte, requested s b 0x0121 r →
      let ch := mPay r 0 2
      let p := boxOwner b
      let slot := if p = manager then (mPay r 24 4, true) else s.pasidSlot p (mPay r 2 1)
      let code := if mHandle r ≠ 0 ∨ chanOpenOk (b.val == 0) r = false then 0x0904 else if s.get CHN_CTL_open ch = 1 then 0x0816
        else if p ≠ manager ∧ s.pf p 12 2 ≤ (s.openChans p).length then 0x0A0A else if slot.2 = false then 0x0814 else 0
      let sq := mPay r 8 8
      let n := 2 ^ (mPay r 4 1 + 4) * 128
      let cq := mPay r 16 8
      let m := 2 ^ (mPay r 5 1 + 4) * 32
      (code ≠ 0 → Completes (.chanOpen b) s fun t => responded t b code 0 [] ∧ t = { s with mbx := t.mbx }) ∧
      let table := if p ≠ manager ∧ s.partExists p = false then 0x0811 else if 8 < mPay r 4 1 ∨ 12 < mPay r 5 1 then 0x0812
        else if 2 ^ 57 < sq + n ∨ 2 ^ 57 < cq + m ∨ sq < cq + m ∧ cq < sq + n then 0x0813
        else if p = manager ∧ s.pasidTaken slot.1 = true then 0x0814 else if s.pcie.pasidEn = false then 0x0815 else 0
      (code = 0 →
        (table = 0 → Completes (.chanOpen b) s fun t =>
          responded t b 0 ch [] ∧ t.get CHN_CTL_open ch = 1 ∧ t.get CHN_CTL_halted ch = 0 ∧ t.get CHN_CTL_pasid ch = slot.1 ∧
          t.chOwner ch = p ∧ t.get CHN_CTL_vector ch = mPay r 6 2 ∧ t.sqSlots ch * 128 = n ∧ t.cqEntries ch * 32 = m ∧ t.get CHN_SQ_BASE_base ch * 4096 = sq ∧
          t.get CHN_CQ_BASE_base ch * 4096 = cq ∧ t.rreg CHN_SQ_STAT ch = 0 ∧ t.rreg CHN_CQ_STAT ch = 0 ∧ (t.hch ch).cmds = [] ∧ (t.hch ch).window = [] ∧
          (t.hch ch).wait = [] ∧ t = { s with regs := t.regs, chans := t.chans, mbx := t.mbx }) ∧
        (table ≠ 0 → Completes (.chanOpen b) s fun t =>
          responded t b table 0 [] ∧ t.get CHN_CTL_open ch = 0 ∧ t.get CHN_REASON_reason ch = table ∧ t = { s with regs := t.regs, mbx := t.mbx }))) ∧
    (∀ r : List Byte, requested s b 0x0122 r →
      let ch := mHandle r
      let c := s.hch ch
      (1024 ≤ ch ∨ s.get CHN_CTL_open ch = 0 ∨ s.chOwner ch ≠ boxOwner b ∨ c.closing.isSome = true → Completes (.chanClose b) s fun t =>
        responded t b 0x0905 0 [] ∧ t = { s with mbx := t.mbx }) ∧
      (ch < 1024 → s.get CHN_CTL_open ch = 1 → s.chOwner ch = boxOwner b → c.closing = none →
        (c.cmds = [] → c.wait = [] → c.seqOut = [] → Completes (.chanClose b) s fun t =>
          responded t b 0 0 [] ∧ t.get CHN_CTL_open ch = 0 ∧ t.get CHN_REASON_buffers ch = 0 ∧ t.hch ch = HChan.init ∧
          t.get CHN_SQ_STAT_consumed ch = s.get CHN_SQ_STAT_consumed ch ∧ memSame s t) ∧
        (c.cmds ≠ [] ∨ c.wait ≠ [] ∨ c.seqOut ≠ [] → Completes (.chanClose b) s fun t =>
          (t.hch ch).closing = some b.val ∧ (t.hch ch).slots = [] ∧ t.get CHN_CTL_open ch = 1 ∧ (t.box b).stage = 2 ∧
          (∀ k ∈ c.cmds, k.cseq ∉ s.servingCmds ch → finished t ch k.cseq 0x0829 0 0) ∧ memSame s t)))

/-- SERVE_START, SERVE_STOP, SUBMIT, CANCEL, SERVE_STEP_DONE, DRAIN_DEADLINE_EXPIRY, ADAPTER_IMPORT, ADAPTER_EXPORT, ADAPTER_REMOVE (R269, R275, R276,
R279, R430, R434 to R436, R441, R444, R501, R503): refusals carry the codes of the spec's tables; a loop keeps what its start names; an accepted
request waits in the queue; a cancel marks its request; the end of a step posts the sampled token and goes to the next step; an import
takes the lowest free slot and writes the plaintext into its homes; a removal marks every named record, and the joins that arrived before
it; a version past its drain deadline is due to retire at the boundary. A step counts the delay of its start in its duration (log 207). The
boundary of the serving loop that follows is State.stepBoundary. -/
def Obligations.ServingLoopAndAdapterCommands : Prop :=
  (∀ (b : Mbx) (s : State),
    let idle := fun ty : Nat => (s.box b).stage ≠ 1 ∨ mType (s.box b).req ≠ ty
    (idle 0x0151 → exec (.serveStart b) s = .next s) ∧ (idle 0x0152 → exec (.serveStop b) s = .next s)) ∧
  (∀ (ch : HCh) (cseq : Nat) (s : State),
    let early := fun (op : Nat) (i : Instr) => (s.chanCmd ch cseq op = none → exec i s = .next s) ∧
      (∀ c, s.chanCmd ch cseq op = some c → s.cmdInput ch c = none → Completes i s fun t =>
        finished t ch cseq 0x0823 0 0 ∧ t.sys = s.sys ∧ t.clu = s.clu ∧ memSame s t)
    early 0x0201 (.submit ch cseq) ∧ early 0x0202 (.cancel ch cseq) ∧ early 0x0211 (.adapterImport ch cseq) ∧ early 0x0212 (.adapterExport ch cseq) ∧
      early 0x0213 (.adapterRemove ch cseq) ∧ early 0x0231 (.examples ch cseq) ∧ early 0x0232 (.checkpoint ch cseq)) ∧
  (∀ (b : Mbx) (s : State) (r : List Byte),
    let p := boxOwner b
    (requested s b 0x0151 r →
      let code := s.serveCode p r
      (code ≠ 0 → Completes (.serveStart b) s fun t => responded t b code 0 [] ∧ t = { s with mbx := t.mbx }) ∧
      (mHandle r ≠ 0 → code = 0x0904) ∧ (mHandle r = 0 → s.loopOf p = none → s.lcInst p = none → code = 0x0911) ∧
      (mHandle r = 0 → s.loopOf p ≠ none → code ≠ 0 ∧ code ≤ 0x0912) ∧
      (∀ i, mHandle r = 0 → s.loopOf p = none → s.lcInst p = some i →
        let rows := mPay r 16 2
        let toks := mPay r 18 2
        let base := mPay r 24 8
        let kt := mPay r 32 4
        code = if i.baleId ≠ mPay r 0 8 then 0x0911 else if rows = 0 ∨ 1024 < rows ∨ mAdpRate (bMan i.bale) ≠ 0 ∧ mAdpRows (bMan i.bale) < rows then 0x0913
          else if toks = 0 ∨ 4096 < toks then 0x0913 else if mPay r 20 4 = 0 then 0x0914 else if base % 65536 ≠ 0 then 0x0914
          else if kt % 64 ≠ 0 ∨ kt = 0 ∨ s.instPages i base (0x40000 + mPay r 20 4 * 256 * kt) = false then 0x0914
          else if zeros r 68 28 = false then 0x0904 else 0) ∧
      (code = 0 → Completes (.serveStart b) s fun t => responded t b 0 0 [] ∧ t = { s with mbx := t.mbx, sys := t.sys } ∧
        ∃ l, t.sys = { s.sys with loops := s.sys.loops ++ [l] } ∧ l.part = p ∧ l.seed = mPay r 8 8 ∧ l.maxRows = mPay r 16 2 ∧ l.maxTokens = mPay r 18 2 ∧
          l.chunks = mPay r 20 4 ∧ l.kvBase = mPay r 24 8 ∧ l.kvTok = mPay r 32 4 ∧ l.phase = 0 ∧ l.run = [] ∧ l.queue = [])) ∧
    (requested s b 0x0152 r →
      (mHandle r ≠ 0 → Completes (.serveStop b) s fun t => responded t b 0x0904 0 [] ∧ t = { s with mbx := t.mbx }) ∧
      (mHandle r = 0 → s.loopOf p = none → Completes (.serveStop b) s fun t => responded t b 0x0915 0 [] ∧ t = { s with mbx := t.mbx }) ∧
      (∀ l, mHandle r = 0 → s.loopOf p = some l → Completes (.serveStop b) s fun t => ∃ u : State,
        (l.phase ≠ 0 → t = u) ∧ (l.phase = 0 → t = u.stepBoundary p) ∧
        u.loopOf p = some { l with stopBox := some b.val } ∧ (u.box b).stage = 2 ∧ u = { s with mbx := u.mbx, sys := u.sys }))) ∧
  (∀ (ch : HCh) (cseq : Nat) (s : State) (c : Cmd) (b : List Byte),
    let p := s.chOwner ch
    (commanded s ch cseq 0x0201 c b →
      let n := leAt b 28 4
      let len := n + leAt b 8 4
      let tags := (s.served p).map Ver.tag
      let tag := if leAt b 0 2 = 0 then tags.getLast?.getD 0 else leAt b 0 2
      let fails := fun (code : Nat) => Completes (.submit ch cseq) s fun t => finished t ch cseq code 0 0 ∧ t.sys = s.sys ∧ t.clu = s.clu ∧ memSame s t
      (submitOk c b = false → fails 0x0904) ∧ (submitOk c b = true → s.loopOf p = none → fails 0x0915) ∧
      (∀ l, submitOk c b = true → s.loopOf p = some l →
        (32768 < len ∨ l.chunks < cdiv len 256 → fails 0x0916) ∧
        (len ≤ 32768 → cdiv len 256 ≤ l.chunks →
          (tag ≠ 0 → tag ∉ tags → fails 0x0917) ∧
          (tag = 0 ∨ tag ∈ tags → Completes (.submit ch cseq) s fun t => ∃ (u : State) (q : SReq), t = u.loopKick p ∧
            u.loopOf p = some { l with queue := l.queue ++ [q] } ∧ q.ch = ch.val ∧ q.cseq = cseq ∧ q.base = tag ∧ q.slot = leAt b 2 2 ∧
            q.gen = leAt b 4 2 ∧ q.cls = leAt b 6 1 ∧ q.maxNew = leAt b 8 4 ∧ q.stop = leAt b 12 4 ∧ q.temp = leAt b 16 2 ∧ q.topP = leAt b 18 2 ∧ q.topK = leAt b 20 2 ∧ q.seed = leAt b 24 4 ∧
            q.prompt = (List.range n).map (fun i => leAt b (32 + 4 * i) 4) ∧ q.out = [] ∧ u = { s with chans := u.chans, sys := u.sys })))) ∧
    (commanded s ch cseq 0x0202 c b →
      let named := ∃ l, s.loopOf p = some l ∧ ∃ q ∈ l.run ++ l.queue, q.is ch c.object = true
      let mark := fun (q : SReq) => if q.is ch c.object = true then { q with fail := if q.fail = 0 then 0x0921 else q.fail, cancels := q.cancels ++ [cseq] } else q
      (c.length ≠ 0 ∨ c.hasRefs = true → Completes (.cancel ch cseq) s fun t => finished t ch cseq 0x0904 0 0 ∧ t.sys = s.sys) ∧
      (c.length = 0 → c.hasRefs = false → ¬named → Completes (.cancel ch cseq) s fun t => finished t ch cseq 0x0922 0 0 ∧ t.sys = s.sys) ∧
      (∀ l, c.length = 0 → c.hasRefs = false → s.loopOf p = some l → named → Completes (.cancel ch cseq) s fun t => ∃ u : State, t = u.loopKick p ∧
        u.loopOf p = some { l with run := l.run.map mark, queue := l.queue.map mark } ∧ u = { s with chans := u.chans, sys := u.sys })) ∧
    (commanded s ch cseq 0x0211 c b →
      let slot := freeSlot 0 s.sys.dir
      let rank := leAt b 6 1
      let bad := c.object ≠ 0xFFFF ∨ c.refs.length ≠ 1
      let code := if bad then 0x0904 else if blobOk b = false then 0x0B21 else if (s.pendKey p b).isNone = true then 0x0B22
        else if leAt b 7 1 ≠ s.partM p ∨ rank ∉ [4, 8, 16, 32, 64] ∨ (s.blobVer p b).all (fun v => v.h != leAt b 12 4) = true then 0x0B23
        else if (s.pendKey p b).any (fun k => s.policyOk p k.policy) = false then 0x0B27
        else if s.pf p 16 4 ≤ (s.recsOf p).length ∨ 65536 ≤ slot ∨ s.homePlace p (homeKib rank (leAt b 12 4)) = none then 0x0D21 else 0
      (code ≠ 0 → Completes (.adapterImport ch cseq) s fun t => finished t ch cseq code 0 0 ∧ t.sys = s.sys ∧ t.rot = s.rot ∧ memSame s t) ∧
      (∀ k v, code = 0 → s.pendKey p b = some k → s.blobVer p b = some v →
        let n := rank * v.h
        let open_ := Config.gcmOpen k.key (slice b 32 12) (slice b 0 128) (slice b 128 (s.partM p * rank * v.h)) (slice b (128 + s.partM p * rank * v.h) 16)
        (open_ = none → Completes (.adapterImport ch cseq) s fun t =>
          finished t ch cseq 0x0B24 0 0 ∧ t.recAt slot = none ∧ t.slotGen slot = (s.slotGen slot + 1) % 65536 ∧ t.rot = s.rot) ∧
        (∀ body, open_ = some body → Completes (.adapterImport ch cseq) s fun t =>
          finished t ch cseq 0 (slot + 65536 * s.slotGen slot) 0 ∧
          (∃ y, t.recAt slot = some y ∧ y.part = p ∧ y.owner = k.owner ∧ y.base = v.tag ∧ y.rank = rank ∧ y.state = 1 ∧ y.copy = none ∧ y.key = k.key ∧
            s.homePlace p (homeKib rank v.h) = some y.home ∧
            (∀ (j croft i : Nat), (s.partCrofts p)[j]? = some croft → i < n →
              s.chanTakes (croftOff croft (y.home * 1024) + i) = true → t.rawByte (croftOff croft (y.home * 1024) + i) = lget 0 (slice body (n * j) n) i)) ∧
          (∀ z, z ∈ t.rot.pend ↔ z ∈ s.rot.pend ∧ ¬(z.part = p ∧ z.keyId = k.keyId))))) ∧
    (commanded s ch cseq 0x0212 c b →
      let slot := c.object % 65536
      let fails := fun (code : Nat) => Completes (.adapterExport ch cseq) s fun t => finished t ch cseq code 0 0 ∧ t.sys = s.sys ∧ t.rot = s.rot ∧ memSame s t
      ((∀ o, c.outs ≠ [o]) → fails 0x0904) ∧
      (∀ o, c.outs = [o] → s.adapter p slot (c.object / 65536) = none → fails 0x0D22) ∧
      (∀ o y, c.outs = [o] → s.adapter p slot (c.object / 65536) = some y → c.refs.length ≠ 1 → fails 0x0904) ∧
      (∀ o y, c.outs = [o] → s.adapter p slot (c.object / 65536) = some y → c.refs.length = 1 →
        let n := 144 + s.partM p * y.rank * y.h
        (y.state = 2 → fails 0x0D22) ∧ (y.state ≠ 2 → sealLimit ≤ y.seals → fails 0x0B25) ∧
        (y.state ≠ 2 → y.seals < sealLimit → o.len < n → fails 0x0936) ∧
        (y.state ≠ 2 → y.seals < sealLimit → n ≤ o.len → Completes (.adapterExport ch cseq) s fun t =>
          finished t ch cseq 0 (slot + 65536 * s.slotGen slot) n ∧ t.recAt slot = some { y with seals := y.seals + 1 } ∧ t.rot.draws = s.rot.draws + 1))) ∧
    (commanded s ch cseq 0x0213 c b →
      let slot := c.object % 65536
      let gen := c.object / 65536
      let bad := b.length ≠ 4 ∨ c.hasRefs = true ∨ slot = 0xFFFF ∧ gen ≠ 0 ∨ slot ≠ 0xFFFF ∧ leAt b 0 4 ≠ 0
      let named := if slot = 0xFFFF then ((s.recsOf p).filter fun e => e.2.owner == leAt b 0 4 && e.2.state != 2).map Prod.fst
        else if (s.adapter p slot gen).isSome = true then [slot] else []
      let hit := fun (q : SReq) => !q.leased && q.fail == 0 && named.contains q.slot && s.joinCode p q == 0
      let late := fun (q : SReq) => if hit q = true then { q with fail := 0x0D31 } else q
      (bad → Completes (.adapterRemove ch cseq) s fun t => finished t ch cseq 0x0904 0 0 ∧ t.sys = s.sys) ∧
      (¬bad → slot ≠ 0xFFFF → s.adapter p slot gen = none → Completes (.adapterRemove ch cseq) s fun t => finished t ch cseq 0x0D22 0 0 ∧ t.sys = s.sys) ∧
      (¬bad → slot = 0xFFFF ∨ s.adapter p slot gen ≠ none → Completes (.adapterRemove ch cseq) s fun t => ∃ u : State, t = u.loopRedo p ∧
        u.sys.removals.getLast? = some (ch.val, cseq, named) ∧ (∀ k ∈ named, ∃ y z, s.recAt k = some y ∧ u.recAt k = some z ∧ z.state = 2 ∧
          z.contract = none ∧ z.owner = y.owner ∧ z.home = y.home) ∧
        (∀ l, s.loopOf p = some l → u.loopOf p = some { l with queue := l.queue.map late }) ∧
        u = { s with chans := u.chans, sys := u.sys }))) ∧
  (∀ (p : Part) (s : State) (l : Loop) (i : Inst), s.loopOf p = some l → s.instAt l.inst = some i →
    let halted := ∀ c ∈ s.coreClus i, s.get CLU_CORE_CTL_state c = 5
    let dur := (l.begun - l.started) + (s.tick - l.begun)
    let late := l.starve0 < s.starveSum p ∨ boundNs i.bale < dur
    (l.phase ≠ 3 ∨ ¬halted → exec (.serveStepDone p) s = .next s) ∧
    (l.phase = 3 → halted → Completes (.serveStepDone p) s fun t => ∃ u : State, t = u.stepBoundary p ∧
      (∃ m, u.loopOf p = some m ∧ m.step = l.step + 1 ∧ m.phase = 0 ∧ m.rows = []) ∧ (u.part p).since = s.tick + 1 ∧
      (late → ∃ e ∈ u.evr.raised, e.code = 0x09F0 ∧ e.part = p.val) ∧ (¬late → ∀ e ∈ u.evr.raised, e ∈ s.evr.raised ∨ e.code ≠ 0x09F0) ∧
      (∀ seat n q, l.rows = [(seat, n)] → l.run = [q] → q.seat = seat → n ≠ 0 → q.fed + n = q.toks.length → q.slot = 0xFFFF →
        (s.hch q.ch).cmds.any (fun k => k.cseq == q.cseq) = true →
        let w := s.rowResult p l.step 0
        let posts := fun (last : Bool) => ∃ f ∈ (u.hch q.ch).wait, f.cseq = q.cseq ∧ f.final = last ∧ f.reason = 0 ∧ f.outLen = q.out.length + 1 ∧
          (late → f.result = w.1 + 2 ^ 32) ∧ (¬late → f.result = w.1)
        (w.2 = false → w.1 ≠ q.stop → q.out.length + 1 < q.maxNew →
          posts false ∧ ∃ m, u.loopOf p = some m ∧ m.run = [{ q with fed := q.fed + n, out := q.out ++ [w.1] }]) ∧
        (w.2 = false → w.1 = q.stop ∨ q.maxNew ≤ q.out.length + 1 → posts true ∧ ∃ m, u.loopOf p = some m ∧ m.run = []) ∧
        (w.2 = true → ∃ m, u.loopOf p = some m ∧
          m.run = [{ q with fed := q.fed + n, fail := if q.fail = 0 ∨ q.fail = 0x0921 then 0x0925 else q.fail }])))) ∧
  (∀ (p : Part) (s : State), s.loopOf p = none ∨ (∃ l, s.loopOf p = some l ∧ s.instAt l.inst = none) → exec (.serveStepDone p) s = .next s) ∧
  (∀ (p : Part) (tag : Nat) (s : State) (v : Ver), s.verAt p tag = some v →
    (v.state = 1 → v.drained = true → v.due = false → Completes (.drainDeadlineExpiry p tag) s fun t => ∃ u : State, t = u.loopRedo p ∧
      u.verAt p tag = some { v with due := true } ∧ raisedLast u 0x0D32 0xFFFF ∧ u = { s with sys := u.sys, evr := u.evr }) ∧
    (v.state ≠ 1 ∨ v.drained = false ∨ v.due = true → exec (.drainDeadlineExpiry p tag) s = .next s) ∧
    (s.retire p v).verAt p tag = some { v with state := 2 } ∧ (s.served p = [v] → v.due = true → (s.retireDue p).served p = [])) ∧
  (∀ (p : Part) (tag : Nat) (s : State), s.verAt p tag = none → exec (.drainDeadlineExpiry p tag) s = .next s)

/-- JOB_CREATE, JOB_STOP, EXAMPLES, TUNING_ATTEMPT_START, CHECKPOINT, CHECKPOINT_WRITE (R64, R376, R430, R433, R445 to R448, R503, R513): a job is
refused with the first failing check, or registered with its entries enabled and its accumulate queues at the first attempt; a stop ends
it at the step boundary; examples are packed whole or not at all; an attempt starts when its micro-batches are packed, the notices of the
last update are in from every home module, no checkpoint is due and its queues are free, which take its number; a checkpoint is taken at
its committed count, once, and counts a seal; one whose units read poisoned ends the job with 0x0C41. -/
def Obligations.TuningJobsStartStopAndCheckpoint : Prop :=
  (∀ (b : Mbx) (tables : List Byte) (s : State) (r : List Byte),
    let p := boxOwner b
    (requested s b 0x0161 r →
      let tt := jobTables r tables
      let j := jobNew s.sys.nextHandle p r tt
      let bad := mHandle r ≠ 0 ∨ jobOk r tt = false
      (bad → Completes (.jobCreate b tables) s fun t => responded t b 0x0904 0 [] ∧ t = { s with mbx := t.mbx }) ∧
      (¬bad → s.jobCode j ≠ 0 → s.jobCode j < 65536 → Completes (.jobCreate b tables) s fun t =>
        responded t b (s.jobCode j) 0 [] ∧ t = { s with mbx := t.mbx }) ∧
      let hc := s.homeChans j
      let s1 := hc.zipIdx.foldl (fun (q : State) c => q.jobEntry j c.2 c.1) s.newHandle.1
      let refused := hc.find? fun ch => s1.get UPD_JOB_CFG_valid ch j.entry == 0
      (∀ ch, ¬bad → s.jobCode j = 0 → refused = some ch → Completes (.jobCreate b tables) s fun t =>
        responded t b (s1.get UPD_JOB_STAT_reason ch j.entry) 0 [] ∧ t.sys.jobs = s.sys.jobs ∧
        ∀ h ∈ hc, t.get UPD_JOB_CFG_valid h j.entry = 0) ∧
      (¬bad → s.jobCode j = 0 → refused = none → s.sys.nextHandle < 2 ^ 64 → Completes (.jobCreate b tables) s fun t =>
        responded t b 0 s.sys.nextHandle [] ∧ t.sys.jobs = s.sys.jobs ++ [j] ∧
        (∀ ch ∈ hc, t.get UPD_JOB_CFG_valid ch j.entry = 1 ∧ t.get UPD_JOB_STEP_txn_step ch j.entry = 1) ∧
        (∀ x ∈ s.accQueues p, (s.q x.1 (32 * x.2.1 + x.2.2)).bound = none → t.get STR_QACC_job x.1 x.2.1 x.2.2 = j.entry ∧
          t.get STR_QACC_txn_step x.1 x.2.1 x.2.2 = 1)) ∧
      (¬bad → s.jobCode j = 0 → s.homeChans j = [] → s.beInsts p = [] → s.sys.nextHandle < 2 ^ 64 → Completes (.jobCreate b tables) s fun t =>
        responded t b 0 s.sys.nextHandle [] ∧ t.sys = { s.sys with jobs := s.sys.jobs ++ [j], nextHandle := s.sys.nextHandle + 1 } ∧
        t = { s with mbx := t.mbx, sys := t.sys })) ∧
    ((s.box b).stage ≠ 1 ∨ mType (s.box b).req ≠ 0x0161 → exec (.jobCreate b tables) s = .next s) ∧
    ((s.box b).stage ≠ 1 ∨ mType (s.box b).req ≠ 0x0162 → exec (.jobStop b) s = .next s) ∧
    (requested s b 0x0162 r →
      let named := s.jobAt (mHandle r)
      (named = none → Completes (.jobStop b) s fun t => responded t b 0x0905 0 [] ∧ t = { s with mbx := t.mbx }) ∧
      (∀ j, named = some j →
        (j.part ≠ p → Completes (.jobStop b) s fun t => responded t b 0x0905 0 [] ∧ t = { s with mbx := t.mbx }) ∧
        (j.part = p → j.ended ≠ 0 → Completes (.jobStop b) s fun t => responded t b 0x0932 0 [] ∧ t = { s with mbx := t.mbx }) ∧
        (j.part = p → j.ended = 0 → j.running = true → Completes (.jobStop b) s fun t =>
          responded t b 0 0 [] ∧ t.jobAt j.handle = some { j with stop := true } ∧ t = { s with mbx := t.mbx, sys := t.sys }) ∧
        (j.part = p → j.ended = 0 → j.running = false → Completes (.jobStop b) s fun t =>
          responded t b 0 0 [] ∧ ∃ y, t.jobAt j.handle = some y ∧ y.ended = 0x0934 ∧ y.examples = [] ∧ y.batches = [])))) ∧
  (∀ (ch : HCh) (cseq : Nat) (s : State) (c : Cmd) (b : List Byte),
    (commanded s ch cseq 0x0231 c b →
      let fails := fun (code : Nat) => Completes (.examples ch cseq) s fun t => finished t ch cseq code 0 0 ∧ t.sys = s.sys ∧ t.clu = s.clu ∧ memSame s t
      (s.cmdJob ch c = none → fails 0x0905) ∧
      (∀ j, s.cmdJob ch c = some j →
        let q := exRecords j.mbTokens b.length b
        (c.outs ≠ [] → fails 0x0904) ∧ (c.outs = [] → j.ended ≠ 0 → fails 0x0932) ∧ (c.outs = [] → j.ended = 0 → q.2 ≠ 0 → fails q.2) ∧
        (c.outs = [] → j.ended = 0 → q.2 = 0 → q.1 = [] → Completes (.examples ch cseq) s fun t => finished t ch cseq 0 j.committed 0 ∧ t.sys = s.sys) ∧
        (c.outs = [] → j.ended = 0 → q.2 = 0 → q.1 ≠ [] → Completes (.examples ch cseq) s fun t =>
          let k := q.1.foldl Job.pack j
          t.jobAt j.handle = some { k with examples := k.examples ++ [(ch.val, cseq, k.batches.length - 1)] } ∧
          t = { s with chans := t.chans, sys := t.sys }))) ∧
    (commanded s ch cseq 0x0232 c b →
      let fails := fun (code : Nat) => Completes (.checkpoint ch cseq) s fun t => finished t ch cseq code 0 0 ∧ t.sys = s.sys ∧ t.clu = s.clu ∧ memSame s t
      let count := leAt b 0 4
      (s.cmdJob ch c = none → fails 0x0905) ∧
      (∀ j, s.cmdJob ch c = some j →
        ((∀ o, c.outs ≠ [o]) ∨ b.length ≠ 4 → fails 0x0904) ∧
        (∀ o, c.outs = [o] → b.length = 4 →
          (j.ended ≠ 0 → fails 0x0932) ∧ (j.ended = 0 → count < j.committed → fails 0x0933) ∧
          (j.ended = 0 → j.committed ≤ count → o.len < s.ckBytes j → fails 0x0936) ∧
          (j.ended = 0 → j.committed ≤ count → s.ckBytes j ≤ o.len → Completes (.checkpoint ch cseq) s fun t =>
            t.jobAt j.handle = some { j with checks := j.checks ++ [(ch.val, cseq, count)] } ∧ t = { s with chans := t.chans, sys := t.sys }))))) ∧
  (∀ (h : Nat) (s : State) (j : Job),
    let u := s.jobsPoll
    u.jobAt h = some j →
    (let ends := j.f 16 1 = 0 ∨ j.f 16 1 + 1 = j.stages
     let free := j.ended = 0 ∧ j.running = false ∧ j.voided = 0 ∧ j.acking = false ∧ j.fixes = [] ∧ (∀ e ∈ j.checks, e.2.2 ≠ j.committed) ∧
      (ends → j.used + j.micro ≤ j.packed) ∧ u.returnedAll j j.last = true ∧ ∀ q ∈ u.accQueues j.part, (u.q q.1 (32 * q.2.1 + q.2.2)).bound = none
     (¬free → exec (.tuningAttemptStart h) s = .next u) ∧
     (free → Completes (.tuningAttemptStart h) s fun t => t.jobAt h = some { j with running := true } ∧
      (∀ i ∈ t.sys.insts, i.part = j.part → i.cls = 2 → i.done = false ∧ i.ran = false) ∧
      (∀ q ∈ u.accQueues j.part, t.get STR_QACC_txn_step q.1 q.2.1 q.2.2 = j.txn % 2 ^ 32 ∧ t.get STR_QACC_rank q.1 q.2.1 q.2.2 = j.f 17 1 % 256) ∧
      t = { u with sys := t.sys, regs := t.regs })) ∧
    (0 < u.partM j.part → ∀ txn, u.returnedAll j txn = true ↔ txn = 0 ∨ ∃ srcs : List Nat, srcs.Nodup ∧ u.moduleId ∉ srcs ∧
      (∀ x ∈ srcs, 8 * u.partM j.part ≤ (j.returned.filter fun r => r.1 == x && r.2 == txn % 2 ^ 32).length) ∧
      j.f 54 2 ≤ srcs.length + if u.homeChans j = [] then 0 else 1) ∧
    (j.ended ≠ 0 ∨ j.running = true ∨ (∀ e ∈ j.checks, e.2.2 ≠ j.committed) → exec (.checkpointWrite h) s = .next u) ∧
    (∀ ch cseq n k, j.ended = 0 → j.running = false → j.checks.find? (fun e => e.2.2 == j.committed) = some (ch, cseq, n) →
      (u.hch ch).cmds.find? (fun c => c.cseq == cseq) = some k → ∀ a rest o l, j.adapters = a :: rest → k.outs = o :: l →
      let rest := { j with checks := j.checks.filter fun e => !(e.1 == ch && e.2.1 == cseq) }
      let bad := ∃ c ∈ u.homeChans j, ∃ i < j.units, u.chBad c ((j.f 44 4 + i) * 2048) 2048 = true
      (u.recAt a.1 = none → Completes (.checkpointWrite h) s fun t => finished t ch cseq 0x0D22 0 0 ∧ t.jobAt h = some rest) ∧
      (∀ y, u.recAt a.1 = some y →
        (sealLimit ≤ y.seals → Completes (.checkpointWrite h) s fun t => finished t ch cseq 0x0B25 0 0 ∧ t.jobAt h = some rest) ∧
        (y.seals < sealLimit → bad → Completes (.checkpointWrite h) s fun t => finished t ch cseq 0x0C41 0 0 ∧ ∃ x, t.jobAt h = some x ∧ x.ended = 0x0C41) ∧
        (y.seals < sealLimit → ¬bad → Completes (.checkpointWrite h) s fun t =>
          finished t ch cseq 0 j.committed (u.ckBytes j) ∧ t.recAt a.1 = some { y with seals := y.seals + 1 } ∧ t.rot.draws = u.rot.draws + 1 ∧
          t.jobAt h = some rest)))) ∧
  (∀ (h : Nat) (s : State), s.jobsPoll.jobAt h = none →
    exec (.tuningAttemptStart h) s = .next s.jobsPoll ∧ exec (.checkpointWrite h) s = .next s.jobsPoll)

/-! ### Partitions and scheduling -/

/-- PART_CREATE, PART_RESET, PART_DESTROY, PART_QUERY, WARM_RESET, PRT_DIRTY_EN, DIRTY_SWITCH, DIRTY_SWITCH_DONE, HBM_KEY_DRAINED (R421, R452 to R455, R461,
R465, R480, R492, R544): a creation is refused with its first failing check and changes nothing else, or assigns the crofts under a
fresh generation and key epoch; a reset raises the generation, closes the channels, clears on-chip memory and ends every object; a
removal unassigns the crofts; the dirty log flips its half and is done once the old half has drained. -/
def Obligations.PartitionsAreCreatedResetAndRemoved : Prop :=
  (∀ (b : Mbx) (s : State) (r : List Byte),
    (requested s b 0x0101 r →
      let y := mPayBytes r 0 128
      let p := leAt y 0 1
      let bad := mHandle r ≠ 0 ∨ partPayOk y = false
      let code := firstFail (s.partChecks y)
      let gen := nextGen (tget 0 s.sys.gens p)
      (bad → Completes (.partCreate b) s fun t => responded t b 0x0904 0 [] ∧ t = { s with mbx := t.mbx }) ∧
      (¬bad → code ≠ 0 → Completes (.partCreate b) s fun t => responded t b code 0 [] ∧ t.get PRT_PART_CTL_reason 0 p = code ∧
        t.get PRT_PART_CTL_state 0 p = s.get PRT_PART_CTL_state 0 p ∧ regsBut s t [PRT_PART_CTL.addr 0 p 0] ∧ t = { s with regs := t.regs, mbx := t.mbx }) ∧
      (¬bad → code = 0 → leAt y 6 1 = 0 ∨ (∀ c < 1600, ∀ k < 32, s.get CLU_BSLOT_valid c k = 0) → Completes (.partCreate b) s fun t =>
        responded t b 0 0 [] ∧ t.get PRT_PART_CTL_state 0 p = 2 ∧ t.get PRT_PART_CTL_gen 0 p = gen ∧ t.get PRT_PART_CTL_crofts 0 p = leAt y 2 2 ∧
        (t.part p).payload = y ∧ tget 0 t.sys.gens p = gen ∧ t.get MBX_STAT_state (p + 1) = 1 ∧ t.rot.epoch = s.rot.epoch + 1 ∧
        (∀ k < 16, nbit (leAt y 2 2) k = true → t.get PRT_CROFT_assigned 0 k = 1 ∧ t.get PRT_CROFT_partition 0 k = p ∧ t.get PRT_CROFT_gen 0 k = gen ∧
          t.get PRT_CROFT_span 0 k = leAt y 4 2 ∧ tget 0 t.epochs k = s.rot.epoch + 1) ∧
        (∀ k < 16, nbit (leAt y 2 2) k = false → t.get PRT_CROFT_assigned 0 k = s.get PRT_CROFT_assigned 0 k ∧ tget 0 t.epochs k = tget 0 s.epochs k))) ∧
    (let idle := fun ty : Nat => (s.box b).stage ≠ 1 ∨ mType (s.box b).req ≠ ty
     (idle 0x0101 → exec (.partCreate b) s = .next s) ∧ (idle 0x0102 → exec (.partDestroy b) s = .next s) ∧
     (idle 0x0103 → exec (.partReset b) s = .next s) ∧ (idle 0x0104 → exec (.partQuery b) s = .next s) ∧
     (idle 0x0181 → exec (.warmReset b) s = .next s)) ∧
    (let p := mPay r 0 1
     let code := if mHandle r ≠ 0 ∨ zeros r 33 7 = false then 0x0904 else if s.partExists p = false ∨ b.val ≠ 0 ∧ p ≠ boxOwner b then 0x0905 else 0
     let tells := fun (i : Instr) => Completes i s fun t => responded t b code 0 [] ∧ t = { s with mbx := t.mbx }
     code ≠ 0 → (requested s b 0x0102 r → tells (.partDestroy b)) ∧ (requested s b 0x0103 r → tells (.partReset b)) ∧
       (requested s b 0x0104 r → tells (.partQuery b))) ∧
    (∀ p : Part, mHandle r = 0 → zeros r 33 7 = true → mPay r 0 1 = p.val →
      (requested s b 0x0103 r → s.partExists p = true → b.val = 0 ∨ p.val = boxOwner b →
        s.pf p 6 1 = 0 ∨ s.pf p 6 1 ≤ 32 ∧ layoutFits (s.part p).payload = true → Completes (.partReset b) s fun t =>
        let gen := nextGen (tget 0 s.sys.gens p)
        responded t b 0 0 [] ∧ t.get PRT_PART_CTL_state 0 p = 2 ∧ t.get PRT_PART_CTL_gen 0 p = gen ∧ tget 0 t.sys.gens p = gen ∧
        (t.part p).payload = (s.part p).payload ∧ t.partCrofts p = s.partCrofts p ∧ t.recsOf p = [] ∧ t.contractsOf p = [] ∧ t.instsOf p = [] ∧
        (∀ k ∈ s.partCrofts p, t.get PRT_CROFT_gen 0 k = gen ∧ tget 0 t.epochs k = s.rot.epoch + 1) ∧
        (∀ ch ∈ s.openChans p, t.get CHN_CTL_open ch = 0 ∧ t.get CHN_REASON_reason ch = 0x0828) ∧
        (∀ c ∈ s.partClus p, ∀ o < 0x780000, t.rawByte (c * 0x800000 + o) = 0)) ∧
      (requested s b 0x0102 r → s.partExists p = true → b.val = 0 ∨ p.val = boxOwner b → Completes (.partDestroy b) s fun t =>
        responded t b 0 0 [] ∧ t.partExists p = false ∧ (t.part p).payload = [] ∧ t.get MBX_STAT_state (p + 1) = 3 ∧
        tget 0 t.sys.gens p = nextGen (tget 0 s.sys.gens p) ∧ t.recsOf p = [] ∧ t.instsOf p = [] ∧ t.keysOf p = [] ∧
        (∀ k ∈ s.partCrofts p, t.get PRT_CROFT_assigned 0 k = 0 ∧ tget 0 t.epochs k = 0) ∧
        (∀ ch ∈ s.openChans p, t.get CHN_CTL_open ch = 0) ∧ (∀ c ∈ s.partClus p, ∀ o < 0x780000, t.rawByte (c * 0x800000 + o) = 0)) ∧
      (requested s b 0x0104 r → s.partExists p = true → b.val = 0 ∨ p.val = boxOwner b → Completes (.partQuery b) s fun t =>
        responded t b 0 0 (s.partReport p) ∧ t = { s with mbx := t.mbx })) ∧
    (requested s b 0x0181 r →
      (mHandle r ≠ 0 → Completes (.warmReset b) s fun t => responded t b 0x0904 0 [] ∧ t = { s with mbx := t.mbx }) ∧
      (mHandle r = 0 → s.resetDue = 0 → s.booting = false → Completes (.warmReset b) s fun t =>
        t.resetDue = 2 ∧ t.resume.cause = 2 ∧ t.resume.inc = s.incarnation + 1 ∧ t.get MBX_STAT_state b = 1 ∧
        t.get MBX_STAT_responded b = s.get MBX_STAT_accepted b ∧ (t.box b).stage = 0 ∧ t.sys = s.sys ∧ memSame s t) ∧
      (mHandle r = 0 → s.resetDue ≠ 0 ∨ s.booting = true → Completes (.warmReset b) s fun t =>
        t.resetDue = s.resetDue ∧ t.resume = s.resume ∧ t.get MBX_STAT_state b = 1 ∧ (t.box b).stage = 0 ∧ t.sys = s.sys ∧ memSame s t))) ∧
  (∀ (p : Part) (v : Word) (s : State),
    let ctl := PRT_DIRTY_CTL.addr 0 p 0
    let n := s.get PRT_DIRTY_RANGE_pages 0 p
    let c1 := n ≠ 0 ∧ n % 64 = 0 ∧ s.get PRT_DIRTY_BASE_base 0 p * 4096 + 2 * n < 2 ^ 57
    let c2 := s.pasidTaken (nfld v.toNat 8 20) = false
    let c3 := s.get PRT_PART_CTL_state 0 p = 2
    let sel := s.get PRT_DIRTY_CTL_sel 0 p
    let dropped := fun (t : State) => ∀ d, d ∈ t.pcie.dirty ↔ d ∈ s.pcie.dirty ∧ d.1 ≠ p.val
    let failed := fun (code : Nat) => Completes (.prtDirtyEn p v) s fun t => t.get PRT_DIRTY_CTL_en 0 p = 0 ∧ t.get PRT_DIRTY_CTL_reason 0 p = code ∧
      t.get PRT_DIRTY_CTL_sel 0 p = sel ∧ regsBut s t [ctl] ∧ onlyRegs s t
    (s.get PRT_DIRTY_CTL_en 0 p = 0 →
      (c1 → c2 → c3 → Completes (.prtDirtyEn p v) s fun t => t.get PRT_DIRTY_CTL_en 0 p = 1 ∧ t.get PRT_DIRTY_CTL_pasid 0 p = nfld v.toNat 8 20 ∧
        t.get PRT_DIRTY_CTL_sel 0 p = sel ∧ dropped t ∧ regsBut s t [ctl] ∧ t = { s with regs := t.regs, pcie := t.pcie }) ∧
      (¬c1 → failed 0x0A61) ∧ (c1 → ¬c2 → failed 0x0A62) ∧ (c1 → c2 → ¬c3 → failed 0x0A63)) ∧
    (s.get PRT_DIRTY_CTL_en 0 p = 1 → Completes (.prtDirtyEn p v) s fun t => t.get PRT_DIRTY_CTL_en 0 p = 1 ∧ t.get PRT_DIRTY_CTL_sel 0 p = sel ∧
      t.get PRT_DIRTY_CTL_pasid 0 p = s.get PRT_DIRTY_CTL_pasid 0 p ∧ regsBut s t [ctl] ∧ onlyRegs s t) ∧
    (s.get PRT_DIRTY_CTL_en 0 p = 0 ∨ s.get PRT_DIRTY_CTL_done 0 p = 0 → Completes (.dirtySwitch p v) s fun t =>
      t.get PRT_DIRTY_CTL_reason 0 p = 0x0A64 ∧ t.get PRT_DIRTY_CTL_sel 0 p = sel ∧ t.get PRT_DIRTY_CTL_en 0 p = s.get PRT_DIRTY_CTL_en 0 p ∧
      regsBut s t [ctl] ∧ onlyRegs s t) ∧
    (s.get PRT_DIRTY_CTL_en 0 p = 1 → s.get PRT_DIRTY_CTL_done 0 p = 1 → Completes (.dirtySwitch p v) s fun t =>
      t.get PRT_DIRTY_CTL_sel 0 p = 1 - sel ∧ t.get PRT_DIRTY_CTL_done 0 p = 0 ∧ t.get PRT_DIRTY_CTL_en 0 p = 1 ∧ dropped t ∧ regsBut s t [ctl] ∧
      t = { s with regs := t.regs, pcie := t.pcie }) ∧
    (let due := s.get PRT_DIRTY_CTL_done 0 p = 0 ∧ ∀ y ∈ s.pcie.tx, ¬(y.acc.part = p.val ∧ y.half = 1 - sel)
     (due → Completes (.dirtySwitchDone p) s fun t => t.get PRT_DIRTY_CTL_done 0 p = 1 ∧ t.get PRT_DIRTY_CTL_sel 0 p = sel ∧ regsBut s t [ctl] ∧ onlyRegs s t) ∧
     (¬due → exec (.dirtySwitchDone p) s = .next s)) ∧
    (s.get SEC_HBMKEY_busy 0 p = 1 → Completes (.hbmKeyDrained p) s fun t =>
      t.get SEC_HBMKEY_busy 0 p = 0 ∧ t.get SEC_HBMKEY_done 0 p = 1 ∧ regsBut s t [SEC_HBMKEY.addr 0 p 0] ∧ onlyRegs s t) ∧
    (s.get SEC_HBMKEY_busy 0 p = 0 → exec (.hbmKeyDrained p) s = .next s))

/-- STEP_PENDING, SERVE_STEP_START, BE_QUANTUM_EXPIRY, YIELD_LIMIT_EXPIRY, BE_RESUME, CONTEXT_TEARDOWN (R435, R468 to R471, R475, R477, R536): a prepared
step becomes pending after its gap and asks the best-effort cores to yield; it starts, with the serving seed, once none of them runs,
no return is under way and no line is lent; lines are returned first where nothing uses them; a core that does not yield in time fails its
context; a best-effort instance resumes while no step is pending or running and no skein of a switch is left; a faulted context ends alone,
while no other instance runs (log 187), and is recorded. -/
def Obligations.StepsStartBestEffortYieldsAndContextsEnd : Prop :=
  (∀ (p : Part) (s : State),
    let asks := fun (t : State) (i : Inst) => (t.part p).yielding = true ∧
      (∀ c ∈ s.coreClus i, (s.cl c).inst = some i.handle → t.get CLU_CORE_CTL_yield_req c = 1)
    let runs := fun (i : Inst) => ((s.part p).be).bind s.instAt = some i ∧ s.instActive i = true
    (s.loopOf p = none → exec (.stepPending p) s = .next s) ∧
    (∀ l, s.loopOf p = some l →
      let due := l.phase = 1 ∧ ((s.part p).since = 0 ∨ (s.part p).since + 1000 * s.pf p 56 4 ≤ s.tick + 1)
      (¬due → exec (.stepPending p) s = .next s) ∧
      (due → Completes (.stepPending p) s fun t => t.loopOf p = some { l with phase := 2, started := s.tick } ∧
        (∀ k ∈ s.partCrofts p, nfld (t.get PWR_STATE_croft_idle 0) k 1 = 0) ∧ (∀ i, runs i → asks t i) ∧ t = { s with regs := t.regs, sys := t.sys })) ∧
    (∀ i, runs i → Completes (.beQuantumExpiry p) s fun t => asks t i ∧ t = { s with regs := t.regs, sys := t.sys }) ∧
    ((∀ i, ¬runs i) → exec (.beQuantumExpiry p) s = .next s) ∧
    (let u := s.beSettle p
     ∀ l i, u.loopOf p = some l → u.instAt l.inst = some i →
      let free := l.phase = 2 ∧ (u.part p).be = none ∧ u.returning p = false ∧ (u.part p).gapEnd ≤ u.tick
      let hot := u.get PWR_CTL_en 0 = 1 ∧ u.lcHot = true
      (¬free → exec (.serveStepStart p) s = .next u) ∧
      (free → hot → (u.part p).lcHeld = 0 → Completes (.serveStepStart p) s fun t =>
        t.pwr.alert = true ∧ (t.part p).lcHeld = u.tick + 1 ∧ t.loopOf p = some l ∧ t.clu = u.clu ∧ t.regs = u.regs) ∧
      (free → hot → (u.part p).lcHeld ≠ 0 → exec (.serveStepStart p) s = .next u) ∧
      (free → ¬hot → u.lentNow p ≠ [] → u.lentQuiet p = false → exec (.serveStepStart p) s = .next u) ∧
      (free → ¬hot → u.lentNow p ≠ [] → u.lentQuiet p = true → Completes (.serveStepStart p) s fun t => t.loopOf p = some l ∧
        ∀ x ∈ u.lentNow p, u.get CLU_BORROW_CFG_en x.1 = 1 → t.get CLU_RETURN_busy x.1 = 1) ∧
      (free → ¬hot → u.lentNow p = [] → Completes (.serveStepStart p) s fun t =>
        (∃ m, t.loopOf p = some m ∧ m.phase = 3 ∧ m.begun = u.tick ∧ m.step = l.step ∧ m.run = l.run) ∧
        (∀ c ∈ u.partClus p, t.rreg CLU_DITHER_SEED c = l.seed % 2 ^ 64 ∧ t.get CLU_DITHER_STEP_step c = 0) ∧
        (∀ c ∈ u.coreClus i, t.get CLU_CORE_CTL_state c = 1 ∧ (t.cl c).inst = some i.handle) ∧
        (l.started < u.tick → ∃ e ∈ t.evr.raised, e.code = 0x09F1 ∧ e.part = p.val))) ∧
    (let u := s.beSettle p
     u.loopOf p = none ∨ (∃ l, u.loopOf p = some l ∧ u.instAt l.inst = none) → exec (.serveStepStart p) s = .next u) ∧
    (let u := s.beSettle p
     let busy := (∃ l, u.loopOf p = some l ∧ (l.phase = 2 ∨ l.phase = 3)) ∨ (u.part p).be ≠ none ∨ u.returning p = true ∨
       u.tick < (u.part p).gapEnd ∨ ∃ c ∈ u.partClus p, (u.cl c).eng.slots.all Skein.done = false
     let hot := u.get PWR_CTL_en 0 = 1 ∧ u.beHot = true
     (busy ∨ u.beNext p = none → exec (.beResume p) s = .next u) ∧
     (∀ i, ¬busy → u.beNext p = some i →
      let g := u.ungate p
      let w := if u.loopOf p = none then g.repair p else g
      (hot → (u.part p).beHeld ≠ 0 → exec (.beResume p) s = .next g) ∧
      (¬hot → u.lentOut i ≠ [] → Completes (.beResume p) s fun t => (t.part p).be = none) ∧
      (¬hot → u.lentOut i = [] → w.repairing p = true → exec (.beResume p) s = .next w) ∧
      (¬hot → u.lentOut i = [] → w.repairing p = false → i.ran = true → Completes (.beResume p) s fun t =>
        (t.part p).be = some i.handle ∧ (t.part p).yielding = false) ∧
      (hot → (u.part p).beHeld = 0 → Completes (.beResume p) s fun t => t.pwr.alert = true ∧ (t.part p).beHeld = u.tick + 1 ∧ (t.part p).be = none ∧
        t.clu = u.clu) ∧
      (¬hot → u.lentOut i = [] → w.repairing p = false → i.ran = false → Completes (.beResume p) s fun t =>
        (t.part p).be = some i.handle ∧ (t.part p).yielding = false ∧
        ∀ c ∈ u.coreClus i, t.get CLU_CORE_CTL_state c = 1 ∧ (t.cl c).inst = some i.handle)))) ∧
  (∀ (c : Clu) (s : State),
    let late := s.get CLU_CORE_CTL_yield_req c = 1 ∧ s.coreActive c = true ∧ (s.cl c).faulted = 0
    let why := (s.cl c).faulted
    let ends := fun (u : State) (i : Inst) (code : Nat) => u.sys.insts.length + 1 = s.sys.insts.length ∧
      (∃ e, u.evr.raised.getLast? = some e ∧ e.code = 0x0AF0 ∧ e.reason = code ∧ e.part = i.part) ∧ (i.cls = 1 → u.loopOf i.part = none) ∧
      u.sys.gens = s.sys.gens ∧ u.sys.contracts = s.sys.contracts
    (late → Completes (.yieldLimitExpiry c) s fun t => t.get CLU_CORE_CTL_state c = 6 ∧ t.get CLU_CORE_CTL_reason c = 0x0A51 ∧ (t.cl c).faulted = 0x0A51 ∧
      raisedLast t 0x0A51 c ∧ regsBut s t [CLU_CORE_CTL.addr c 0 0] ∧ onlyUnit s t c) ∧
    (¬late → exec (.yieldLimitExpiry c) s = .next s) ∧
    (let n := s.noted (s.croftPart (cluCroft c)).1
     (why = 0 → n = none → exec (.contextTeardown c) s = .next s) ∧
     (∀ i, why = 0 → n = some i → i.fault ≠ 0 ∧ Completes (.contextTeardown c) s fun t => ∃ u : State, t = u.loopRedo i.part ∧ ends u i i.fault)) ∧
    (why ≠ 0 → ((s.cl c).inst).bind s.instAt = none →
      let u := s.stopCtx [c.val]
      (u.ctxDrained [c.val] = false → exec (.contextTeardown c) s = .next u) ∧
      (u.ctxDrained [c.val] = true → Completes (.contextTeardown c) s fun t =>
        (t.cl c).faulted = 0 ∧ raisedLast t 0x0AF0 0xFFFF ∧ (∃ e, t.evr.raised.getLast? = some e ∧ e.reason = why) ∧ t.sys = s.sys)) ∧
    (∀ i, why ≠ 0 → ((s.cl c).inst).bind s.instAt = some i →
      let v := s.stopCtx (s.heldBy i.handle)
      let due := v.ctxDrained (s.heldBy i.handle) = true ∧ v.othersQuiet i = true
      (¬due → exec (.contextTeardown c) s = .next v) ∧
      (due → Completes (.contextTeardown c) s fun t => ∃ u : State, t = u.loopRedo i.part ∧ ends u i why)))

/-! ### The root of trust -/

/-- ATTEST, CERT_READ, REPORT_READ, SESSION_OPEN, KEY_DELIVER, SESSION_CLOSE, SESSION_IDLE_TIMEOUT, PENDING_KEY_EXPIRY, SPAN_KEY_CREATE,
SPAN_KEY_EXPORT, SPAN_KEY_IMPORT, SPAN_KEY_SEND, SPAN_KEY_DESTROY, FW_UPDATE, SVN_COMMIT, BOOT_STATUS (R483, R484, R486, R488, R489,
R495 to R499): each request is refused with its first failing check and changes nothing else, or is answered with what it asks for. The
layouts of the payloads that the spec names without a layout (logs 113, 139, 140), and that a module stopped in the boot answers 0x0905 (log
141), are the model's choice; the algorithms are those of Config. -/
def Obligations.RootOfTrustAttestsAndKeepsKeys : Prop :=
  ∀ (b : Mbx) (s : State) (r : List Byte),
    let refuses := fun (i : Instr) (code : Nat) => Completes i s fun t => responded t b code 0 [] ∧ t = { s with mbx := t.mbx }
    (∀ (image : List Byte) (i : Instr) (ty : Nat), (i, ty) ∈ [(Instr.attest b, 0x0301), (.certRead b, 0x0302), (.reportRead b, 0x0303),
        (.sessionOpen b, 0x0311), (.keyDeliver b, 0x0312), (.sessionClose b, 0x0313), (.spanKeyCreate b, 0x0321), (.spanKeyExport b, 0x0322),
        (.spanKeyImport b, 0x0323), (.spanKeySend b, 0x0324), (.spanKeyDestroy b, 0x0325), (.fwUpdate b image, 0x0331), (.svnCommit b, 0x0332)] →
      (s.booted = false → requested s b ty r → refuses i 0x0905) ∧
      ((s.box b).stage ≠ 1 ∨ mType (s.box b).req ≠ ty → exec i s = .next s)) ∧
    ((s.box b).stage ≠ 1 ∨ mType (s.box b).req ≠ 0x0333 → exec (.bootStatus b) s = .next s) ∧
    (∀ id : Nat, Completes (.sessionIdleTimeout id) s fun t =>
      (∀ y, y ∈ t.rot.sessions ↔ y ∈ s.rot.sessions ∧ y.id ≠ id) ∧ t.rot = { s.rot with sessions := t.rot.sessions } ∧ t = { s with rot := t.rot }) ∧
    (∀ p id : Nat, Completes (.pendingKeyExpiry p id) s fun t =>
      (∀ k, k ∈ t.rot.pend ↔ k ∈ s.rot.pend ∧ ¬(k.part = p ∧ leNat k.keyId = id)) ∧ t.rot = { s.rot with pend := t.rot.pend } ∧ t = { s with rot := t.rot }) ∧
    (requested s b 0x0333 r →
      (mHandle r ≠ 0 ∨ mPayLen r ≠ 0 → refuses (.bootStatus b) 0x0904) ∧
      (mHandle r = 0 → mPayLen r = 0 → Completes (.bootStatus b) s fun t => t = { s with mbx := t.mbx } ∧
        responded t b 0 0 (s.stageDigests ++ leBytes 1 (s.get SEC_STAT_copies 0) ++ leBytes 1 (s.get SEC_STAT_stage 0) ++
          leBytes 2 (s.get SEC_STAT_reason 0) ++ leBytes 4 0 ++ s.bootNonce))) ∧
    (s.booted = true →
      (requested s b 0x0301 r →
        let scope := mPay r 0 1
        let code := if mHandle r ≠ 0 ∨ zeros r 33 1 = false then 0x0904 else if scope ≠ 0xFF ∧ s.partExists scope = false then 0x0B32 else 0
        let body := s.repBody scope (mPay r 2 2) (mPay r 4 4) (mPayBytes r 8 64) (List.replicate 64 0)
        let report := body ++ slice (Config.edSign s.akSeed (Config.sha512 body)) 0 64
        (code ≠ 0 → refuses (.attest b) code) ∧
        (code = 0 → Completes (.attest b) s fun t => responded t b 0 0 (report.take 4032) ∧
          t.rot = { s.rot with report := report, counter := s.rot.counter + 1 } ∧ t = { s with mbx := t.mbx, rot := t.rot })) ∧
      (requested s b 0x0302 r →
        (mHandle r ≠ 0 ∨ mPayLen r ≠ 0 → refuses (.certRead b) 0x0904) ∧
        (mHandle r = 0 → mPayLen r = 0 → Completes (.certRead b) s fun t => t = { s with mbx := t.mbx } ∧
          responded t b 0 0 ((s.akCert ++ slice Config.idCert 0 208 ++ Config.mfgCert).take 4064))) ∧
      (requested s b 0x0303 r →
        (mHandle r ≠ 0 ∨ mPayLen r ≠ 4 → refuses (.reportRead b) 0x0904) ∧
        (mHandle r = 0 → mPayLen r = 4 → Completes (.reportRead b) s fun t => t = { s with mbx := t.mbx } ∧
          responded t b 0 0 ((s.rot.report.drop (mPay r 0 4)).take 4032))) ∧
      (requested s b 0x0311 r →
        let p := mPay r 0 1
        let k := s.randBytes 32
        let i := k.1.randBytes 8
        let shared := Config.x25519 k.2 (mPayBytes r 8 32)
        let own := slice (xPub k.2) 0 32
        let body := s.repBody p 0 0xFFFFFFFF (mPayBytes r 40 64) (Config.sha512 (mPayBytes r 8 32 ++ own ++ mPayBytes r 40 64 ++ i.2))
        let report := body ++ slice (Config.edSign s.akSeed (Config.sha512 body)) 0 64
        let code := if mHandle r ≠ 0 ∨ mPayLen r ≠ 104 ∨ zeros r 33 7 = false then 0x0904 else if s.partExists p = false then 0x0B32
          else if 16 ≤ s.rot.sessions.length then 0x0B12 else 0
        (code ≠ 0 → refuses (.sessionOpen b) code) ∧
        (code = 0 → (∀ x ∈ shared, x = 0) → Completes (.sessionOpen b) s fun t => responded t b 0x0B18 0 [] ∧
          t.rot = { s.rot with draws := t.rot.draws } ∧ t = { s with mbx := t.mbx, rot := t.rot }) ∧
        (code = 0 → (∃ x ∈ shared, x ≠ 0) → Completes (.sessionOpen b) s fun t => ∃ y, responded t b 0 0 (i.2 ++ own ++ report) ∧
          y.id = leNat i.2 ∧ y.part = p ∧ y.last = 0 ∧ y.key = Config.hkdf shared (mPayBytes r 40 64) (ascii "heluc seal v1" ++ i.2 ++ leBytes 1 p) 32 ∧
          t.rot.sessions = s.rot.sessions ++ [y] ∧ t.rot.report = report ∧ t.rot.counter = s.rot.counter + 1 ∧ t.rot.pend = s.rot.pend ∧
          t = { s with mbx := t.mbx, rot := t.rot })) ∧
      (requested s b 0x0312 r →
        let ctr := mPay r 8 8
        (mHandle r ≠ 0 ∨ keyDeliverOk r = false → refuses (.keyDeliver b) 0x0904) ∧
        (mHandle r = 0 → keyDeliverOk r = true →
          ((∀ y ∈ s.rot.sessions, y.id ≠ mPay r 0 8) → refuses (.keyDeliver b) 0x0B11) ∧
          (∀ y, s.rot.sessions.find? (fun y => y.id == mPay r 0 8) = some y →
            let opened := Config.gcmOpen y.key (leBytes 8 ctr ++ List.replicate 4 0) (mPayBytes r 0 576) (mPayBytes r 576 32) (mPayBytes r 608 16)
            let rest := s.rot.pend.filter fun k => !(k.part == y.part && k.keyId == mPayBytes r 16 16)
            (ctr ≤ y.last → refuses (.keyDeliver b) 0x0B11) ∧
            (y.last < ctr → opened = none → refuses (.keyDeliver b) 0x0B13) ∧
            (y.last < ctr → ∀ key, opened = some key → Completes (.keyDeliver b) s fun t =>
              t = { s with mbx := t.mbx, rot := t.rot } ∧ (∀ z ∈ t.rot.sessions, z.id = y.id → z.last = ctr) ∧
              (∀ z ∈ s.rot.sessions, z.id ≠ y.id → z ∈ t.rot.sessions) ∧
              (256 ≤ rest.length → responded t b 0x0B14 0 [] ∧ t.rot.pend = s.rot.pend) ∧
              (rest.length < 256 → responded t b 0 0 [] ∧ ∃ k, t.rot.pend = rest ++ [k] ∧ k.part = y.part ∧ k.keyId = mPayBytes r 16 16 ∧
                k.owner = mPay r 32 4 ∧ k.key = key ∧
                k.policy = (List.range (mPay r 36 1)).map (fun j => mPayBytes r (64 + 64 * j) 64)))))) ∧
      (requested s b 0x0313 r →
        let code := if mHandle r ≠ 0 ∨ mPayLen r ≠ 8 then 0x0904 else if s.rot.sessions.any (fun y => y.id == mPay r 0 8) = false then 0x0B11 else 0
        (code ≠ 0 → refuses (.sessionClose b) code) ∧
        (code = 0 → Completes (.sessionClose b) s fun t => responded t b 0 0 [] ∧
          (∀ y, y ∈ t.rot.sessions ↔ y ∈ s.rot.sessions ∧ y.id ≠ mPay r 0 8) ∧ t.rot = { s.rot with sessions := t.rot.sessions } ∧
          t = { s with mbx := t.mbx, rot := t.rot })) ∧
      (requested s b 0x0321 r →
        let k := mPay r 0 1
        let span := mPay r 2 2
        let code := if mHandle r ≠ 0 ∨ mPayLen r ≠ 8 ∨ zeros r 33 1 = false ∨ (k = 0 ∧ span ≠ 0) ∨ (k ≠ 0 ∧ span = 0) then 0x0904
          else if s.slotOther k span = true then 0x0B17 else 0
        (code ≠ 0 → refuses (.spanKeyCreate b) code) ∧
        (code = 0 → Completes (.spanKeyCreate b) s fun t => responded t b 0 0 [] ∧
          tfind t.keys k = some { key := (s.randBytes 32).2, span := span, epoch := mPay r 4 4, send := false, made := true, exported := [] } ∧
          (∀ d < 2, tget 0 (t.lokD d).mctr k = 0) ∧ (∀ j, j ≠ k → tfind t.keys j = tfind s.keys j) ∧
          t = { s with mbx := t.mbx, rot := t.rot, keys := t.keys, lok := t.lok })) ∧
      (requested s b 0x0322 r →
        let k := mPay r 0 1
        let akc := mPayBytes r 216 208
        let code := if mHandle r ≠ 0 ∨ mPayLen r ≠ 442 ∨ zeros r 33 7 = false then 0x0904 else s.peerCode (mPayBytes r 8 208) akc
        (code ≠ 0 → refuses (.spanKeyExport b) code) ∧
        (code = 0 → tfind s.keys k = none → refuses (.spanKeyExport b) 0x0B19) ∧
        (code = 0 → ∀ y, tfind s.keys k = some y →
          (y.made = false ∨ cSerial akc ∈ y.exported → refuses (.spanKeyExport b) 0x0B19) ∧
          (y.made = true → cSerial akc ∉ y.exported → Completes (.spanKeyExport b) s fun t =>
            let e := (s.randBytes 32).2
            let f := packetFields y.span y.epoch k s.moduleId (mPay r 424 2) (mPayBytes r 426 16)
            let c := Config.gcmSeal (wrapKey (Config.x25519 e (cXk akc)) (cXk akc)) (List.replicate 12 0) f y.key
            responded t b 0 0 (slice (xPub e) 0 32 ++ f ++ slice c.1 0 32 ++ slice c.2 0 16) ∧
            tfind t.keys k = some { y with exported := y.exported ++ [cSerial akc] } ∧ (∀ j, j ≠ k → tfind t.keys j = tfind s.keys j) ∧
            t = { s with mbx := t.mbx, rot := t.rot, keys := t.keys }))) ∧
      (requested s b 0x0323 r →
        let f := mPayBytes r 32 27
        let span := leAt f 0 2
        let k := leAt f 6 1
        let peer := s.peerCode (mPayBytes r 107 208) (mPayBytes r 315 208)
        let code := if mHandle r ≠ 0 ∨ mPayLen r ≠ 523 then 0x0904 else if peer ≠ 0 then peer
          else if leAt f 9 2 ≠ s.moduleId ∨ slice f 11 16 ≠ s.bootNonce then 0x0B1A else 0
        let opened := Config.gcmOpen (wrapKey (Config.x25519 s.xkScalar (mPayBytes r 0 32)) (xPub s.xkScalar)) (List.replicate 12 0) f
          (mPayBytes r 59 32) (mPayBytes r 91 16)
        let full := s.slotOther k span = true ∨ (k = 0 ∧ span ≠ 0) ∨ (k ≠ 0 ∧ span = 0)
        (code ≠ 0 → refuses (.spanKeyImport b) code) ∧
        (code = 0 → opened = none → refuses (.spanKeyImport b) 0x0B13) ∧
        (code = 0 → opened ≠ none → full → refuses (.spanKeyImport b) 0x0B17) ∧
        (code = 0 → ¬full → ∀ key, opened = some key → Completes (.spanKeyImport b) s fun t => responded t b 0 0 [] ∧
          tfind t.keys k = some { key := key, span := span, epoch := leAt f 2 4, send := false, made := false, exported := [] } ∧
          (∀ d < 2, tget 0 (t.lokD d).mctr k = 0) ∧ (∀ j, j ≠ k → tfind t.keys j = tfind s.keys j) ∧
          t = { s with mbx := t.mbx, keys := t.keys, lok := t.lok })) ∧
      (let code := if mHandle r ≠ 0 ∨ mPayLen r ≠ 8 ∨ zeros r 33 7 = false then 0x0904 else if tfind s.keys (mPay r 0 1) = none then 0x0905 else 0
       (requested s b 0x0324 r →
        (code ≠ 0 → refuses (.spanKeySend b) code) ∧
        (code = 0 → Completes (.spanKeySend b) s fun t => responded t b 0 0 [] ∧ t = { s with mbx := t.mbx, keys := t.keys } ∧
          ∀ k y z, tfind s.keys (mPay r 0 1) = some y → tfind s.keys k = some z →
            tfind t.keys k = some (if z.span = y.span then { z with send := k == mPay r 0 1 } else z))) ∧
       (requested s b 0x0325 r →
        (code ≠ 0 → refuses (.spanKeyDestroy b) code) ∧
        (code = 0 → Completes (.spanKeyDestroy b) s fun t => responded t b 0 0 [] ∧ t = { s with mbx := t.mbx, keys := t.keys } ∧
          tfind t.keys (mPay r 0 1) = none ∧ ∀ k, k ≠ mPay r 0 1 → tfind t.keys k = tfind s.keys k))) ∧
      (requested s b 0x0331 r → ∀ image : List Byte,
        let stage := leAt image 6 1
        let code := if mHandle r ≠ 0 then 0x0904 else if stage = 0 ∨ 3 < stage then 0x0B01 else s.imageCode stage image
        let copy := 1 - nfld (s.get SEC_STAT_copies 0) (stage - 1) 1
        (code ≠ 0 → refuses (.fwUpdate b image) code) ∧
        (code = 0 → Completes (.fwUpdate b image) s fun t => responded t b 0 0 [] ∧ t.flashAt copy stage = image ∧
          (∀ c g, c < 2 → g < 4 → (c, g) ≠ (copy, stage) → t.flashAt c g = s.flashAt c g) ∧
          t.rot = { s.rot with flash := t.rot.flash } ∧ t = { s with mbx := t.mbx, rot := t.rot })) ∧
      (requested s b 0x0332 r →
        let stage := mPay r 0 1
        let bad := mHandle r ≠ 0 ∨ mPayLen r ≠ 8 ∨ zeros r 33 7 = false ∨ stage = 0 ∨ 3 < stage
        let svn := leAt (s.flashAt (nfld (s.get SEC_STAT_copies 0) (stage - 1) 1) stage) 12 2
        (bad → refuses (.svnCommit b) 0x0904) ∧
        (¬bad → Completes (.svnCommit b) s fun t => responded t b 0 0 [] ∧ tget 0 t.rot.svnMin stage = Nat.max (tget 0 s.rot.svnMin stage) svn ∧
          (∀ g, g ≠ stage → tget 0 t.rot.svnMin g = tget 0 s.rot.svnMin g) ∧ t.rot = { s.rot with svnMin := t.rot.svnMin } ∧
          t = { s with mbx := t.mbx, rot := t.rot })))
/-! ### The event recorder -/

/-- EVENT_INTAKE, EVENT_WRITE, EVENT_BUCKET_GAIN, EVENT_SNAPSHOT, EVR_READ, EVR_CLEAR, EVR_CONFIGURE (R518, R519, R520, R522, R523, R525 to R528): an event that no
earlier one of its unit precedes takes a token and a place in the intake queue, or is suppressed and counted; a snapshot holds a value for
each entry of its list, of the raising unit's block (log 142) or the module's; the first queued event receives its sequence number, carries the suppressed count, and overwrites the oldest events
whole for its entries; a token is refused with its first failing check, or clears or configures under a fresh nonce and leaves its event. -/
def Obligations.EventsAreQueuedNumberedReadAndCleared : Prop :=
  ∀ s : State,
    (∀ (i : Nat) (e : Event), s.evr.raised[i]? = some e →
      let first := ∀ y ∈ s.evr.raised.take i, ¬(y.unit = e.unit ∧ y.src = e.src)
      let missing := tget 0 s.evr.buckets e.code
      let token := missing < (s.evrRate e.code).2
      let taken := fun (t : State) => t.evr.raised = s.evr.raised.take i ++ s.evr.raised.drop (i + 1) ∧ t.evr.ring = s.evr.ring ∧
        (e.code = 0x05F1 ∨ e.code = 0x06F1 → t.evr.aselo = s.evr.aselo ++ [(e.code, e.unit, e.detail)]) ∧
        (freeCode e.code = false → token → tget 0 t.evr.buckets e.code = missing + 1) ∧
        (freeCode e.code = true ∨ ¬token → t.evr.buckets = s.evr.buckets)
      (¬first → exec (.eventIntake i) s = .next s) ∧
      (first → freeCode e.code = true ∨ (token ∧ s.evr.queue.length < 512) → Completes (.eventIntake i) s fun t => taken t ∧
        (∃ snaps, t.evr.queue = s.evr.queue ++ [{ e with tick := s.tick, inc := s.incarnation, snaps := snaps }] ∧
          (snaps = none ↔ (s.snapList e.code).isSome = true)) ∧ t.evr.suppressed = s.evr.suppressed ∧ t = { s with evr := t.evr }) ∧
      (first → freeCode e.code = false → ¬(token ∧ s.evr.queue.length < 512) → Completes (.eventIntake i) s fun t => taken t ∧
        t.evr.queue = s.evr.queue ∧ tget 0 t.evr.suppressed e.code = satAdd 32 (tget 0 s.evr.suppressed e.code) 1 ∧
        t.get EVR_CNT_suppressed 0 = satAdd 32 (s.get EVR_CNT_suppressed 0) 1 ∧ regsBut s t [EVR_CNT.addr 0 0 0] ∧ onlyRegsEvr s t)) ∧
    (∀ i : Nat, (s.evr.raised[i]? = none → exec (.eventIntake i) s = .next s) ∧ (s.evr.queue[i]? = none → exec (.eventSnapshot i) s = .next s)) ∧
    (s.evr.queue = [] → exec .eventWrite s = .next s) ∧
    (∀ code : Nat, Completes (.eventBucketGain code) s fun t =>
      tget 0 t.evr.buckets code = tget 0 s.evr.buckets code - 1 ∧ (∀ c, c ≠ code → tget 0 t.evr.buckets c = tget 0 s.evr.buckets c) ∧
      t = { s with evr := { s.evr with buckets := t.evr.buckets } }) ∧
    (∀ (i : Nat) (e : Event), s.evr.queue[i]? = some e →
      (e.snaps ≠ none → exec (.eventSnapshot i) s = .next s) ∧
      (e.snaps = none → Completes (.eventSnapshot i) s fun t => ∃ vals : List Nat, t.evr.queue = lset s.evr.queue i { e with snaps := some vals } ∧
        (∀ k, s.snapList e.code = some k → vals.length = (s.snapEntries k).length) ∧
        (∀ k j v : Nat, s.snapList e.code = some k → (s.snapEntries k)[j]? = some v →
          let off := nfld v 3 43 * 8
          let base := if e.src = 6 then 0x8010000000 + e.unit * 0x10000 else if e.src = 7 then 0x8020000000 + e.unit * 0x10000
            else if e.src = 8 then 2 ^ 46 + e.unit * 0x1000 else 0x8000000000 + e.unit * 0x10000
          let named := if nbit v 1 = true then (if e.part = 0xFF then some off else none) else if e.unit = 0xFFFF then none else some (base + off)
          (named.bind regOf = none → vals[j]? = some 0) ∧
          (∀ a q u x y, named = some a → regOf a = some (q, u, x, y) →
            vals[j]? = some (if q.base = CTL_CQ_POP.base ∨ q.base = CTL_DRAW.base then 0 else s.readReg a))) ∧
        t = { s with evr := { s.evr with queue := t.evr.queue } })) ∧
    (∀ (e : Event) (rest : List Event), s.evr.queue = e :: rest →
      (e.snaps = none → exec .eventWrite s = .next s) ∧
      (∀ vals, e.snaps = some vals → Completes .eventWrite s fun t =>
        let seq := s.get EVR_STAT_next_seq 0
        let n := 1 + cdiv vals.length 7
        ∃ gone kept, s.evr.ring = gone ++ kept ∧ t.evr.queue = rest ∧
          t.evr.ring = kept ++ [(seq, { e with suppressed := tget 0 s.evr.suppressed e.code })] ∧ tget 0 t.evr.suppressed e.code = 0 ∧
          (ringUsed s.evr.ring + n ≤ 8192 → gone = []) ∧ (kept ≠ [] → ringUsed kept + n ≤ 8192) ∧
          t.get EVR_STAT_next_seq 0 = (seq + 1) % 2 ^ 32 ∧ t.get EVR_CNT_overwritten 0 = satAdd 32 (s.get EVR_CNT_overwritten 0) gone.length ∧
          (gone = [] → t.get EVR_STAT_oldest 0 = s.get EVR_STAT_oldest 0) ∧ (∀ x l, gone ≠ [] → kept = x :: l → t.get EVR_STAT_oldest 0 = x.1 % 2 ^ 32) ∧
          (gone ≠ [] → kept = [] → t.get EVR_STAT_oldest 0 = seq) ∧ regsBut s t [EVR_STAT.addr 0 0 0, EVR_CNT.addr 0 0 0] ∧ onlyRegsEvr s t)) ∧
    (∀ (b : Mbx) (r : List Byte), requested s b 0x0172 r →
      let count := mPay r 4 2
      let bad := mHandle r ≠ 0 ∨ mPayLen r ≠ 8 ∨ zeros r 38 2 = false ∨ count = 0 ∨ 63 < count
      let oldest := s.get EVR_STAT_oldest 0
      let start := Nat.max (mPay r 0 4) oldest
      (bad → Completes (.evrRead b) s fun t => responded t b 0x0904 0 [] ∧ t = { s with mbx := t.mbx }) ∧
      (¬bad → Completes (.evrRead b) s fun t => t = { s with mbx := t.mbx } ∧ ∃ (l : List (Nat × Event)) (next : Nat),
        responded t b 0 0 (leBytes 4 next ++ leBytes 4 oldest ++ leBytes 2 l.length ++ List.replicate 22 0 ++ l.flatMap fun x => x.2.entries x.1) ∧
        let seen := fun (x : Nat × Event) => decide (start ≤ x.1) && (b.val == 0 || (x.2.part == boxOwner b &&
          (s.lastMade (boxOwner b)).all fun n => decide (n < x.1)))
        let all := s.evr.ring.filter seen
        l = all.take l.length ∧ l.length ≤ count ∧ ringUsed l ≤ 63 ∧
        (l.length = count ∨ l.length = all.length ∨ ∃ x, all[l.length]? = some x ∧ 63 < ringUsed l + x.2.size))) ∧
    (∀ b : Mbx, ((s.box b).stage ≠ 1 ∨ mType (s.box b).req ≠ 0x0172 → exec (.evrRead b) s = .next s) ∧
      ((s.box b).stage ≠ 1 ∨ mType (s.box b).req ≠ 0x0173 ∨ configures (s.box b).req = true → exec (.evrClear b) s = .next s) ∧
      ((s.box b).stage ≠ 1 ∨ mType (s.box b).req ≠ 0x0173 ∨ configures (s.box b).req = false → exec (.evrConfigure b) s = .next s)) ∧
    (∀ (b : Mbx) (r : List Byte), requested s b 0x0173 r →
      let k := mPayBytes r 0 (mPayLen r)
      let code := firstFail (s.tokChecks k)
      let c := if configures r = true then Instr.evrConfigure b else .evrClear b
      let fresh := fun (t : State) => t.evr.draws = s.evr.draws + 1 ∧ t.evr.queue = s.evr.queue ∧ responded t b 0 0 []
      let refuses := fun (code : Nat) => Completes c s fun t => responded t b code 0 [] ∧ t.get EVR_CTL_reason 0 = code ∧
        regsBut s t [EVR_CTL.addr 0 0 0] ∧ t = { s with mbx := t.mbx, regs := t.regs }
      (mHandle r ≠ 0 → Completes c s fun t => responded t b 0x0904 0 [] ∧ t = { s with mbx := t.mbx }) ∧
      (mHandle r = 0 → code ≠ 0 → refuses code) ∧
      (mHandle r = 0 → code = 0 → leAt k 6 1 = 1 → Completes c s fun t =>
        let upTo := leAt k 32 4
        fresh t ∧ (∀ x, x ∈ t.evr.ring ↔ x ∈ s.evr.ring ∧ upTo < x.1) ∧
        t.get EVR_STAT_oldest 0 = Nat.max (s.get EVR_STAT_oldest 0) (upTo + 1) % 2 ^ 32 ∧ t.get EVR_STAT_next_seq 0 = s.get EVR_STAT_next_seq 0 ∧
        raisedLast t 0x0FF0 0xFFFF ∧ regsBut s t [EVR_STAT.addr 0 0 0] ∧ t = { s with mbx := t.mbx, regs := t.regs, evr := t.evr }) ∧
      (mHandle r = 0 → code = 0 → leAt k 6 1 = 2 → s.overAll (tokOver k) = none → refuses 0x0F17) ∧
      (mHandle r = 0 → code = 0 → leAt k 6 1 = 2 → ∀ u, s.overAll (tokOver k) = some u → Completes c s fun t =>
        fresh t ∧ t.evr.ring = s.evr.ring ∧ t.regs = u.regs ∧ t.evr.buckets = u.evr.buckets ∧ raisedLast t 0x0FF1 0xFFFF ∧
        t = { s with mbx := t.mbx, regs := t.regs, evr := t.evr }))
/-! ### Power, clocks, reset and test access -/

/-- POWER_ON, UVLO_FALL, OVERVOLTAGE_TRIP, OVERPOWER_TRIP, THERMAL_TRIP, MRST, PERST, STANDBY_ENTRY, CROFT_IDLE (R533, R538, R539, R543,
R544 to R547): the fall below the lockout and the power-on clear everything but fuses and boot flash; a trip keeps the recorder and
the power controller's registers and records its reason; MRST ends a trip with a warm reset while the module is cool and the input in
range; PERST# loses the link; standby is entered while no partition exists. That the resume record is copied at a trip (log 150), that standby
clears the clusters' memory (log 152), and that a reset lasts to the end of its start-up and absorbs MRST there (log 161), are the model's
choices. -/
def Obligations.ResetsTripsAndStandbyKeepWhatTheyShould : Prop :=
  ∀ s : State,
    let off := s.pwr.off
    let cold := fun (t : State) => t.regs = [] ∧ t.mem = [] ∧ t.clu = [] ∧ t.chans = [] ∧ t.keys = [] ∧ t.links = [] ∧ t.sys = Aselo.init ∧
      t.evr.ring = [] ∧ t.evr.queue = [] ∧ t.evr.raised = [] ∧ t.tick = 0 ∧ t.incarnation = 0 ∧ t.resume = State.reset.resume ∧
      t.rot.flash = s.rot.flash ∧ t.rot.svnMin = s.rot.svnMin ∧ t.rot.unlocked = false ∧ t.pending = s.pending
    (off = false → exec .powerOn s = .next s ∧ Completes .uvloFall s fun t => cold t ∧ t.pwr = { Power.init with off := true, pwrok := false }) ∧
    (off = true → exec .uvloFall s = .next s ∧ Completes .powerOn s fun t => cold t ∧ t.pwr = Power.init ∧ t.get EVR_STAT_next_seq 0 = 1) ∧
    (∀ c code, (c, code) ∈ [(Instr.overvoltageTrip, 0x0E33), (.overpowerTrip, 0x0E31), (.thermalTrip, 0x0E32)] →
      (off = true ∨ s.pwr.tripped = true → exec c s = .next s) ∧
      (off = false → s.pwr.tripped = false → Completes c s fun t => raisedLast t code 0xFFFF ∧ t.evr.ring = s.evr.ring ∧
        t.pwr = { s.pwr with tripped := true, tripSeen := true, alert := true, therm := s.pwr.therm || code == 0x0E32, pwrok := false } ∧
        t.mem = [] ∧ t.clu = [] ∧ t.chans = [] ∧ t.keys = [] ∧ t.sys = Aselo.init ∧ t.tick = s.tick ∧ t.incarnation = s.incarnation ∧
        (s.resetDue = 0 → s.booting = false → t.resume.cause = 2 ∧ t.resume.inc = s.incarnation + 1 ∧ t.resume.tick = s.tick) ∧
        (∀ a, tfind t.regs a = if isOnReg a then tfind s.regs a else none))) ∧
    (let warm := off = false ∧ s.get PWR_TEMP_die_max 0 < s.get PWR_CAP_t_soft 0 ∧ 44000 ≤ s.get PWR_MEAS_vin_mv 0 ∧ s.get PWR_MEAS_vin_mv 0 ≤ 56000
     let starting := s.pwr.tripped = false ∧ s.booting = true
     let absorbed := starting ∧ s.get PWR_STATE_cause 0 ≠ 1
     (¬warm ∨ absorbed → exec .mrst s = .next s) ∧
     (warm → ¬absorbed → Completes .mrst s fun t =>
      t.pwr = { s.pwr with tripped := false, therm := false, pwrok := true } ∧ (¬starting → t.incarnation = s.incarnation + 1) ∧
      (starting → t.incarnation = s.incarnation) ∧ t.evr = s.evr ∧ t.tick = s.tick ∧
      t.mem = [] ∧ t.clu = [] ∧ t.chans = [] ∧ t.keys = [] ∧ t.sys = Aselo.init ∧ t.resetDue = 0 ∧ t.rot.flash = s.rot.flash ∧
      t.get PWR_STATE_cause 0 = (if s.pwr.tripped then 3 else if s.booting || s.resetDue == 1 then 1 else 2) ∧
      (∀ a, isEvrReg a = true → tfind t.regs a = tfind s.regs a) ∧
      (∀ a, isEvrReg a = false → a ≠ PWR_STATE.addr 0 0 0 → tfind t.regs a = none))) ∧
    (Completes (.perst false) s fun t => t = { s with pcie := { s.pcie with perst := false } }) ∧
    (s.get PCI_LINK_STAT_up 0 = 0 → Completes (.perst true) s fun t => t = { s with pcie := { s.pcie with perst := true } }) ∧
    (s.get PCI_LINK_STAT_up 0 = 1 → Completes (.perst true) s fun t => t.pcie.perst = true ∧ t.get PCI_LINK_STAT_up 0 = 0 ∧ t.pcie.tx = [] ∧
      t.pcie.reads = [] ∧ (s.booting = false → t.resetDue ≠ 0) ∧ (∃ e ∈ t.evr.raised, e.code = 0x08F2) ∧ memSame s t) ∧
    (let due := (∀ p < 16, s.partExists p = false) ∧ s.sys.up = true
     (¬due → exec .standbyEntry s = .next s) ∧
     (due → Completes .standbyEntry s fun t => t.get PWR_STATE_standby 0 = 1 ∧ t.clu = [] ∧
      (∀ a, if a < onchipTop then t.rawByte a = 0 else t.rawByte a = s.rawByte a) ∧
      (∀ a, isCluReg a = false → a ≠ PWR_STATE.addr 0 0 0 → tfind t.regs a = tfind s.regs a) ∧
      t = { s with regs := t.regs, mem := t.mem, ecc := t.ecc, clu := t.clu })) ∧
    (∀ k : Part,
      let p := (s.croftPart k).1
      let busy := p < 16 ∧ ((∃ i ∈ s.instsOf p, s.instActive i = true) ∨ (s.part p).be.isSome = true ∨ s.returning p = true ∨
        ∃ l, s.loopOf p = some l ∧ (l.phase = 2 ∨ l.phase = 3))
      (busy → exec (.croftIdle k) s = .next s) ∧
      (¬busy → Completes (.croftIdle k) s fun t =>
        (∀ j < 16, nbit (t.get PWR_STATE_croft_idle 0) j = (nbit (s.get PWR_STATE_croft_idle 0) j || j == k.val)) ∧
        t.get PWR_STATE_standby 0 = s.get PWR_STATE_standby 0 ∧ regsBut s t [PWR_STATE.addr 0 0 0] ∧ onlyRegs s t))

/-- INPUT_DEGRADED, POWER_SAMPLE, PWR_CTL_EN, TELEMETRY, the SMBus commands and the test access port (R430, R487, R533, R535, R551 to R553, R555): an entry to the
degraded range is recorded and asserts SMBALERT#; a sample enters the mean of the last 1,024 (of fewer until then: the model's choice) and shows in the measurement
registers; the target answers each read with its register while the module has input, reads of STATUS release SMBALERT#, and a cap out of range is
ignored and recorded; EXTEST needs the debug-unlocked lifecycle; an UNLOCK token that is valid zeroizes every key and resets the module, and a
challenge serves once. That an alert response is answered only while SMBALERT# is asserted is presumed from the bus's standard; what TELEMETRY's counters
hold is the model's free value. -/
def Obligations.MeasurementManagementBusAndTestPort : Prop :=
  (∀ (mv : Nat) (s : State),
    let deg := 40000 ≤ mv ∧ mv < 44000 ∨ 56000 < mv ∧ mv ≤ 58000
    let ok := 44000 ≤ mv ∧ mv ≤ 56000
    (s.pwr.off = true ∨ deg ∧ s.pwr.degraded = true ∨ ¬deg ∧ ¬ok → exec (.inputDegraded mv) s = .next s) ∧
    (s.pwr.off = false → ok → Completes (.inputDegraded mv) s fun t => t = { s with pwr := { s.pwr with degraded := false } }) ∧
    (s.pwr.off = false → deg → s.pwr.degraded = false → Completes (.inputDegraded mv) s fun t =>
      t.pwr = { s.pwr with degraded := true, alert := true } ∧ raisedLast t 0x0E34 0xFFFF ∧ t = { s with pwr := t.pwr, evr := t.evr })) ∧
  (∀ (mv iin watts die hbm inlet outlet dieId : Nat) (s : State),
    let c := Instr.powerSample mv iin watts die hbm inlet outlet dieId
    let l := (s.pwr.samples ++ [watts]).drop (s.pwr.samples.length + 1 - 1024)
    (s.pwr.off = true → exec c s = .next s) ∧
    (s.pwr.off = false → Completes c s fun t => t.pwr.samples = l ∧ t.get PWR_MEAS_vin_mv 0 = mv % 65536 ∧ t.get PWR_MEAS_iin 0 = iin % 65536 ∧
      t.get PWR_MEAS_pavg_w 0 = l.foldl (fun a b => a + b) 0 / l.length % 8192 ∧ t.get PWR_TEMP_die_max 0 = die % 256 ∧ t.get PWR_TEMP_hbm_max 0 = hbm % 256 ∧
      t.get PWR_TEMP_inlet 0 = inlet % 256 ∧ t.get PWR_TEMP_outlet 0 = outlet % 256 ∧ t.get PWR_TEMP_die_id 0 = dieId % 16 ∧
      regsBut s t [PWR_MEAS.addr 0 0 0, PWR_TEMP.addr 0 0 0] ∧ t = { s with regs := t.regs, pwr := t.pwr })) ∧
  (∀ (v : Word) (s : State),
    let c1 := 1000 ≤ s.get PWR_CAP_cap_w 0 ∧ s.get PWR_CAP_cap_w 0 ≤ 4800
    let c2 := 50 ≤ s.get PWR_CAP_soft_pct 0 ∧ s.get PWR_CAP_soft_pct 0 ≤ 99
    let c3 := s.get PWR_CAP_t_soft 0 < s.get PWR_CAP_t_hard 0 ∧ s.get PWR_CAP_t_hard 0 < 105
    let ends := fun (en reason : Nat) => Completes (.pwrCtlEn v) s fun t => t.get PWR_CTL_en 0 = en ∧ t.get PWR_CTL_reason 0 = reason ∧
      regsBut s t [PWR_CTL.addr 0 0 0] ∧ onlyRegs s t
    (s.get PWR_CTL_en 0 = 1 → ends 1 (s.get PWR_CTL_reason 0)) ∧
    (s.get PWR_CTL_en 0 = 0 → (c1 → c2 → c3 → ends 1 (s.get PWR_CTL_reason 0)) ∧ (¬c1 → ends 0 0x0E11) ∧ (c1 → ¬c2 → ends 0 0x0E12) ∧
      (c1 → c2 → ¬c3 → ends 0 0x0E13))) ∧
  (∀ s : State,
    let reads := fun (c : Instr) (v : Nat) => Completes c s fun t => t = { s with pwr := { s.pwr with smb := if s.pwr.off then none else some v } }
    reads .smbVin (s.get PWR_MEAS_vin_mv 0) ∧ reads .smbIin (s.get PWR_MEAS_iin 0) ∧ reads .smbPin (s.get PWR_MEAS_pavg_w 0) ∧
    reads .smbTdie (s.get PWR_TEMP_die_max 0) ∧ reads .smbThbm (s.get PWR_TEMP_hbm_max 0) ∧ reads .smbTin (s.get PWR_TEMP_inlet 0) ∧
    reads .smbTout (s.get PWR_TEMP_outlet 0) ∧ reads .smbCause (s.get PWR_STATE_cause 0) ∧ reads .smbCapRead (s.get PWR_CAP_cap_w 0) ∧
    (s.pwr.off = true → Completes .smbStatus s fun t => t = { s with pwr := { s.pwr with smb := none } }) ∧
    (s.pwr.off = false → Completes .smbStatus s fun t => ∃ w, t = { s with pwr := { s.pwr with smb := some w, alert := false, tripSeen := false } } ∧ w < 32 ∧
      nbit w 0 = s.pwr.pwrok ∧ nbit w 1 = s.beHot ∧ nbit w 2 = s.lcHot ∧ nbit w 3 = s.pwr.tripSeen ∧ nbit w 4 = (s.get PWR_STATE_standby 0 == 1)) ∧
    (Completes .smbAlertResponse s fun t =>
      t = { s with pwr := { s.pwr with smb := if s.pwr.alert = true ∧ s.pwr.off = false then some 0x5C else none } }) ∧
    (∀ (watts : Nat) (pec : Bool),
      (s.pwr.off = true ∨ pec = false → Completes (.smbCapWrite watts pec) s fun t => t = { s with pwr := { s.pwr with smb := none } }) ∧
      (s.pwr.off = false → pec = true → 1000 ≤ watts → watts ≤ 4800 → Completes (.smbCapWrite watts pec) s fun t =>
        t.get PWR_CAP_cap_w 0 = watts ∧ t.get PWR_CAP_soft_pct 0 = s.get PWR_CAP_soft_pct 0 ∧ t.get PWR_CAP_t_soft 0 = s.get PWR_CAP_t_soft 0 ∧
        t.get PWR_CAP_t_hard 0 = s.get PWR_CAP_t_hard 0 ∧ regsBut s t [PWR_CAP.addr 0 0 0] ∧ onlyRegs s t) ∧
      (s.pwr.off = false → pec = true → watts < 1000 ∨ 4800 < watts → Completes (.smbCapWrite watts pec) s fun t =>
        t.get PWR_CTL_reason 0 = 0x0E21 ∧ t.get PWR_CTL_en 0 = s.get PWR_CTL_en 0 ∧ raisedLast t 0x0E21 0xFFFF ∧
        regsBut s t [PWR_CTL.addr 0 0 0] ∧ onlyRegsEvr s t)) ∧
    (let sel := fun (c : Instr) (ir dr : Nat) => Completes c s fun t => t = { s with tap := { s.tap with ir := ir, dr := dr, drive := false } }
     sel .tapBypass 0xFF 0 ∧ sel .tapIdcode 0x01 0x1C401A0B ∧ sel .tapTestReset 0x01 0x1C401A0B ∧
     (∀ pins shift : Nat, Completes (.tapSamplePreload pins shift) s fun t =>
      t = { s with tap := { s.tap with ir := 0x02, dr := pins, chain := shift, drive := false } }) ∧
     (∀ shift : Nat, (s.rot.unlocked = false → sel (.tapExtest shift) 0xFF 0) ∧
      (s.rot.unlocked = true → Completes (.tapExtest shift) s fun t => ∃ dr, t = { s with opens := t.opens, tap := { s.tap with ir := 0x03, dr := dr, chain := shift, drive := true } }))) ∧
    (Completes .tapChallenge s fun t => t.tap.ir = 0x11 ∧ t.tap.challenge = some t.tap.dr ∧ t.tap.dr < 2 ^ 64 ∧ t.rot = { s.rot with draws := s.rot.draws + 1 } ∧
      t = { s with tap := t.tap, rot := t.rot }) ∧
    (∀ k : List Byte,
      let valid := k.length = 128 ∧ leAt k 0 8 = Config.serial ∧ s.tap.challenge = some (leAt k 8 8) ∧ zeros k 16 48 = true ∧
        Config.edVerify (Config.fusedKey 1) (Config.sha512 (k.take 64)) (k.drop 64) = true
      (¬valid → Completes (.tapUnlock k) s fun t => t.tap.challenge = none ∧ t.tap.ir = 0x10 ∧ raisedLast t 0x0E51 0xFFFF ∧
        t = { s with tap := t.tap, evr := t.evr }) ∧
      (valid → Completes (.tapUnlock k) s fun t => t.tap.challenge = none ∧ t.rot.unlocked = true ∧ t.keys = [] ∧ t.rot.sessions = [] ∧ t.rot.pend = [] ∧
        t.evr = s.evr ∧ t.pending = s.pending ∧
        (s.absorbs = true → memSame s t ∧ t.regs = s.regs ∧ t.incarnation = s.incarnation) ∧
        (s.absorbs = false → t.mem = [] ∧ t.sys = Aselo.init ∧ t.incarnation = s.incarnation + b2n (!s.booting) ∧
          t.get PWR_STATE_cause 0 = (if s.booting || s.resetDue == 1 then 1 else 2))))) ∧
  (∀ (b : Mbx) (s : State), (s.box b).stage ≠ 1 ∨ mType (s.box b).req ≠ 0x0171 → exec (.telemetry b) s = .next s) ∧
  (∀ (b : Mbx) (s : State) (r : List Byte), requested s b 0x0171 r →
    (mHandle r ≠ 0 → Completes (.telemetry b) s fun t => responded t b 0x0904 0 [] ∧ t = { s with mbx := t.mbx }) ∧
    (mHandle r = 0 → Completes (.telemetry b) s fun t =>
      responded t b 0 0 ((Config.telemetry b s.opens).take 4064) ∧ t = { s with mbx := t.mbx, opens := s.opens + 1 }))
end

