-- ==== Sys2Proof/Laws/Table.lean ====
section
/-!
SUPPORT. Lemmas of the sparse tables: a read after a write, the other keys, and the canonical form.
-/
namespace Sys2Proof.Machine

open Sys2Proof

variable {α : Type}

theorem tget_eq_tfind (d : α) (t : Tab α) (k : Nat) : tget d t k = (tfind t k).getD d := by
  induction t with
  | nil => rfl
  | cons p t ih => by_cases h : p.1 = k <;> simp [tget, tfind, h, ih]

@[simp] theorem tfind_tins_same (t : Tab α) (k : Nat) (v : α) : tfind (tins k v t) k = some v := by
  induction t with
  | nil => simp [tins, tfind]
  | cons p t ih =>
    simp only [tins]
    split
    · simp [tfind]
    · split
      · simp [tfind]
      · rename_i h1 h2
        have h : ¬ p.1 = k := fun h => h2 h.symm
        simp [tfind, h, ih]

theorem tfind_tins_ne (t : Tab α) (k a : Nat) (v : α) (h : a ≠ k) : tfind (tins k v t) a = tfind t a := by
  have h' : ¬ k = a := fun e => h e.symm
  induction t with
  | nil => simp [tins, tfind, h']
  | cons p t ih =>
    simp only [tins]
    split
    · simp [tfind, h']
    · split
      · rename_i h1 h2
        have : ¬ p.1 = a := fun e => h' (h2.trans e)
        simp [tfind, h', this]
      · simp [tfind, ih]

@[simp] theorem tfind_tdel_same (t : Tab α) (k : Nat) : tfind (tdel k t) k = none := by
  induction t with
  | nil => rfl
  | cons p t ih =>
    simp only [tdel]
    split
    · exact ih
    · rename_i h; simp [tfind, h, ih]

theorem tfind_tdel_ne (t : Tab α) (k a : Nat) (h : a ≠ k) : tfind (tdel k t) a = tfind t a := by
  induction t with
  | nil => rfl
  | cons p t ih =>
    simp only [tdel]
    split
    · rename_i e
      have : ¬ p.1 = a := fun x => h (x.symm.trans e)
      simp [tfind, this, ih]
    · simp [tfind, ih]

variable [DecidableEq α]

@[simp] theorem tget_tset_same (d : α) (t : Tab α) (k : Nat) (v : α) : tget d (tset d t k v) k = v := by
  unfold tset
  split
  · simp [tget_eq_tfind, *]
  · simp [tget_eq_tfind]

theorem tfind_tset_ne (d : α) (t : Tab α) (k a : Nat) (v : α) (h : a ≠ k) : tfind (tset d t k v) a = tfind t a := by
  unfold tset
  split
  · exact tfind_tdel_ne t k a h
  · exact tfind_tins_ne t k a v h

theorem tget_tset_ne (d e : α) (t : Tab α) (k a : Nat) (v : α) (h : a ≠ k) : tget e (tset d t k v) a = tget e t a := by
  simp [tget_eq_tfind, tfind_tset_ne d t k a v h]

@[simp] theorem tget_tmod_same (d : α) (t : Tab α) (k : Nat) (f : α → α) : tget d (tmod d t k f) k = f (tget d t k) := by
  simp [tmod]

theorem tget_tmod_ne (d e : α) (t : Tab α) (k a : Nat) (f : α → α) (h : a ≠ k) : tget e (tmod d t k f) a = tget e t a := by
  simp [tmod, tget_tset_ne _ _ _ _ _ _ h]

/-! ### Sorted keys -/

omit [DecidableEq α] in
theorem tsortedFrom_mono (t : Tab α) : ∀ {a b : Nat}, a ≤ b → tsortedFrom b t = true → tsortedFrom a t = true := by
  cases t with
  | nil => intros; rfl
  | cons p t =>
    intro a b h hb
    simp only [tsortedFrom, Bool.and_eq_true, decide_eq_true_eq] at *
    exact ⟨by omega, hb.2⟩

omit [DecidableEq α] in
theorem tsortedFrom_tins (k : Nat) (v : α) : ∀ (t : Tab α) (b : Nat), b ≤ k → tsortedFrom b t = true → tsortedFrom b (tins k v t) = true := by
  intro t
  induction t with
  | nil => intro b hb _; simp [tins, tsortedFrom, hb]
  | cons p t ih =>
    intro b hb h
    simp only [tsortedFrom, Bool.and_eq_true, decide_eq_true_eq] at h
    simp only [tins]
    split
    · simp only [tsortedFrom, Bool.and_eq_true, decide_eq_true_eq]; exact ⟨hb, by omega, h.2⟩
    · split
      · rename_i e; simp only [tsortedFrom, Bool.and_eq_true, decide_eq_true_eq]; exact ⟨hb, by rw [e]; exact h.2⟩
      · simp only [tsortedFrom, Bool.and_eq_true, decide_eq_true_eq]; exact ⟨h.1, ih _ (by omega) h.2⟩

omit [DecidableEq α] in
theorem tsortedFrom_tdel (k : Nat) : ∀ (t : Tab α) (b : Nat), tsortedFrom b t = true → tsortedFrom b (tdel k t) = true := by
  intro t
  induction t with
  | nil => intro b h; exact h
  | cons p t ih =>
    intro b h
    simp only [tsortedFrom, Bool.and_eq_true, decide_eq_true_eq] at h
    simp only [tdel]
    split
    · exact ih b (tsortedFrom_mono t (by omega) h.2)
    · simp only [tsortedFrom, Bool.and_eq_true, decide_eq_true_eq]; exact ⟨h.1, ih _ h.2⟩

omit [DecidableEq α] in
theorem tsorted_tins (t : Tab α) (k : Nat) (v : α) (h : tsorted t = true) : tsorted (tins k v t) = true :=
  tsortedFrom_tins k v t 0 (Nat.zero_le k) h

theorem tsorted_tset (d : α) (t : Tab α) (k : Nat) (v : α) (h : tsorted t = true) : tsorted (tset d t k v) = true := by
  unfold tset
  split
  · exact tsortedFrom_tdel k t 0 h
  · exact tsorted_tins t k v h

theorem tsorted_tmod (d : α) (t : Tab α) (k : Nat) (f : α → α) (h : tsorted t = true) : tsorted (tmod d t k f) = true :=
  tsorted_tset d t k _ h

omit [DecidableEq α] in
theorem tsortedFrom_filter (f : Nat × α → Bool) : ∀ (t : Tab α) (b : Nat), tsortedFrom b t = true → tsortedFrom b (t.filter f) = true := by
  intro t
  induction t with
  | nil => intro b h; exact h
  | cons p t ih =>
    intro b h
    simp only [tsortedFrom, Bool.and_eq_true, decide_eq_true_eq] at h
    simp only [List.filter]
    split
    · simp only [tsortedFrom, Bool.and_eq_true, decide_eq_true_eq]; exact ⟨h.1, ih _ h.2⟩
    · exact ih b (tsortedFrom_mono t (by omega) h.2)

omit [DecidableEq α] in
theorem tsorted_filter (f : Nat × α → Bool) (t : Tab α) (h : tsorted t = true) : tsorted (t.filter f) = true :=
  tsortedFrom_filter f t 0 h

omit [DecidableEq α] in
theorem tins_mem (k : Nat) (v : α) (t : Tab α) (p : Nat × α) (h : p ∈ tins k v t) : p = (k, v) ∨ p ∈ t := by
  induction t with
  | nil => simpa [tins] using h
  | cons q t ih =>
    simp only [tins] at h
    split at h
    · simpa using h
    · split at h
      · simp only [List.mem_cons] at *; rcases h with h | h <;> simp [h]
      · simp only [List.mem_cons] at *
        rcases h with h | h
        · simp [h]
        · rcases ih h with h | h <;> simp [h]

omit [DecidableEq α] in
theorem tdel_mem (k : Nat) (t : Tab α) (p : Nat × α) (h : p ∈ tdel k t) : p ∈ t := by
  induction t with
  | nil => exact h
  | cons q t ih =>
    simp only [tdel] at h
    split at h
    · exact List.mem_cons_of_mem _ (ih h)
    · simp only [List.mem_cons] at *
      rcases h with h | h
      · exact .inl h
      · exact .inr (ih h)

/-! ### The memory -/

/-- Storing a byte keeps the memory's canonical form. -/
theorem memWf_memPut (m : List Host.Cell) (a : Nat) (b : Byte) (h : memWf m = true) : memWf (memPut m a b) = true := by
  simp only [memWf, Bool.and_eq_true, List.all_eq_true] at *
  obtain ⟨hs, hz⟩ := h
  unfold memPut
  split
  · refine ⟨tsorted_tset 0 m a b hs, fun p hp => ?_⟩
    unfold tset at hp
    split at hp
    · exact hz p (tdel_mem a m p hp)
    · rename_i hb
      rcases tins_mem a b m p hp with rfl | hp
      · simpa using Or.inr hb
      · exact hz p hp
  · rename_i hlt
    refine ⟨tsorted_tins m a b hs, fun p hp => ?_⟩
    rcases tins_mem a b m p hp with rfl | hp
    · simp [hlt]
    · exact hz p hp

/-- Storing bytes keeps the memory's canonical form. -/
theorem memWf_memPuts : ∀ (bs : List Byte) (m : List Host.Cell) (a : Nat), memWf m = true → memWf (memPuts m a bs) = true
  | [], _, _, h => h
  | b :: t, m, a, h => memWf_memPuts t (memPut m a b) (a + 1) (memWf_memPut m a b h)

/-- Dropping cells keeps the memory's canonical form. -/
theorem memWf_filter (f : Host.Cell → Bool) (m : List Host.Cell) (h : memWf m = true) : memWf (m.filter f) = true := by
  simp only [memWf, Bool.and_eq_true, List.all_eq_true] at *
  exact ⟨tsorted_filter f m h.1, fun p hp => h.2 p (List.mem_filter.mp hp).1⟩

/-- A stored byte reads back. -/
theorem tfind_memPut_same (m : List Host.Cell) (a : Nat) (b : Byte) : (tfind (memPut m a b) a).getD 0 = b := by
  unfold memPut
  split
  · have := tget_tset_same (0 : Byte) m a b
    simpa [tget_eq_tfind] using this
  · simp

/-- A stored byte leaves every other address alone. -/
theorem tfind_memPut_ne (m : List Host.Cell) (a x : Nat) (b : Byte) (h : x ≠ a) : tfind (memPut m a b) x = tfind m x := by
  unfold memPut
  split
  · exact tfind_tset_ne 0 m a x b h
  · exact tfind_tins_ne m a x b h

/-- Bytes stored leave every address outside them alone. -/
theorem tfind_memPuts_ne : ∀ (bs : List Byte) (m : List Host.Cell) (a x : Nat), (x < a ∨ a + bs.length ≤ x) →
    tfind (memPuts m a bs) x = tfind m x
  | [], _, _, _, _ => rfl
  | b :: t, m, a, x, h => by
    simp only [List.length_cons] at h
    rw [memPuts, tfind_memPuts_ne t (memPut m a b) (a + 1) x (by omega), tfind_memPut_ne m a x b (by omega)]

end Sys2Proof.Machine
end

