-- ==== Sys2Proof/Laws/State.lean ====
section
/-!
SUPPORT. What each update of the state leaves alone, field by field, and what a read finds after an update.
-/
namespace Sys2Proof.Machine

open Sys2Proof

/-! ### wreg -/

@[simp] theorem State.wreg_mem (s : State) (r : Reg) (u i j v : Nat) : (s.wreg r u i j v).mem = s.mem := rfl
@[simp] theorem State.wreg_ecc (s : State) (r : Reg) (u i j v : Nat) : (s.wreg r u i j v).ecc = s.ecc := rfl
@[simp] theorem State.wreg_clu (s : State) (r : Reg) (u i j v : Nat) : (s.wreg r u i j v).clu = s.clu := rfl
@[simp] theorem State.wreg_hbmq (s : State) (r : Reg) (u i j v : Nat) : (s.wreg r u i j v).hbmq = s.hbmq := rfl
@[simp] theorem State.wreg_patrol (s : State) (r : Reg) (u i j v : Nat) : (s.wreg r u i j v).patrol = s.patrol := rfl
@[simp] theorem State.wreg_replies (s : State) (r : Reg) (u i j v : Nat) : (s.wreg r u i j v).replies = s.replies := rfl
@[simp] theorem State.wreg_epochs (s : State) (r : Reg) (u i j v : Nat) : (s.wreg r u i j v).epochs = s.epochs := rfl
@[simp] theorem State.wreg_evr (s : State) (r : Reg) (u i j v : Nat) : (s.wreg r u i j v).evr = s.evr := rfl
@[simp] theorem State.wreg_links (s : State) (r : Reg) (u i j v : Nat) : (s.wreg r u i j v).links = s.links := rfl
@[simp] theorem State.wreg_lok (s : State) (r : Reg) (u i j v : Nat) : (s.wreg r u i j v).lok = s.lok := rfl
@[simp] theorem State.wreg_keys (s : State) (r : Reg) (u i j v : Nat) : (s.wreg r u i j v).keys = s.keys := rfl
@[simp] theorem State.wreg_left (s : State) (r : Reg) (u i j v : Nat) : (s.wreg r u i j v).left = s.left := rfl
@[simp] theorem State.wreg_notices (s : State) (r : Reg) (u i j v : Nat) : (s.wreg r u i j v).notices = s.notices := rfl
@[simp] theorem State.wreg_pcie (s : State) (r : Reg) (u i j v : Nat) : (s.wreg r u i j v).pcie = s.pcie := rfl
@[simp] theorem State.wreg_bar0 (s : State) (r : Reg) (u i j v : Nat) : (s.wreg r u i j v).bar0 = s.bar0 := rfl
@[simp] theorem State.wreg_chans (s : State) (r : Reg) (u i j v : Nat) : (s.wreg r u i j v).chans = s.chans := rfl
@[simp] theorem State.wreg_upd (s : State) (r : Reg) (u i j v : Nat) : (s.wreg r u i j v).upd = s.upd := rfl
@[simp] theorem State.wreg_redIn (s : State) (r : Reg) (u i j v : Nat) : (s.wreg r u i j v).redIn = s.redIn := rfl
@[simp] theorem State.wreg_relays (s : State) (r : Reg) (u i j v : Nat) : (s.wreg r u i j v).relays = s.relays := rfl
@[simp] theorem State.wreg_rr (s : State) (r : Reg) (u i j v : Nat) : (s.wreg r u i j v).rr = s.rr := rfl
@[simp] theorem State.wreg_hostOut (s : State) (r : Reg) (u i j v : Nat) : (s.wreg r u i j v).hostOut = s.hostOut := rfl
@[simp] theorem State.wreg_resetDue (s : State) (r : Reg) (u i j v : Nat) : (s.wreg r u i j v).resetDue = s.resetDue := rfl
@[simp] theorem State.wreg_resume (s : State) (r : Reg) (u i j v : Nat) : (s.wreg r u i j v).resume = s.resume := rfl
@[simp] theorem State.wreg_incarnation (s : State) (r : Reg) (u i j v : Nat) : (s.wreg r u i j v).incarnation = s.incarnation := rfl
@[simp] theorem State.wreg_mbx (s : State) (r : Reg) (u i j v : Nat) : (s.wreg r u i j v).mbx = s.mbx := rfl
@[simp] theorem State.wreg_sys (s : State) (r : Reg) (u i j v : Nat) : (s.wreg r u i j v).sys = s.sys := rfl
@[simp] theorem State.wreg_rot (s : State) (r : Reg) (u i j v : Nat) : (s.wreg r u i j v).rot = s.rot := rfl
@[simp] theorem State.wreg_pwr (s : State) (r : Reg) (u i j v : Nat) : (s.wreg r u i j v).pwr = s.pwr := rfl
@[simp] theorem State.wreg_tap (s : State) (r : Reg) (u i j v : Nat) : (s.wreg r u i j v).tap = s.tap := rfl
@[simp] theorem State.wreg_tick (s : State) (r : Reg) (u i j v : Nat) : (s.wreg r u i j v).tick = s.tick := rfl
@[simp] theorem State.wreg_opens (s : State) (r : Reg) (u i j v : Nat) : (s.wreg r u i j v).opens = s.opens := rfl
@[simp] theorem State.wreg_pending (s : State) (r : Reg) (u i j v : Nat) : (s.wreg r u i j v).pending = s.pending := rfl

/-! ### put -/

@[simp] theorem State.put_mem (s : State) (f : Fld) (u v i j : Nat) : (s.put f u v i j).mem = s.mem := rfl
@[simp] theorem State.put_ecc (s : State) (f : Fld) (u v i j : Nat) : (s.put f u v i j).ecc = s.ecc := rfl
@[simp] theorem State.put_clu (s : State) (f : Fld) (u v i j : Nat) : (s.put f u v i j).clu = s.clu := rfl
@[simp] theorem State.put_hbmq (s : State) (f : Fld) (u v i j : Nat) : (s.put f u v i j).hbmq = s.hbmq := rfl
@[simp] theorem State.put_patrol (s : State) (f : Fld) (u v i j : Nat) : (s.put f u v i j).patrol = s.patrol := rfl
@[simp] theorem State.put_replies (s : State) (f : Fld) (u v i j : Nat) : (s.put f u v i j).replies = s.replies := rfl
@[simp] theorem State.put_epochs (s : State) (f : Fld) (u v i j : Nat) : (s.put f u v i j).epochs = s.epochs := rfl
@[simp] theorem State.put_evr (s : State) (f : Fld) (u v i j : Nat) : (s.put f u v i j).evr = s.evr := rfl
@[simp] theorem State.put_links (s : State) (f : Fld) (u v i j : Nat) : (s.put f u v i j).links = s.links := rfl
@[simp] theorem State.put_lok (s : State) (f : Fld) (u v i j : Nat) : (s.put f u v i j).lok = s.lok := rfl
@[simp] theorem State.put_keys (s : State) (f : Fld) (u v i j : Nat) : (s.put f u v i j).keys = s.keys := rfl
@[simp] theorem State.put_left (s : State) (f : Fld) (u v i j : Nat) : (s.put f u v i j).left = s.left := rfl
@[simp] theorem State.put_notices (s : State) (f : Fld) (u v i j : Nat) : (s.put f u v i j).notices = s.notices := rfl
@[simp] theorem State.put_pcie (s : State) (f : Fld) (u v i j : Nat) : (s.put f u v i j).pcie = s.pcie := rfl
@[simp] theorem State.put_bar0 (s : State) (f : Fld) (u v i j : Nat) : (s.put f u v i j).bar0 = s.bar0 := rfl
@[simp] theorem State.put_chans (s : State) (f : Fld) (u v i j : Nat) : (s.put f u v i j).chans = s.chans := rfl
@[simp] theorem State.put_upd (s : State) (f : Fld) (u v i j : Nat) : (s.put f u v i j).upd = s.upd := rfl
@[simp] theorem State.put_redIn (s : State) (f : Fld) (u v i j : Nat) : (s.put f u v i j).redIn = s.redIn := rfl
@[simp] theorem State.put_relays (s : State) (f : Fld) (u v i j : Nat) : (s.put f u v i j).relays = s.relays := rfl
@[simp] theorem State.put_rr (s : State) (f : Fld) (u v i j : Nat) : (s.put f u v i j).rr = s.rr := rfl
@[simp] theorem State.put_hostOut (s : State) (f : Fld) (u v i j : Nat) : (s.put f u v i j).hostOut = s.hostOut := rfl
@[simp] theorem State.put_resetDue (s : State) (f : Fld) (u v i j : Nat) : (s.put f u v i j).resetDue = s.resetDue := rfl
@[simp] theorem State.put_resume (s : State) (f : Fld) (u v i j : Nat) : (s.put f u v i j).resume = s.resume := rfl
@[simp] theorem State.put_incarnation (s : State) (f : Fld) (u v i j : Nat) : (s.put f u v i j).incarnation = s.incarnation := rfl
@[simp] theorem State.put_mbx (s : State) (f : Fld) (u v i j : Nat) : (s.put f u v i j).mbx = s.mbx := rfl
@[simp] theorem State.put_sys (s : State) (f : Fld) (u v i j : Nat) : (s.put f u v i j).sys = s.sys := rfl
@[simp] theorem State.put_rot (s : State) (f : Fld) (u v i j : Nat) : (s.put f u v i j).rot = s.rot := rfl
@[simp] theorem State.put_pwr (s : State) (f : Fld) (u v i j : Nat) : (s.put f u v i j).pwr = s.pwr := rfl
@[simp] theorem State.put_tap (s : State) (f : Fld) (u v i j : Nat) : (s.put f u v i j).tap = s.tap := rfl
@[simp] theorem State.put_tick (s : State) (f : Fld) (u v i j : Nat) : (s.put f u v i j).tick = s.tick := rfl
@[simp] theorem State.put_opens (s : State) (f : Fld) (u v i j : Nat) : (s.put f u v i j).opens = s.opens := rfl
@[simp] theorem State.put_pending (s : State) (f : Fld) (u v i j : Nat) : (s.put f u v i j).pending = s.pending := rfl

/-! ### bump -/

@[simp] theorem State.bump_mem (s : State) (f : Fld) (u i j n : Nat) : (s.bump f u i j n).mem = s.mem := rfl
@[simp] theorem State.bump_ecc (s : State) (f : Fld) (u i j n : Nat) : (s.bump f u i j n).ecc = s.ecc := rfl
@[simp] theorem State.bump_clu (s : State) (f : Fld) (u i j n : Nat) : (s.bump f u i j n).clu = s.clu := rfl
@[simp] theorem State.bump_hbmq (s : State) (f : Fld) (u i j n : Nat) : (s.bump f u i j n).hbmq = s.hbmq := rfl
@[simp] theorem State.bump_patrol (s : State) (f : Fld) (u i j n : Nat) : (s.bump f u i j n).patrol = s.patrol := rfl
@[simp] theorem State.bump_replies (s : State) (f : Fld) (u i j n : Nat) : (s.bump f u i j n).replies = s.replies := rfl
@[simp] theorem State.bump_epochs (s : State) (f : Fld) (u i j n : Nat) : (s.bump f u i j n).epochs = s.epochs := rfl
@[simp] theorem State.bump_evr (s : State) (f : Fld) (u i j n : Nat) : (s.bump f u i j n).evr = s.evr := rfl
@[simp] theorem State.bump_links (s : State) (f : Fld) (u i j n : Nat) : (s.bump f u i j n).links = s.links := rfl
@[simp] theorem State.bump_lok (s : State) (f : Fld) (u i j n : Nat) : (s.bump f u i j n).lok = s.lok := rfl
@[simp] theorem State.bump_keys (s : State) (f : Fld) (u i j n : Nat) : (s.bump f u i j n).keys = s.keys := rfl
@[simp] theorem State.bump_left (s : State) (f : Fld) (u i j n : Nat) : (s.bump f u i j n).left = s.left := rfl
@[simp] theorem State.bump_notices (s : State) (f : Fld) (u i j n : Nat) : (s.bump f u i j n).notices = s.notices := rfl
@[simp] theorem State.bump_pcie (s : State) (f : Fld) (u i j n : Nat) : (s.bump f u i j n).pcie = s.pcie := rfl
@[simp] theorem State.bump_bar0 (s : State) (f : Fld) (u i j n : Nat) : (s.bump f u i j n).bar0 = s.bar0 := rfl
@[simp] theorem State.bump_chans (s : State) (f : Fld) (u i j n : Nat) : (s.bump f u i j n).chans = s.chans := rfl
@[simp] theorem State.bump_upd (s : State) (f : Fld) (u i j n : Nat) : (s.bump f u i j n).upd = s.upd := rfl
@[simp] theorem State.bump_redIn (s : State) (f : Fld) (u i j n : Nat) : (s.bump f u i j n).redIn = s.redIn := rfl
@[simp] theorem State.bump_relays (s : State) (f : Fld) (u i j n : Nat) : (s.bump f u i j n).relays = s.relays := rfl
@[simp] theorem State.bump_rr (s : State) (f : Fld) (u i j n : Nat) : (s.bump f u i j n).rr = s.rr := rfl
@[simp] theorem State.bump_hostOut (s : State) (f : Fld) (u i j n : Nat) : (s.bump f u i j n).hostOut = s.hostOut := rfl
@[simp] theorem State.bump_resetDue (s : State) (f : Fld) (u i j n : Nat) : (s.bump f u i j n).resetDue = s.resetDue := rfl
@[simp] theorem State.bump_resume (s : State) (f : Fld) (u i j n : Nat) : (s.bump f u i j n).resume = s.resume := rfl
@[simp] theorem State.bump_incarnation (s : State) (f : Fld) (u i j n : Nat) : (s.bump f u i j n).incarnation = s.incarnation := rfl
@[simp] theorem State.bump_mbx (s : State) (f : Fld) (u i j n : Nat) : (s.bump f u i j n).mbx = s.mbx := rfl
@[simp] theorem State.bump_sys (s : State) (f : Fld) (u i j n : Nat) : (s.bump f u i j n).sys = s.sys := rfl
@[simp] theorem State.bump_rot (s : State) (f : Fld) (u i j n : Nat) : (s.bump f u i j n).rot = s.rot := rfl
@[simp] theorem State.bump_pwr (s : State) (f : Fld) (u i j n : Nat) : (s.bump f u i j n).pwr = s.pwr := rfl
@[simp] theorem State.bump_tap (s : State) (f : Fld) (u i j n : Nat) : (s.bump f u i j n).tap = s.tap := rfl
@[simp] theorem State.bump_tick (s : State) (f : Fld) (u i j n : Nat) : (s.bump f u i j n).tick = s.tick := rfl
@[simp] theorem State.bump_opens (s : State) (f : Fld) (u i j n : Nat) : (s.bump f u i j n).opens = s.opens := rfl
@[simp] theorem State.bump_pending (s : State) (f : Fld) (u i j n : Nat) : (s.bump f u i j n).pending = s.pending := rfl

/-! ### wrapUp -/

@[simp] theorem State.wrapUp_mem (s : State) (f : Fld) (u i j : Nat) : (s.wrapUp f u i j).mem = s.mem := rfl
@[simp] theorem State.wrapUp_ecc (s : State) (f : Fld) (u i j : Nat) : (s.wrapUp f u i j).ecc = s.ecc := rfl
@[simp] theorem State.wrapUp_clu (s : State) (f : Fld) (u i j : Nat) : (s.wrapUp f u i j).clu = s.clu := rfl
@[simp] theorem State.wrapUp_hbmq (s : State) (f : Fld) (u i j : Nat) : (s.wrapUp f u i j).hbmq = s.hbmq := rfl
@[simp] theorem State.wrapUp_patrol (s : State) (f : Fld) (u i j : Nat) : (s.wrapUp f u i j).patrol = s.patrol := rfl
@[simp] theorem State.wrapUp_replies (s : State) (f : Fld) (u i j : Nat) : (s.wrapUp f u i j).replies = s.replies := rfl
@[simp] theorem State.wrapUp_epochs (s : State) (f : Fld) (u i j : Nat) : (s.wrapUp f u i j).epochs = s.epochs := rfl
@[simp] theorem State.wrapUp_evr (s : State) (f : Fld) (u i j : Nat) : (s.wrapUp f u i j).evr = s.evr := rfl
@[simp] theorem State.wrapUp_links (s : State) (f : Fld) (u i j : Nat) : (s.wrapUp f u i j).links = s.links := rfl
@[simp] theorem State.wrapUp_lok (s : State) (f : Fld) (u i j : Nat) : (s.wrapUp f u i j).lok = s.lok := rfl
@[simp] theorem State.wrapUp_keys (s : State) (f : Fld) (u i j : Nat) : (s.wrapUp f u i j).keys = s.keys := rfl
@[simp] theorem State.wrapUp_left (s : State) (f : Fld) (u i j : Nat) : (s.wrapUp f u i j).left = s.left := rfl
@[simp] theorem State.wrapUp_notices (s : State) (f : Fld) (u i j : Nat) : (s.wrapUp f u i j).notices = s.notices := rfl
@[simp] theorem State.wrapUp_pcie (s : State) (f : Fld) (u i j : Nat) : (s.wrapUp f u i j).pcie = s.pcie := rfl
@[simp] theorem State.wrapUp_bar0 (s : State) (f : Fld) (u i j : Nat) : (s.wrapUp f u i j).bar0 = s.bar0 := rfl
@[simp] theorem State.wrapUp_chans (s : State) (f : Fld) (u i j : Nat) : (s.wrapUp f u i j).chans = s.chans := rfl
@[simp] theorem State.wrapUp_upd (s : State) (f : Fld) (u i j : Nat) : (s.wrapUp f u i j).upd = s.upd := rfl
@[simp] theorem State.wrapUp_redIn (s : State) (f : Fld) (u i j : Nat) : (s.wrapUp f u i j).redIn = s.redIn := rfl
@[simp] theorem State.wrapUp_relays (s : State) (f : Fld) (u i j : Nat) : (s.wrapUp f u i j).relays = s.relays := rfl
@[simp] theorem State.wrapUp_rr (s : State) (f : Fld) (u i j : Nat) : (s.wrapUp f u i j).rr = s.rr := rfl
@[simp] theorem State.wrapUp_hostOut (s : State) (f : Fld) (u i j : Nat) : (s.wrapUp f u i j).hostOut = s.hostOut := rfl
@[simp] theorem State.wrapUp_resetDue (s : State) (f : Fld) (u i j : Nat) : (s.wrapUp f u i j).resetDue = s.resetDue := rfl
@[simp] theorem State.wrapUp_resume (s : State) (f : Fld) (u i j : Nat) : (s.wrapUp f u i j).resume = s.resume := rfl
@[simp] theorem State.wrapUp_incarnation (s : State) (f : Fld) (u i j : Nat) : (s.wrapUp f u i j).incarnation = s.incarnation := rfl
@[simp] theorem State.wrapUp_mbx (s : State) (f : Fld) (u i j : Nat) : (s.wrapUp f u i j).mbx = s.mbx := rfl
@[simp] theorem State.wrapUp_sys (s : State) (f : Fld) (u i j : Nat) : (s.wrapUp f u i j).sys = s.sys := rfl
@[simp] theorem State.wrapUp_rot (s : State) (f : Fld) (u i j : Nat) : (s.wrapUp f u i j).rot = s.rot := rfl
@[simp] theorem State.wrapUp_pwr (s : State) (f : Fld) (u i j : Nat) : (s.wrapUp f u i j).pwr = s.pwr := rfl
@[simp] theorem State.wrapUp_tap (s : State) (f : Fld) (u i j : Nat) : (s.wrapUp f u i j).tap = s.tap := rfl
@[simp] theorem State.wrapUp_tick (s : State) (f : Fld) (u i j : Nat) : (s.wrapUp f u i j).tick = s.tick := rfl
@[simp] theorem State.wrapUp_opens (s : State) (f : Fld) (u i j : Nat) : (s.wrapUp f u i j).opens = s.opens := rfl
@[simp] theorem State.wrapUp_pending (s : State) (f : Fld) (u i j : Nat) : (s.wrapUp f u i j).pending = s.pending := rfl

/-! ### accessWrite -/

@[simp] theorem State.accessWrite_mem (s : State) (r : Reg) (u i j v m : Nat) : (s.accessWrite r u i j v m).mem = s.mem := rfl
@[simp] theorem State.accessWrite_ecc (s : State) (r : Reg) (u i j v m : Nat) : (s.accessWrite r u i j v m).ecc = s.ecc := rfl
@[simp] theorem State.accessWrite_clu (s : State) (r : Reg) (u i j v m : Nat) : (s.accessWrite r u i j v m).clu = s.clu := rfl
@[simp] theorem State.accessWrite_hbmq (s : State) (r : Reg) (u i j v m : Nat) : (s.accessWrite r u i j v m).hbmq = s.hbmq := rfl
@[simp] theorem State.accessWrite_patrol (s : State) (r : Reg) (u i j v m : Nat) : (s.accessWrite r u i j v m).patrol = s.patrol := rfl
@[simp] theorem State.accessWrite_replies (s : State) (r : Reg) (u i j v m : Nat) : (s.accessWrite r u i j v m).replies = s.replies := rfl
@[simp] theorem State.accessWrite_epochs (s : State) (r : Reg) (u i j v m : Nat) : (s.accessWrite r u i j v m).epochs = s.epochs := rfl
@[simp] theorem State.accessWrite_evr (s : State) (r : Reg) (u i j v m : Nat) : (s.accessWrite r u i j v m).evr = s.evr := rfl
@[simp] theorem State.accessWrite_links (s : State) (r : Reg) (u i j v m : Nat) : (s.accessWrite r u i j v m).links = s.links := rfl
@[simp] theorem State.accessWrite_lok (s : State) (r : Reg) (u i j v m : Nat) : (s.accessWrite r u i j v m).lok = s.lok := rfl
@[simp] theorem State.accessWrite_keys (s : State) (r : Reg) (u i j v m : Nat) : (s.accessWrite r u i j v m).keys = s.keys := rfl
@[simp] theorem State.accessWrite_left (s : State) (r : Reg) (u i j v m : Nat) : (s.accessWrite r u i j v m).left = s.left := rfl
@[simp] theorem State.accessWrite_notices (s : State) (r : Reg) (u i j v m : Nat) : (s.accessWrite r u i j v m).notices = s.notices := rfl
@[simp] theorem State.accessWrite_pcie (s : State) (r : Reg) (u i j v m : Nat) : (s.accessWrite r u i j v m).pcie = s.pcie := rfl
@[simp] theorem State.accessWrite_bar0 (s : State) (r : Reg) (u i j v m : Nat) : (s.accessWrite r u i j v m).bar0 = s.bar0 := rfl
@[simp] theorem State.accessWrite_chans (s : State) (r : Reg) (u i j v m : Nat) : (s.accessWrite r u i j v m).chans = s.chans := rfl
@[simp] theorem State.accessWrite_upd (s : State) (r : Reg) (u i j v m : Nat) : (s.accessWrite r u i j v m).upd = s.upd := rfl
@[simp] theorem State.accessWrite_redIn (s : State) (r : Reg) (u i j v m : Nat) : (s.accessWrite r u i j v m).redIn = s.redIn := rfl
@[simp] theorem State.accessWrite_relays (s : State) (r : Reg) (u i j v m : Nat) : (s.accessWrite r u i j v m).relays = s.relays := rfl
@[simp] theorem State.accessWrite_rr (s : State) (r : Reg) (u i j v m : Nat) : (s.accessWrite r u i j v m).rr = s.rr := rfl
@[simp] theorem State.accessWrite_hostOut (s : State) (r : Reg) (u i j v m : Nat) : (s.accessWrite r u i j v m).hostOut = s.hostOut := rfl
@[simp] theorem State.accessWrite_resetDue (s : State) (r : Reg) (u i j v m : Nat) : (s.accessWrite r u i j v m).resetDue = s.resetDue := rfl
@[simp] theorem State.accessWrite_resume (s : State) (r : Reg) (u i j v m : Nat) : (s.accessWrite r u i j v m).resume = s.resume := rfl
@[simp] theorem State.accessWrite_incarnation (s : State) (r : Reg) (u i j v m : Nat) : (s.accessWrite r u i j v m).incarnation = s.incarnation := rfl
@[simp] theorem State.accessWrite_mbx (s : State) (r : Reg) (u i j v m : Nat) : (s.accessWrite r u i j v m).mbx = s.mbx := rfl
@[simp] theorem State.accessWrite_sys (s : State) (r : Reg) (u i j v m : Nat) : (s.accessWrite r u i j v m).sys = s.sys := rfl
@[simp] theorem State.accessWrite_rot (s : State) (r : Reg) (u i j v m : Nat) : (s.accessWrite r u i j v m).rot = s.rot := rfl
@[simp] theorem State.accessWrite_pwr (s : State) (r : Reg) (u i j v m : Nat) : (s.accessWrite r u i j v m).pwr = s.pwr := rfl
@[simp] theorem State.accessWrite_tap (s : State) (r : Reg) (u i j v m : Nat) : (s.accessWrite r u i j v m).tap = s.tap := rfl
@[simp] theorem State.accessWrite_tick (s : State) (r : Reg) (u i j v m : Nat) : (s.accessWrite r u i j v m).tick = s.tick := rfl
@[simp] theorem State.accessWrite_opens (s : State) (r : Reg) (u i j v m : Nat) : (s.accessWrite r u i j v m).opens = s.opens := rfl
@[simp] theorem State.accessWrite_pending (s : State) (r : Reg) (u i j v m : Nat) : (s.accessWrite r u i j v m).pending = s.pending := rfl

/-! ### setCl -/

@[simp] theorem State.setCl_regs (s : State) (c : Nat) (x : Cluster) : (s.setCl c x).regs = s.regs := rfl
@[simp] theorem State.setCl_mem (s : State) (c : Nat) (x : Cluster) : (s.setCl c x).mem = s.mem := rfl
@[simp] theorem State.setCl_ecc (s : State) (c : Nat) (x : Cluster) : (s.setCl c x).ecc = s.ecc := rfl
@[simp] theorem State.setCl_hbmq (s : State) (c : Nat) (x : Cluster) : (s.setCl c x).hbmq = s.hbmq := rfl
@[simp] theorem State.setCl_patrol (s : State) (c : Nat) (x : Cluster) : (s.setCl c x).patrol = s.patrol := rfl
@[simp] theorem State.setCl_replies (s : State) (c : Nat) (x : Cluster) : (s.setCl c x).replies = s.replies := rfl
@[simp] theorem State.setCl_epochs (s : State) (c : Nat) (x : Cluster) : (s.setCl c x).epochs = s.epochs := rfl
@[simp] theorem State.setCl_evr (s : State) (c : Nat) (x : Cluster) : (s.setCl c x).evr = s.evr := rfl
@[simp] theorem State.setCl_links (s : State) (c : Nat) (x : Cluster) : (s.setCl c x).links = s.links := rfl
@[simp] theorem State.setCl_lok (s : State) (c : Nat) (x : Cluster) : (s.setCl c x).lok = s.lok := rfl
@[simp] theorem State.setCl_keys (s : State) (c : Nat) (x : Cluster) : (s.setCl c x).keys = s.keys := rfl
@[simp] theorem State.setCl_left (s : State) (c : Nat) (x : Cluster) : (s.setCl c x).left = s.left := rfl
@[simp] theorem State.setCl_notices (s : State) (c : Nat) (x : Cluster) : (s.setCl c x).notices = s.notices := rfl
@[simp] theorem State.setCl_pcie (s : State) (c : Nat) (x : Cluster) : (s.setCl c x).pcie = s.pcie := rfl
@[simp] theorem State.setCl_bar0 (s : State) (c : Nat) (x : Cluster) : (s.setCl c x).bar0 = s.bar0 := rfl
@[simp] theorem State.setCl_chans (s : State) (c : Nat) (x : Cluster) : (s.setCl c x).chans = s.chans := rfl
@[simp] theorem State.setCl_upd (s : State) (c : Nat) (x : Cluster) : (s.setCl c x).upd = s.upd := rfl
@[simp] theorem State.setCl_redIn (s : State) (c : Nat) (x : Cluster) : (s.setCl c x).redIn = s.redIn := rfl
@[simp] theorem State.setCl_relays (s : State) (c : Nat) (x : Cluster) : (s.setCl c x).relays = s.relays := rfl
@[simp] theorem State.setCl_rr (s : State) (c : Nat) (x : Cluster) : (s.setCl c x).rr = s.rr := rfl
@[simp] theorem State.setCl_hostOut (s : State) (c : Nat) (x : Cluster) : (s.setCl c x).hostOut = s.hostOut := rfl
@[simp] theorem State.setCl_resetDue (s : State) (c : Nat) (x : Cluster) : (s.setCl c x).resetDue = s.resetDue := rfl
@[simp] theorem State.setCl_resume (s : State) (c : Nat) (x : Cluster) : (s.setCl c x).resume = s.resume := rfl
@[simp] theorem State.setCl_incarnation (s : State) (c : Nat) (x : Cluster) : (s.setCl c x).incarnation = s.incarnation := rfl
@[simp] theorem State.setCl_mbx (s : State) (c : Nat) (x : Cluster) : (s.setCl c x).mbx = s.mbx := rfl
@[simp] theorem State.setCl_sys (s : State) (c : Nat) (x : Cluster) : (s.setCl c x).sys = s.sys := rfl
@[simp] theorem State.setCl_rot (s : State) (c : Nat) (x : Cluster) : (s.setCl c x).rot = s.rot := rfl
@[simp] theorem State.setCl_pwr (s : State) (c : Nat) (x : Cluster) : (s.setCl c x).pwr = s.pwr := rfl
@[simp] theorem State.setCl_tap (s : State) (c : Nat) (x : Cluster) : (s.setCl c x).tap = s.tap := rfl
@[simp] theorem State.setCl_tick (s : State) (c : Nat) (x : Cluster) : (s.setCl c x).tick = s.tick := rfl
@[simp] theorem State.setCl_opens (s : State) (c : Nat) (x : Cluster) : (s.setCl c x).opens = s.opens := rfl
@[simp] theorem State.setCl_pending (s : State) (c : Nat) (x : Cluster) : (s.setCl c x).pending = s.pending := rfl

/-! ### modCl -/

@[simp] theorem State.modCl_regs (s : State) (c : Nat) (f : Cluster → Cluster) : (s.modCl c f).regs = s.regs := rfl
@[simp] theorem State.modCl_mem (s : State) (c : Nat) (f : Cluster → Cluster) : (s.modCl c f).mem = s.mem := rfl
@[simp] theorem State.modCl_ecc (s : State) (c : Nat) (f : Cluster → Cluster) : (s.modCl c f).ecc = s.ecc := rfl
@[simp] theorem State.modCl_hbmq (s : State) (c : Nat) (f : Cluster → Cluster) : (s.modCl c f).hbmq = s.hbmq := rfl
@[simp] theorem State.modCl_patrol (s : State) (c : Nat) (f : Cluster → Cluster) : (s.modCl c f).patrol = s.patrol := rfl
@[simp] theorem State.modCl_replies (s : State) (c : Nat) (f : Cluster → Cluster) : (s.modCl c f).replies = s.replies := rfl
@[simp] theorem State.modCl_epochs (s : State) (c : Nat) (f : Cluster → Cluster) : (s.modCl c f).epochs = s.epochs := rfl
@[simp] theorem State.modCl_evr (s : State) (c : Nat) (f : Cluster → Cluster) : (s.modCl c f).evr = s.evr := rfl
@[simp] theorem State.modCl_links (s : State) (c : Nat) (f : Cluster → Cluster) : (s.modCl c f).links = s.links := rfl
@[simp] theorem State.modCl_lok (s : State) (c : Nat) (f : Cluster → Cluster) : (s.modCl c f).lok = s.lok := rfl
@[simp] theorem State.modCl_keys (s : State) (c : Nat) (f : Cluster → Cluster) : (s.modCl c f).keys = s.keys := rfl
@[simp] theorem State.modCl_left (s : State) (c : Nat) (f : Cluster → Cluster) : (s.modCl c f).left = s.left := rfl
@[simp] theorem State.modCl_notices (s : State) (c : Nat) (f : Cluster → Cluster) : (s.modCl c f).notices = s.notices := rfl
@[simp] theorem State.modCl_pcie (s : State) (c : Nat) (f : Cluster → Cluster) : (s.modCl c f).pcie = s.pcie := rfl
@[simp] theorem State.modCl_bar0 (s : State) (c : Nat) (f : Cluster → Cluster) : (s.modCl c f).bar0 = s.bar0 := rfl
@[simp] theorem State.modCl_chans (s : State) (c : Nat) (f : Cluster → Cluster) : (s.modCl c f).chans = s.chans := rfl
@[simp] theorem State.modCl_upd (s : State) (c : Nat) (f : Cluster → Cluster) : (s.modCl c f).upd = s.upd := rfl
@[simp] theorem State.modCl_redIn (s : State) (c : Nat) (f : Cluster → Cluster) : (s.modCl c f).redIn = s.redIn := rfl
@[simp] theorem State.modCl_relays (s : State) (c : Nat) (f : Cluster → Cluster) : (s.modCl c f).relays = s.relays := rfl
@[simp] theorem State.modCl_rr (s : State) (c : Nat) (f : Cluster → Cluster) : (s.modCl c f).rr = s.rr := rfl
@[simp] theorem State.modCl_hostOut (s : State) (c : Nat) (f : Cluster → Cluster) : (s.modCl c f).hostOut = s.hostOut := rfl
@[simp] theorem State.modCl_resetDue (s : State) (c : Nat) (f : Cluster → Cluster) : (s.modCl c f).resetDue = s.resetDue := rfl
@[simp] theorem State.modCl_resume (s : State) (c : Nat) (f : Cluster → Cluster) : (s.modCl c f).resume = s.resume := rfl
@[simp] theorem State.modCl_incarnation (s : State) (c : Nat) (f : Cluster → Cluster) : (s.modCl c f).incarnation = s.incarnation := rfl
@[simp] theorem State.modCl_mbx (s : State) (c : Nat) (f : Cluster → Cluster) : (s.modCl c f).mbx = s.mbx := rfl
@[simp] theorem State.modCl_sys (s : State) (c : Nat) (f : Cluster → Cluster) : (s.modCl c f).sys = s.sys := rfl
@[simp] theorem State.modCl_rot (s : State) (c : Nat) (f : Cluster → Cluster) : (s.modCl c f).rot = s.rot := rfl
@[simp] theorem State.modCl_pwr (s : State) (c : Nat) (f : Cluster → Cluster) : (s.modCl c f).pwr = s.pwr := rfl
@[simp] theorem State.modCl_tap (s : State) (c : Nat) (f : Cluster → Cluster) : (s.modCl c f).tap = s.tap := rfl
@[simp] theorem State.modCl_tick (s : State) (c : Nat) (f : Cluster → Cluster) : (s.modCl c f).tick = s.tick := rfl
@[simp] theorem State.modCl_opens (s : State) (c : Nat) (f : Cluster → Cluster) : (s.modCl c f).opens = s.opens := rfl
@[simp] theorem State.modCl_pending (s : State) (c : Nat) (f : Cluster → Cluster) : (s.modCl c f).pending = s.pending := rfl

/-! ### modCore -/

@[simp] theorem State.modCore_regs (s : State) (c : Nat) (f : Sys2Proof.Machine.Core → Sys2Proof.Machine.Core) : (s.modCore c f).regs = s.regs := rfl
@[simp] theorem State.modCore_mem (s : State) (c : Nat) (f : Sys2Proof.Machine.Core → Sys2Proof.Machine.Core) : (s.modCore c f).mem = s.mem := rfl
@[simp] theorem State.modCore_ecc (s : State) (c : Nat) (f : Sys2Proof.Machine.Core → Sys2Proof.Machine.Core) : (s.modCore c f).ecc = s.ecc := rfl
@[simp] theorem State.modCore_hbmq (s : State) (c : Nat) (f : Sys2Proof.Machine.Core → Sys2Proof.Machine.Core) : (s.modCore c f).hbmq = s.hbmq := rfl
@[simp] theorem State.modCore_patrol (s : State) (c : Nat) (f : Sys2Proof.Machine.Core → Sys2Proof.Machine.Core) : (s.modCore c f).patrol = s.patrol := rfl
@[simp] theorem State.modCore_replies (s : State) (c : Nat) (f : Sys2Proof.Machine.Core → Sys2Proof.Machine.Core) : (s.modCore c f).replies = s.replies := rfl
@[simp] theorem State.modCore_epochs (s : State) (c : Nat) (f : Sys2Proof.Machine.Core → Sys2Proof.Machine.Core) : (s.modCore c f).epochs = s.epochs := rfl
@[simp] theorem State.modCore_evr (s : State) (c : Nat) (f : Sys2Proof.Machine.Core → Sys2Proof.Machine.Core) : (s.modCore c f).evr = s.evr := rfl
@[simp] theorem State.modCore_links (s : State) (c : Nat) (f : Sys2Proof.Machine.Core → Sys2Proof.Machine.Core) : (s.modCore c f).links = s.links := rfl
@[simp] theorem State.modCore_lok (s : State) (c : Nat) (f : Sys2Proof.Machine.Core → Sys2Proof.Machine.Core) : (s.modCore c f).lok = s.lok := rfl
@[simp] theorem State.modCore_keys (s : State) (c : Nat) (f : Sys2Proof.Machine.Core → Sys2Proof.Machine.Core) : (s.modCore c f).keys = s.keys := rfl
@[simp] theorem State.modCore_left (s : State) (c : Nat) (f : Sys2Proof.Machine.Core → Sys2Proof.Machine.Core) : (s.modCore c f).left = s.left := rfl
@[simp] theorem State.modCore_notices (s : State) (c : Nat) (f : Sys2Proof.Machine.Core → Sys2Proof.Machine.Core) : (s.modCore c f).notices = s.notices := rfl
@[simp] theorem State.modCore_pcie (s : State) (c : Nat) (f : Sys2Proof.Machine.Core → Sys2Proof.Machine.Core) : (s.modCore c f).pcie = s.pcie := rfl
@[simp] theorem State.modCore_bar0 (s : State) (c : Nat) (f : Sys2Proof.Machine.Core → Sys2Proof.Machine.Core) : (s.modCore c f).bar0 = s.bar0 := rfl
@[simp] theorem State.modCore_chans (s : State) (c : Nat) (f : Sys2Proof.Machine.Core → Sys2Proof.Machine.Core) : (s.modCore c f).chans = s.chans := rfl
@[simp] theorem State.modCore_upd (s : State) (c : Nat) (f : Sys2Proof.Machine.Core → Sys2Proof.Machine.Core) : (s.modCore c f).upd = s.upd := rfl
@[simp] theorem State.modCore_redIn (s : State) (c : Nat) (f : Sys2Proof.Machine.Core → Sys2Proof.Machine.Core) : (s.modCore c f).redIn = s.redIn := rfl
@[simp] theorem State.modCore_relays (s : State) (c : Nat) (f : Sys2Proof.Machine.Core → Sys2Proof.Machine.Core) : (s.modCore c f).relays = s.relays := rfl
@[simp] theorem State.modCore_rr (s : State) (c : Nat) (f : Sys2Proof.Machine.Core → Sys2Proof.Machine.Core) : (s.modCore c f).rr = s.rr := rfl
@[simp] theorem State.modCore_hostOut (s : State) (c : Nat) (f : Sys2Proof.Machine.Core → Sys2Proof.Machine.Core) : (s.modCore c f).hostOut = s.hostOut := rfl
@[simp] theorem State.modCore_resetDue (s : State) (c : Nat) (f : Sys2Proof.Machine.Core → Sys2Proof.Machine.Core) : (s.modCore c f).resetDue = s.resetDue := rfl
@[simp] theorem State.modCore_resume (s : State) (c : Nat) (f : Sys2Proof.Machine.Core → Sys2Proof.Machine.Core) : (s.modCore c f).resume = s.resume := rfl
@[simp] theorem State.modCore_incarnation (s : State) (c : Nat) (f : Sys2Proof.Machine.Core → Sys2Proof.Machine.Core) : (s.modCore c f).incarnation = s.incarnation := rfl
@[simp] theorem State.modCore_mbx (s : State) (c : Nat) (f : Sys2Proof.Machine.Core → Sys2Proof.Machine.Core) : (s.modCore c f).mbx = s.mbx := rfl
@[simp] theorem State.modCore_sys (s : State) (c : Nat) (f : Sys2Proof.Machine.Core → Sys2Proof.Machine.Core) : (s.modCore c f).sys = s.sys := rfl
@[simp] theorem State.modCore_rot (s : State) (c : Nat) (f : Sys2Proof.Machine.Core → Sys2Proof.Machine.Core) : (s.modCore c f).rot = s.rot := rfl
@[simp] theorem State.modCore_pwr (s : State) (c : Nat) (f : Sys2Proof.Machine.Core → Sys2Proof.Machine.Core) : (s.modCore c f).pwr = s.pwr := rfl
@[simp] theorem State.modCore_tap (s : State) (c : Nat) (f : Sys2Proof.Machine.Core → Sys2Proof.Machine.Core) : (s.modCore c f).tap = s.tap := rfl
@[simp] theorem State.modCore_tick (s : State) (c : Nat) (f : Sys2Proof.Machine.Core → Sys2Proof.Machine.Core) : (s.modCore c f).tick = s.tick := rfl
@[simp] theorem State.modCore_opens (s : State) (c : Nat) (f : Sys2Proof.Machine.Core → Sys2Proof.Machine.Core) : (s.modCore c f).opens = s.opens := rfl
@[simp] theorem State.modCore_pending (s : State) (c : Nat) (f : Sys2Proof.Machine.Core → Sys2Proof.Machine.Core) : (s.modCore c f).pending = s.pending := rfl

/-! ### modEng -/

@[simp] theorem State.modEng_regs (s : State) (c : Nat) (f : Engine → Engine) : (s.modEng c f).regs = s.regs := rfl
@[simp] theorem State.modEng_mem (s : State) (c : Nat) (f : Engine → Engine) : (s.modEng c f).mem = s.mem := rfl
@[simp] theorem State.modEng_ecc (s : State) (c : Nat) (f : Engine → Engine) : (s.modEng c f).ecc = s.ecc := rfl
@[simp] theorem State.modEng_hbmq (s : State) (c : Nat) (f : Engine → Engine) : (s.modEng c f).hbmq = s.hbmq := rfl
@[simp] theorem State.modEng_patrol (s : State) (c : Nat) (f : Engine → Engine) : (s.modEng c f).patrol = s.patrol := rfl
@[simp] theorem State.modEng_replies (s : State) (c : Nat) (f : Engine → Engine) : (s.modEng c f).replies = s.replies := rfl
@[simp] theorem State.modEng_epochs (s : State) (c : Nat) (f : Engine → Engine) : (s.modEng c f).epochs = s.epochs := rfl
@[simp] theorem State.modEng_evr (s : State) (c : Nat) (f : Engine → Engine) : (s.modEng c f).evr = s.evr := rfl
@[simp] theorem State.modEng_links (s : State) (c : Nat) (f : Engine → Engine) : (s.modEng c f).links = s.links := rfl
@[simp] theorem State.modEng_lok (s : State) (c : Nat) (f : Engine → Engine) : (s.modEng c f).lok = s.lok := rfl
@[simp] theorem State.modEng_keys (s : State) (c : Nat) (f : Engine → Engine) : (s.modEng c f).keys = s.keys := rfl
@[simp] theorem State.modEng_left (s : State) (c : Nat) (f : Engine → Engine) : (s.modEng c f).left = s.left := rfl
@[simp] theorem State.modEng_notices (s : State) (c : Nat) (f : Engine → Engine) : (s.modEng c f).notices = s.notices := rfl
@[simp] theorem State.modEng_pcie (s : State) (c : Nat) (f : Engine → Engine) : (s.modEng c f).pcie = s.pcie := rfl
@[simp] theorem State.modEng_bar0 (s : State) (c : Nat) (f : Engine → Engine) : (s.modEng c f).bar0 = s.bar0 := rfl
@[simp] theorem State.modEng_chans (s : State) (c : Nat) (f : Engine → Engine) : (s.modEng c f).chans = s.chans := rfl
@[simp] theorem State.modEng_upd (s : State) (c : Nat) (f : Engine → Engine) : (s.modEng c f).upd = s.upd := rfl
@[simp] theorem State.modEng_redIn (s : State) (c : Nat) (f : Engine → Engine) : (s.modEng c f).redIn = s.redIn := rfl
@[simp] theorem State.modEng_relays (s : State) (c : Nat) (f : Engine → Engine) : (s.modEng c f).relays = s.relays := rfl
@[simp] theorem State.modEng_rr (s : State) (c : Nat) (f : Engine → Engine) : (s.modEng c f).rr = s.rr := rfl
@[simp] theorem State.modEng_hostOut (s : State) (c : Nat) (f : Engine → Engine) : (s.modEng c f).hostOut = s.hostOut := rfl
@[simp] theorem State.modEng_resetDue (s : State) (c : Nat) (f : Engine → Engine) : (s.modEng c f).resetDue = s.resetDue := rfl
@[simp] theorem State.modEng_resume (s : State) (c : Nat) (f : Engine → Engine) : (s.modEng c f).resume = s.resume := rfl
@[simp] theorem State.modEng_incarnation (s : State) (c : Nat) (f : Engine → Engine) : (s.modEng c f).incarnation = s.incarnation := rfl
@[simp] theorem State.modEng_mbx (s : State) (c : Nat) (f : Engine → Engine) : (s.modEng c f).mbx = s.mbx := rfl
@[simp] theorem State.modEng_sys (s : State) (c : Nat) (f : Engine → Engine) : (s.modEng c f).sys = s.sys := rfl
@[simp] theorem State.modEng_rot (s : State) (c : Nat) (f : Engine → Engine) : (s.modEng c f).rot = s.rot := rfl
@[simp] theorem State.modEng_pwr (s : State) (c : Nat) (f : Engine → Engine) : (s.modEng c f).pwr = s.pwr := rfl
@[simp] theorem State.modEng_tap (s : State) (c : Nat) (f : Engine → Engine) : (s.modEng c f).tap = s.tap := rfl
@[simp] theorem State.modEng_tick (s : State) (c : Nat) (f : Engine → Engine) : (s.modEng c f).tick = s.tick := rfl
@[simp] theorem State.modEng_opens (s : State) (c : Nat) (f : Engine → Engine) : (s.modEng c f).opens = s.opens := rfl
@[simp] theorem State.modEng_pending (s : State) (c : Nat) (f : Engine → Engine) : (s.modEng c f).pending = s.pending := rfl

/-! ### modQ -/

@[simp] theorem State.modQ_regs (s : State) (c k : Nat) (f : StrQ → StrQ) : (s.modQ c k f).regs = s.regs := rfl
@[simp] theorem State.modQ_mem (s : State) (c k : Nat) (f : StrQ → StrQ) : (s.modQ c k f).mem = s.mem := rfl
@[simp] theorem State.modQ_ecc (s : State) (c k : Nat) (f : StrQ → StrQ) : (s.modQ c k f).ecc = s.ecc := rfl
@[simp] theorem State.modQ_hbmq (s : State) (c k : Nat) (f : StrQ → StrQ) : (s.modQ c k f).hbmq = s.hbmq := rfl
@[simp] theorem State.modQ_patrol (s : State) (c k : Nat) (f : StrQ → StrQ) : (s.modQ c k f).patrol = s.patrol := rfl
@[simp] theorem State.modQ_replies (s : State) (c k : Nat) (f : StrQ → StrQ) : (s.modQ c k f).replies = s.replies := rfl
@[simp] theorem State.modQ_epochs (s : State) (c k : Nat) (f : StrQ → StrQ) : (s.modQ c k f).epochs = s.epochs := rfl
@[simp] theorem State.modQ_evr (s : State) (c k : Nat) (f : StrQ → StrQ) : (s.modQ c k f).evr = s.evr := rfl
@[simp] theorem State.modQ_links (s : State) (c k : Nat) (f : StrQ → StrQ) : (s.modQ c k f).links = s.links := rfl
@[simp] theorem State.modQ_lok (s : State) (c k : Nat) (f : StrQ → StrQ) : (s.modQ c k f).lok = s.lok := rfl
@[simp] theorem State.modQ_keys (s : State) (c k : Nat) (f : StrQ → StrQ) : (s.modQ c k f).keys = s.keys := rfl
@[simp] theorem State.modQ_left (s : State) (c k : Nat) (f : StrQ → StrQ) : (s.modQ c k f).left = s.left := rfl
@[simp] theorem State.modQ_notices (s : State) (c k : Nat) (f : StrQ → StrQ) : (s.modQ c k f).notices = s.notices := rfl
@[simp] theorem State.modQ_pcie (s : State) (c k : Nat) (f : StrQ → StrQ) : (s.modQ c k f).pcie = s.pcie := rfl
@[simp] theorem State.modQ_bar0 (s : State) (c k : Nat) (f : StrQ → StrQ) : (s.modQ c k f).bar0 = s.bar0 := rfl
@[simp] theorem State.modQ_chans (s : State) (c k : Nat) (f : StrQ → StrQ) : (s.modQ c k f).chans = s.chans := rfl
@[simp] theorem State.modQ_upd (s : State) (c k : Nat) (f : StrQ → StrQ) : (s.modQ c k f).upd = s.upd := rfl
@[simp] theorem State.modQ_redIn (s : State) (c k : Nat) (f : StrQ → StrQ) : (s.modQ c k f).redIn = s.redIn := rfl
@[simp] theorem State.modQ_relays (s : State) (c k : Nat) (f : StrQ → StrQ) : (s.modQ c k f).relays = s.relays := rfl
@[simp] theorem State.modQ_rr (s : State) (c k : Nat) (f : StrQ → StrQ) : (s.modQ c k f).rr = s.rr := rfl
@[simp] theorem State.modQ_hostOut (s : State) (c k : Nat) (f : StrQ → StrQ) : (s.modQ c k f).hostOut = s.hostOut := rfl
@[simp] theorem State.modQ_resetDue (s : State) (c k : Nat) (f : StrQ → StrQ) : (s.modQ c k f).resetDue = s.resetDue := rfl
@[simp] theorem State.modQ_resume (s : State) (c k : Nat) (f : StrQ → StrQ) : (s.modQ c k f).resume = s.resume := rfl
@[simp] theorem State.modQ_incarnation (s : State) (c k : Nat) (f : StrQ → StrQ) : (s.modQ c k f).incarnation = s.incarnation := rfl
@[simp] theorem State.modQ_mbx (s : State) (c k : Nat) (f : StrQ → StrQ) : (s.modQ c k f).mbx = s.mbx := rfl
@[simp] theorem State.modQ_sys (s : State) (c k : Nat) (f : StrQ → StrQ) : (s.modQ c k f).sys = s.sys := rfl
@[simp] theorem State.modQ_rot (s : State) (c k : Nat) (f : StrQ → StrQ) : (s.modQ c k f).rot = s.rot := rfl
@[simp] theorem State.modQ_pwr (s : State) (c k : Nat) (f : StrQ → StrQ) : (s.modQ c k f).pwr = s.pwr := rfl
@[simp] theorem State.modQ_tap (s : State) (c k : Nat) (f : StrQ → StrQ) : (s.modQ c k f).tap = s.tap := rfl
@[simp] theorem State.modQ_tick (s : State) (c k : Nat) (f : StrQ → StrQ) : (s.modQ c k f).tick = s.tick := rfl
@[simp] theorem State.modQ_opens (s : State) (c k : Nat) (f : StrQ → StrQ) : (s.modQ c k f).opens = s.opens := rfl
@[simp] theorem State.modQ_pending (s : State) (c k : Nat) (f : StrQ → StrQ) : (s.modQ c k f).pending = s.pending := rfl

/-! ### raise -/

@[simp] theorem State.raise_regs (s : State) (e : Event) : (s.raise e).regs = s.regs := rfl
@[simp] theorem State.raise_mem (s : State) (e : Event) : (s.raise e).mem = s.mem := rfl
@[simp] theorem State.raise_ecc (s : State) (e : Event) : (s.raise e).ecc = s.ecc := rfl
@[simp] theorem State.raise_clu (s : State) (e : Event) : (s.raise e).clu = s.clu := rfl
@[simp] theorem State.raise_hbmq (s : State) (e : Event) : (s.raise e).hbmq = s.hbmq := rfl
@[simp] theorem State.raise_patrol (s : State) (e : Event) : (s.raise e).patrol = s.patrol := rfl
@[simp] theorem State.raise_replies (s : State) (e : Event) : (s.raise e).replies = s.replies := rfl
@[simp] theorem State.raise_epochs (s : State) (e : Event) : (s.raise e).epochs = s.epochs := rfl
@[simp] theorem State.raise_links (s : State) (e : Event) : (s.raise e).links = s.links := rfl
@[simp] theorem State.raise_lok (s : State) (e : Event) : (s.raise e).lok = s.lok := rfl
@[simp] theorem State.raise_keys (s : State) (e : Event) : (s.raise e).keys = s.keys := rfl
@[simp] theorem State.raise_left (s : State) (e : Event) : (s.raise e).left = s.left := rfl
@[simp] theorem State.raise_notices (s : State) (e : Event) : (s.raise e).notices = s.notices := rfl
@[simp] theorem State.raise_pcie (s : State) (e : Event) : (s.raise e).pcie = s.pcie := rfl
@[simp] theorem State.raise_bar0 (s : State) (e : Event) : (s.raise e).bar0 = s.bar0 := rfl
@[simp] theorem State.raise_chans (s : State) (e : Event) : (s.raise e).chans = s.chans := rfl
@[simp] theorem State.raise_upd (s : State) (e : Event) : (s.raise e).upd = s.upd := rfl
@[simp] theorem State.raise_redIn (s : State) (e : Event) : (s.raise e).redIn = s.redIn := rfl
@[simp] theorem State.raise_relays (s : State) (e : Event) : (s.raise e).relays = s.relays := rfl
@[simp] theorem State.raise_rr (s : State) (e : Event) : (s.raise e).rr = s.rr := rfl
@[simp] theorem State.raise_hostOut (s : State) (e : Event) : (s.raise e).hostOut = s.hostOut := rfl
@[simp] theorem State.raise_resetDue (s : State) (e : Event) : (s.raise e).resetDue = s.resetDue := rfl
@[simp] theorem State.raise_resume (s : State) (e : Event) : (s.raise e).resume = s.resume := rfl
@[simp] theorem State.raise_incarnation (s : State) (e : Event) : (s.raise e).incarnation = s.incarnation := rfl
@[simp] theorem State.raise_mbx (s : State) (e : Event) : (s.raise e).mbx = s.mbx := rfl
@[simp] theorem State.raise_sys (s : State) (e : Event) : (s.raise e).sys = s.sys := rfl
@[simp] theorem State.raise_rot (s : State) (e : Event) : (s.raise e).rot = s.rot := rfl
@[simp] theorem State.raise_pwr (s : State) (e : Event) : (s.raise e).pwr = s.pwr := rfl
@[simp] theorem State.raise_tap (s : State) (e : Event) : (s.raise e).tap = s.tap := rfl
@[simp] theorem State.raise_tick (s : State) (e : Event) : (s.raise e).tick = s.tick := rfl
@[simp] theorem State.raise_opens (s : State) (e : Event) : (s.raise e).opens = s.opens := rfl
@[simp] theorem State.raise_pending (s : State) (e : Event) : (s.raise e).pending = s.pending := rfl

/-! ### event -/

@[simp] theorem State.event_regs (s : State) (code unit part detail : Nat) : (s.event code unit part detail).regs = s.regs := rfl
@[simp] theorem State.event_mem (s : State) (code unit part detail : Nat) : (s.event code unit part detail).mem = s.mem := rfl
@[simp] theorem State.event_ecc (s : State) (code unit part detail : Nat) : (s.event code unit part detail).ecc = s.ecc := rfl
@[simp] theorem State.event_clu (s : State) (code unit part detail : Nat) : (s.event code unit part detail).clu = s.clu := rfl
@[simp] theorem State.event_hbmq (s : State) (code unit part detail : Nat) : (s.event code unit part detail).hbmq = s.hbmq := rfl
@[simp] theorem State.event_patrol (s : State) (code unit part detail : Nat) : (s.event code unit part detail).patrol = s.patrol := rfl
@[simp] theorem State.event_replies (s : State) (code unit part detail : Nat) : (s.event code unit part detail).replies = s.replies := rfl
@[simp] theorem State.event_epochs (s : State) (code unit part detail : Nat) : (s.event code unit part detail).epochs = s.epochs := rfl
@[simp] theorem State.event_links (s : State) (code unit part detail : Nat) : (s.event code unit part detail).links = s.links := rfl
@[simp] theorem State.event_lok (s : State) (code unit part detail : Nat) : (s.event code unit part detail).lok = s.lok := rfl
@[simp] theorem State.event_keys (s : State) (code unit part detail : Nat) : (s.event code unit part detail).keys = s.keys := rfl
@[simp] theorem State.event_left (s : State) (code unit part detail : Nat) : (s.event code unit part detail).left = s.left := rfl
@[simp] theorem State.event_notices (s : State) (code unit part detail : Nat) : (s.event code unit part detail).notices = s.notices := rfl
@[simp] theorem State.event_pcie (s : State) (code unit part detail : Nat) : (s.event code unit part detail).pcie = s.pcie := rfl
@[simp] theorem State.event_bar0 (s : State) (code unit part detail : Nat) : (s.event code unit part detail).bar0 = s.bar0 := rfl
@[simp] theorem State.event_chans (s : State) (code unit part detail : Nat) : (s.event code unit part detail).chans = s.chans := rfl
@[simp] theorem State.event_upd (s : State) (code unit part detail : Nat) : (s.event code unit part detail).upd = s.upd := rfl
@[simp] theorem State.event_redIn (s : State) (code unit part detail : Nat) : (s.event code unit part detail).redIn = s.redIn := rfl
@[simp] theorem State.event_relays (s : State) (code unit part detail : Nat) : (s.event code unit part detail).relays = s.relays := rfl
@[simp] theorem State.event_rr (s : State) (code unit part detail : Nat) : (s.event code unit part detail).rr = s.rr := rfl
@[simp] theorem State.event_hostOut (s : State) (code unit part detail : Nat) : (s.event code unit part detail).hostOut = s.hostOut := rfl
@[simp] theorem State.event_resetDue (s : State) (code unit part detail : Nat) : (s.event code unit part detail).resetDue = s.resetDue := rfl
@[simp] theorem State.event_resume (s : State) (code unit part detail : Nat) : (s.event code unit part detail).resume = s.resume := rfl
@[simp] theorem State.event_incarnation (s : State) (code unit part detail : Nat) : (s.event code unit part detail).incarnation = s.incarnation := rfl
@[simp] theorem State.event_mbx (s : State) (code unit part detail : Nat) : (s.event code unit part detail).mbx = s.mbx := rfl
@[simp] theorem State.event_sys (s : State) (code unit part detail : Nat) : (s.event code unit part detail).sys = s.sys := rfl
@[simp] theorem State.event_rot (s : State) (code unit part detail : Nat) : (s.event code unit part detail).rot = s.rot := rfl
@[simp] theorem State.event_pwr (s : State) (code unit part detail : Nat) : (s.event code unit part detail).pwr = s.pwr := rfl
@[simp] theorem State.event_tap (s : State) (code unit part detail : Nat) : (s.event code unit part detail).tap = s.tap := rfl
@[simp] theorem State.event_tick (s : State) (code unit part detail : Nat) : (s.event code unit part detail).tick = s.tick := rfl
@[simp] theorem State.event_opens (s : State) (code unit part detail : Nat) : (s.event code unit part detail).opens = s.opens := rfl
@[simp] theorem State.event_pending (s : State) (code unit part detail : Nat) : (s.event code unit part detail).pending = s.pending := rfl

/-! ### cluEvent -/

@[simp] theorem State.cluEvent_regs (s : State) (c code sub detail : Nat) : (s.cluEvent c code sub detail).regs = s.regs := rfl
@[simp] theorem State.cluEvent_mem (s : State) (c code sub detail : Nat) : (s.cluEvent c code sub detail).mem = s.mem := rfl
@[simp] theorem State.cluEvent_ecc (s : State) (c code sub detail : Nat) : (s.cluEvent c code sub detail).ecc = s.ecc := rfl
@[simp] theorem State.cluEvent_clu (s : State) (c code sub detail : Nat) : (s.cluEvent c code sub detail).clu = s.clu := rfl
@[simp] theorem State.cluEvent_hbmq (s : State) (c code sub detail : Nat) : (s.cluEvent c code sub detail).hbmq = s.hbmq := rfl
@[simp] theorem State.cluEvent_patrol (s : State) (c code sub detail : Nat) : (s.cluEvent c code sub detail).patrol = s.patrol := rfl
@[simp] theorem State.cluEvent_replies (s : State) (c code sub detail : Nat) : (s.cluEvent c code sub detail).replies = s.replies := rfl
@[simp] theorem State.cluEvent_epochs (s : State) (c code sub detail : Nat) : (s.cluEvent c code sub detail).epochs = s.epochs := rfl
@[simp] theorem State.cluEvent_links (s : State) (c code sub detail : Nat) : (s.cluEvent c code sub detail).links = s.links := rfl
@[simp] theorem State.cluEvent_lok (s : State) (c code sub detail : Nat) : (s.cluEvent c code sub detail).lok = s.lok := rfl
@[simp] theorem State.cluEvent_keys (s : State) (c code sub detail : Nat) : (s.cluEvent c code sub detail).keys = s.keys := rfl
@[simp] theorem State.cluEvent_left (s : State) (c code sub detail : Nat) : (s.cluEvent c code sub detail).left = s.left := rfl
@[simp] theorem State.cluEvent_notices (s : State) (c code sub detail : Nat) : (s.cluEvent c code sub detail).notices = s.notices := rfl
@[simp] theorem State.cluEvent_pcie (s : State) (c code sub detail : Nat) : (s.cluEvent c code sub detail).pcie = s.pcie := rfl
@[simp] theorem State.cluEvent_bar0 (s : State) (c code sub detail : Nat) : (s.cluEvent c code sub detail).bar0 = s.bar0 := rfl
@[simp] theorem State.cluEvent_chans (s : State) (c code sub detail : Nat) : (s.cluEvent c code sub detail).chans = s.chans := rfl
@[simp] theorem State.cluEvent_upd (s : State) (c code sub detail : Nat) : (s.cluEvent c code sub detail).upd = s.upd := rfl
@[simp] theorem State.cluEvent_redIn (s : State) (c code sub detail : Nat) : (s.cluEvent c code sub detail).redIn = s.redIn := rfl
@[simp] theorem State.cluEvent_relays (s : State) (c code sub detail : Nat) : (s.cluEvent c code sub detail).relays = s.relays := rfl
@[simp] theorem State.cluEvent_rr (s : State) (c code sub detail : Nat) : (s.cluEvent c code sub detail).rr = s.rr := rfl
@[simp] theorem State.cluEvent_hostOut (s : State) (c code sub detail : Nat) : (s.cluEvent c code sub detail).hostOut = s.hostOut := rfl
@[simp] theorem State.cluEvent_resetDue (s : State) (c code sub detail : Nat) : (s.cluEvent c code sub detail).resetDue = s.resetDue := rfl
@[simp] theorem State.cluEvent_resume (s : State) (c code sub detail : Nat) : (s.cluEvent c code sub detail).resume = s.resume := rfl
@[simp] theorem State.cluEvent_incarnation (s : State) (c code sub detail : Nat) : (s.cluEvent c code sub detail).incarnation = s.incarnation := rfl
@[simp] theorem State.cluEvent_mbx (s : State) (c code sub detail : Nat) : (s.cluEvent c code sub detail).mbx = s.mbx := rfl
@[simp] theorem State.cluEvent_sys (s : State) (c code sub detail : Nat) : (s.cluEvent c code sub detail).sys = s.sys := rfl
@[simp] theorem State.cluEvent_rot (s : State) (c code sub detail : Nat) : (s.cluEvent c code sub detail).rot = s.rot := rfl
@[simp] theorem State.cluEvent_pwr (s : State) (c code sub detail : Nat) : (s.cluEvent c code sub detail).pwr = s.pwr := rfl
@[simp] theorem State.cluEvent_tap (s : State) (c code sub detail : Nat) : (s.cluEvent c code sub detail).tap = s.tap := rfl
@[simp] theorem State.cluEvent_tick (s : State) (c code sub detail : Nat) : (s.cluEvent c code sub detail).tick = s.tick := rfl
@[simp] theorem State.cluEvent_opens (s : State) (c code sub detail : Nat) : (s.cluEvent c code sub detail).opens = s.opens := rfl
@[simp] theorem State.cluEvent_pending (s : State) (c code sub detail : Nat) : (s.cluEvent c code sub detail).pending = s.pending := rfl

/-! ### reply -/

@[simp] theorem State.reply_regs (s : State) (w : Who) (r : Reply) : (s.reply w r).regs = s.regs := rfl
@[simp] theorem State.reply_mem (s : State) (w : Who) (r : Reply) : (s.reply w r).mem = s.mem := rfl
@[simp] theorem State.reply_ecc (s : State) (w : Who) (r : Reply) : (s.reply w r).ecc = s.ecc := rfl
@[simp] theorem State.reply_clu (s : State) (w : Who) (r : Reply) : (s.reply w r).clu = s.clu := rfl
@[simp] theorem State.reply_hbmq (s : State) (w : Who) (r : Reply) : (s.reply w r).hbmq = s.hbmq := rfl
@[simp] theorem State.reply_patrol (s : State) (w : Who) (r : Reply) : (s.reply w r).patrol = s.patrol := rfl
@[simp] theorem State.reply_epochs (s : State) (w : Who) (r : Reply) : (s.reply w r).epochs = s.epochs := rfl
@[simp] theorem State.reply_evr (s : State) (w : Who) (r : Reply) : (s.reply w r).evr = s.evr := rfl
@[simp] theorem State.reply_links (s : State) (w : Who) (r : Reply) : (s.reply w r).links = s.links := rfl
@[simp] theorem State.reply_lok (s : State) (w : Who) (r : Reply) : (s.reply w r).lok = s.lok := rfl
@[simp] theorem State.reply_keys (s : State) (w : Who) (r : Reply) : (s.reply w r).keys = s.keys := rfl
@[simp] theorem State.reply_left (s : State) (w : Who) (r : Reply) : (s.reply w r).left = s.left := rfl
@[simp] theorem State.reply_notices (s : State) (w : Who) (r : Reply) : (s.reply w r).notices = s.notices := rfl
@[simp] theorem State.reply_pcie (s : State) (w : Who) (r : Reply) : (s.reply w r).pcie = s.pcie := rfl
@[simp] theorem State.reply_bar0 (s : State) (w : Who) (r : Reply) : (s.reply w r).bar0 = s.bar0 := rfl
@[simp] theorem State.reply_chans (s : State) (w : Who) (r : Reply) : (s.reply w r).chans = s.chans := rfl
@[simp] theorem State.reply_upd (s : State) (w : Who) (r : Reply) : (s.reply w r).upd = s.upd := rfl
@[simp] theorem State.reply_redIn (s : State) (w : Who) (r : Reply) : (s.reply w r).redIn = s.redIn := rfl
@[simp] theorem State.reply_relays (s : State) (w : Who) (r : Reply) : (s.reply w r).relays = s.relays := rfl
@[simp] theorem State.reply_rr (s : State) (w : Who) (r : Reply) : (s.reply w r).rr = s.rr := rfl
@[simp] theorem State.reply_hostOut (s : State) (w : Who) (r : Reply) : (s.reply w r).hostOut = s.hostOut := rfl
@[simp] theorem State.reply_resetDue (s : State) (w : Who) (r : Reply) : (s.reply w r).resetDue = s.resetDue := rfl
@[simp] theorem State.reply_resume (s : State) (w : Who) (r : Reply) : (s.reply w r).resume = s.resume := rfl
@[simp] theorem State.reply_incarnation (s : State) (w : Who) (r : Reply) : (s.reply w r).incarnation = s.incarnation := rfl
@[simp] theorem State.reply_mbx (s : State) (w : Who) (r : Reply) : (s.reply w r).mbx = s.mbx := rfl
@[simp] theorem State.reply_sys (s : State) (w : Who) (r : Reply) : (s.reply w r).sys = s.sys := rfl
@[simp] theorem State.reply_rot (s : State) (w : Who) (r : Reply) : (s.reply w r).rot = s.rot := rfl
@[simp] theorem State.reply_pwr (s : State) (w : Who) (r : Reply) : (s.reply w r).pwr = s.pwr := rfl
@[simp] theorem State.reply_tap (s : State) (w : Who) (r : Reply) : (s.reply w r).tap = s.tap := rfl
@[simp] theorem State.reply_tick (s : State) (w : Who) (r : Reply) : (s.reply w r).tick = s.tick := rfl
@[simp] theorem State.reply_opens (s : State) (w : Who) (r : Reply) : (s.reply w r).opens = s.opens := rfl
@[simp] theorem State.reply_pending (s : State) (w : Who) (r : Reply) : (s.reply w r).pending = s.pending := rfl

/-! ### take -/

@[simp] theorem State.take_regs (s : State) (w : Who) : (s.take w).regs = s.regs := rfl
@[simp] theorem State.take_mem (s : State) (w : Who) : (s.take w).mem = s.mem := rfl
@[simp] theorem State.take_ecc (s : State) (w : Who) : (s.take w).ecc = s.ecc := rfl
@[simp] theorem State.take_clu (s : State) (w : Who) : (s.take w).clu = s.clu := rfl
@[simp] theorem State.take_hbmq (s : State) (w : Who) : (s.take w).hbmq = s.hbmq := rfl
@[simp] theorem State.take_patrol (s : State) (w : Who) : (s.take w).patrol = s.patrol := rfl
@[simp] theorem State.take_epochs (s : State) (w : Who) : (s.take w).epochs = s.epochs := rfl
@[simp] theorem State.take_evr (s : State) (w : Who) : (s.take w).evr = s.evr := rfl
@[simp] theorem State.take_links (s : State) (w : Who) : (s.take w).links = s.links := rfl
@[simp] theorem State.take_lok (s : State) (w : Who) : (s.take w).lok = s.lok := rfl
@[simp] theorem State.take_keys (s : State) (w : Who) : (s.take w).keys = s.keys := rfl
@[simp] theorem State.take_left (s : State) (w : Who) : (s.take w).left = s.left := rfl
@[simp] theorem State.take_notices (s : State) (w : Who) : (s.take w).notices = s.notices := rfl
@[simp] theorem State.take_pcie (s : State) (w : Who) : (s.take w).pcie = s.pcie := rfl
@[simp] theorem State.take_bar0 (s : State) (w : Who) : (s.take w).bar0 = s.bar0 := rfl
@[simp] theorem State.take_chans (s : State) (w : Who) : (s.take w).chans = s.chans := rfl
@[simp] theorem State.take_upd (s : State) (w : Who) : (s.take w).upd = s.upd := rfl
@[simp] theorem State.take_redIn (s : State) (w : Who) : (s.take w).redIn = s.redIn := rfl
@[simp] theorem State.take_relays (s : State) (w : Who) : (s.take w).relays = s.relays := rfl
@[simp] theorem State.take_rr (s : State) (w : Who) : (s.take w).rr = s.rr := rfl
@[simp] theorem State.take_hostOut (s : State) (w : Who) : (s.take w).hostOut = s.hostOut := rfl
@[simp] theorem State.take_resetDue (s : State) (w : Who) : (s.take w).resetDue = s.resetDue := rfl
@[simp] theorem State.take_resume (s : State) (w : Who) : (s.take w).resume = s.resume := rfl
@[simp] theorem State.take_incarnation (s : State) (w : Who) : (s.take w).incarnation = s.incarnation := rfl
@[simp] theorem State.take_mbx (s : State) (w : Who) : (s.take w).mbx = s.mbx := rfl
@[simp] theorem State.take_sys (s : State) (w : Who) : (s.take w).sys = s.sys := rfl
@[simp] theorem State.take_rot (s : State) (w : Who) : (s.take w).rot = s.rot := rfl
@[simp] theorem State.take_pwr (s : State) (w : Who) : (s.take w).pwr = s.pwr := rfl
@[simp] theorem State.take_tap (s : State) (w : Who) : (s.take w).tap = s.tap := rfl
@[simp] theorem State.take_tick (s : State) (w : Who) : (s.take w).tick = s.tick := rfl
@[simp] theorem State.take_opens (s : State) (w : Who) : (s.take w).opens = s.opens := rfl
@[simp] theorem State.take_pending (s : State) (w : Who) : (s.take w).pending = s.pending := rfl

/-! ### Reads after updates -/

@[simp] theorem State.rreg_wreg_same (s : State) (r : Reg) (u i j v : Nat) : (s.wreg r u i j v).rreg r u i j = v % 2 ^ 64 := by
  simp [State.rreg, State.wreg]

theorem State.tfind_wreg_ne (s : State) (r : Reg) (u i j v a : Nat) (h : a ≠ r.addr u i j) :
    tfind (s.wreg r u i j v).regs a = tfind s.regs a := tfind_tset_ne _ _ _ _ _ h

theorem State.tfind_put_ne (s : State) (f : Fld) (u v i j a : Nat) (h : a ≠ f.reg.addr u i j) :
    tfind (s.put f u v i j).regs a = tfind s.regs a := State.tfind_wreg_ne _ _ _ _ _ _ _ h

/-- A register whose listed value is the same reads the same. -/
theorem State.rreg_congr (s t : State) (r : Reg) (u i j : Nat) (h : tfind t.regs (r.addr u i j) = tfind s.regs (r.addr u i j)) :
    t.rreg r u i j = s.rreg r u i j := by
  simp [State.rreg, tget_eq_tfind, h]

theorem State.rreg_wreg_ne (s : State) (r q : Reg) (u i j v u' i' j' : Nat) (h : q.addr u' i' j' ≠ r.addr u i j) :
    (s.wreg r u i j v).rreg q u' i' j' = s.rreg q u' i' j' := State.rreg_congr _ _ _ _ _ _ (State.tfind_wreg_ne _ _ _ _ _ _ _ h)

theorem State.rreg_put_ne (s : State) (f : Fld) (q : Reg) (u v i j u' i' j' : Nat) (h : q.addr u' i' j' ≠ f.reg.addr u i j) :
    (s.put f u v i j).rreg q u' i' j' = s.rreg q u' i' j' := State.rreg_wreg_ne _ _ _ _ _ _ _ _ _ _ h

theorem State.get_put_ne (s : State) (f g : Fld) (u v i j u' i' j' : Nat) (h : g.reg.addr u' i' j' ≠ f.reg.addr u i j) :
    (s.put f u v i j).get g u' i' j' = s.get g u' i' j' := by
  simp [State.get, State.rreg_put_ne s f g.reg u v i j u' i' j' h]

@[simp] theorem State.cl_setCl_same (s : State) (c : Nat) (x : Cluster) : (s.setCl c x).cl c = x := by
  simp [State.cl, State.setCl]

theorem State.cl_setCl_ne (s : State) (c d : Nat) (x : Cluster) (h : d ≠ c) : (s.setCl c x).cl d = s.cl d :=
  tget_tset_ne _ _ _ _ _ _ h

@[simp] theorem State.cl_modCl_same (s : State) (c : Nat) (f : Cluster → Cluster) : (s.modCl c f).cl c = f (s.cl c) :=
  State.cl_setCl_same _ _ _

theorem State.cl_modCl_ne (s : State) (c d : Nat) (f : Cluster → Cluster) (h : d ≠ c) : (s.modCl c f).cl d = s.cl d :=
  State.cl_setCl_ne _ _ _ _ h

@[simp] theorem State.cl_modCore_same (s : State) (c : Nat) (f : Sys2Proof.Machine.Core → Sys2Proof.Machine.Core) :
    (s.modCore c f).cl c = { s.cl c with core := f (s.cl c).core } := State.cl_modCl_same _ _ _

@[simp] theorem State.cl_modEng_same (s : State) (c : Nat) (f : Engine → Engine) :
    (s.modEng c f).cl c = { s.cl c with eng := f (s.cl c).eng } := State.cl_modCl_same _ _ _

/-- Registers are read from the register file alone. -/
theorem State.rreg_of_regs (s t : State) (h : t.regs = s.regs) (r : Reg) (u i j : Nat) : t.rreg r u i j = s.rreg r u i j := by
  simp [State.rreg, h]

theorem State.get_of_regs (s t : State) (h : t.regs = s.regs) (f : Fld) (u i j : Nat) : t.get f u i j = s.get f u i j := by
  simp [State.get, State.rreg_of_regs s t h]

theorem State.cl_of_clu (s t : State) (h : t.clu = s.clu) (c : Nat) : t.cl c = s.cl c := by
  simp [State.cl, h]

end Sys2Proof.Machine
end

