-- ==== Sys2Proof/Laws/Bits.lean ====
section
/-!
SUPPORT. Lemmas of the bit fields: a field reads back what was put into it, and the other fields stay.
-/
namespace Sys2Proof.Machine

open Sys2Proof

theorem nfld_eq (n lo w : Nat) : nfld n lo w = n / 2 ^ lo % 2 ^ w := by
  simp [nfld, Nat.shiftRight_eq_div_pow]

theorem nfld_lt (n lo w : Nat) : nfld n lo w < 2 ^ w := Nat.mod_lt _ (Nat.two_pow_pos w)

/-- A number splits into what lies above a field, the field and what lies below. -/
theorem nfld_split (n lo w : Nat) : n = (n / 2 ^ lo / 2 ^ w * 2 ^ w + nfld n lo w) * 2 ^ lo + n % 2 ^ lo := by
  rw [nfld_eq, Nat.div_add_mod', Nat.div_add_mod']

theorem nput_eq (n lo w v : Nat) : nput n lo w v = (n / 2 ^ lo / 2 ^ w * 2 ^ w + v % 2 ^ w) * 2 ^ lo + n % 2 ^ lo := by
  have h := nfld_split n lo w
  unfold nput
  generalize hA : n / 2 ^ lo / 2 ^ w * 2 ^ w = A at *
  generalize hF : nfld n lo w = F at *
  generalize hR : n % 2 ^ lo = R at *
  rw [Nat.add_mul] at *
  omega

theorem nfld_join (a v r lo w : Nat) (hr : r < 2 ^ lo) : nfld ((a * 2 ^ w + v % 2 ^ w) * 2 ^ lo + r) lo w = v % 2 ^ w := by
  rw [nfld_eq, Nat.mul_comm _ (2 ^ lo), Nat.mul_add_div (Nat.two_pow_pos lo), Nat.div_eq_of_lt hr, Nat.add_zero,
    Nat.mul_add_mod_self_right, Nat.mod_mod]

@[simp] theorem nfld_nput_same (n lo w v : Nat) : nfld (nput n lo w v) lo w = v % 2 ^ w := by
  rw [nput_eq]; exact nfld_join _ _ _ _ _ (Nat.mod_lt _ (Nat.two_pow_pos lo))

/-- Cutting a number to 64 bits keeps every field below bit 64. -/
theorem nfld_mod (n k lo w : Nat) (h : lo + w ≤ k) : nfld (n % 2 ^ k) lo w = nfld n lo w := by
  obtain ⟨d, rfl⟩ : ∃ d, k = lo + d := ⟨k - lo, by omega⟩
  rw [nfld_eq, nfld_eq, Nat.pow_add, Nat.mod_mul_right_div_self, Nat.mod_mod_of_dvd]
  exact Nat.pow_dvd_pow 2 (by omega)

theorem nput_below (n lo w v b : Nat) (h : b ≤ lo) : nput n lo w v % 2 ^ b = n % 2 ^ b := by
  obtain ⟨d, rfl⟩ : ∃ d, lo = b + d := ⟨lo - b, by omega⟩
  have e : ∀ x, x * 2 ^ (b + d) = 2 ^ b * (x * 2 ^ d) := fun x => by rw [Nat.pow_add]; ac_rfl
  conv => rhs; rw [nfld_split n (b + d) w]
  rw [nput_eq, e, e, Nat.mul_add_mod, Nat.mul_add_mod]

theorem nput_above (n lo w v b : Nat) (h : lo + w ≤ b) : nput n lo w v / 2 ^ b = n / 2 ^ b := by
  obtain ⟨d, rfl⟩ : ∃ d, b = lo + w + d := ⟨b - (lo + w), by omega⟩
  have key : ∀ a v r : Nat, r < 2 ^ lo → v < 2 ^ w → ((a * 2 ^ w + v) * 2 ^ lo + r) / 2 ^ (lo + w) = a := by
    intro a v r hr hv
    rw [Nat.pow_add, ← Nat.div_div_eq_div_mul, Nat.mul_comm _ (2 ^ lo), Nat.mul_add_div (Nat.two_pow_pos lo), Nat.div_eq_of_lt hr,
      Nat.add_zero, Nat.mul_comm a, Nat.mul_add_div (Nat.two_pow_pos w), Nat.div_eq_of_lt hv, Nat.add_zero]
  rw [Nat.pow_add 2 (lo + w) d, ← Nat.div_div_eq_div_mul, ← Nat.div_div_eq_div_mul, nput_eq]
  conv => rhs; rw [nfld_split n lo w]
  rw [key _ _ _ (Nat.mod_lt _ (Nat.two_pow_pos lo)) (Nat.mod_lt _ (Nat.two_pow_pos w)),
    key _ _ _ (Nat.mod_lt _ (Nat.two_pow_pos lo)) (nfld_lt _ _ _)]

/-- A field that does not meet the one written keeps its value. -/
theorem nfld_nput_ne (n lo w v lo' w' : Nat) (h : lo' + w' ≤ lo ∨ lo + w ≤ lo') : nfld (nput n lo w v) lo' w' = nfld n lo' w' := by
  rcases h with h | h
  · rw [← nfld_mod (nput n lo w v) (lo' + w') lo' w' (Nat.le_refl _), nput_below _ _ _ _ _ h, nfld_mod _ _ _ _ (Nat.le_refl _)]
  · rw [nfld_eq, nput_above _ _ _ _ _ h, ← nfld_eq]

/-! ### Register fields -/

/-- A register field reads back what was put into it. -/
theorem State.get_put_same (s : State) (f : Fld) (u v i j : Nat) (h : f.lo + f.w ≤ 64) :
    (s.put f u v i j).get f u i j = v % 2 ^ f.w := by
  simp only [State.get, State.put, State.rreg_wreg_same]
  rw [nfld_mod _ _ _ _ h, nfld_nput_same]

/-- A put leaves the other fields of its register alone. -/
theorem State.get_put_field (s : State) (f g : Fld) (u v i j : Nat) (hr : g.reg = f.reg) (hg : g.lo + g.w ≤ 64)
    (h : g.lo + g.w ≤ f.lo ∨ f.lo + f.w ≤ g.lo) : (s.put f u v i j).get g u i j = s.get g u i j := by
  simp only [State.get, State.put, hr, State.rreg_wreg_same]
  rw [nfld_mod _ _ _ _ hg, nfld_nput_ne _ _ _ _ _ _ h]

theorem State.get_lt (s : State) (f : Fld) (u i j : Nat) : s.get f u i j < 2 ^ f.w := nfld_lt _ _ _

end Sys2Proof.Machine
end

