-- ==== Sys2Proof/WellFormed.lean ====
section
/-!
DEFINITION. Which commands are well formed: operands that the types of Syntax.lean do not already bound.
-/
namespace Sys2Proof

/-- Well-formedness of a command. -/
def Instr.wf : Instr → Bool
  | .registerWrite off size _ => (size == 4 || size == 8) && off % size == 0
  | _ => true

end Sys2Proof
end

