-- ==== Sys2Proof/Tests/Slice0.lean ====
section
/-!
SUPPORT. Tests of the model: expected values come from the spec. A theorem named witness_<what> shows that the hypotheses of a statement
are met together.
-/
namespace Sys2Proof.Tests

open Sys2Proof Sys2Proof.Machine

set_option Elab.async false

theorem test_wf_register_size : (Instr.registerWrite 0 3 0).wf = false := by decide

/-! ### Small states -/

/-- Cluster 0 of a module with alias translation over one croft, its skein engine enabled, and a VEC op. -/
def ready : State :=
  ((((State.reset.put CLU_ALIAS_CTL_en 0 1).put CLU_ALIAS_CTL_croft_count 0 1).put CTL_SK_CTL_en 0 1).put CTL_SK_CTL_stall_us 0 100).wreg VEC_OP 0 0 0 1

/-- A descriptor of one VEC stage over one local tile, which waits on semaphore 2 and posts semaphore 3. -/
def desc : List Nat :=
  [5 + 2 ^ 26 + 2 ^ 32 + 0xFFFF * 2 ^ 48, 0x10 + 0x1F * 2 ^ 16 + 0x1F * 2 ^ 32 + 0x1F * 2 ^ 48, 0x10000, 0, 0x20000, 0, 0,
   2 * 2 ^ 30 + 2 ^ 34 + 3 * 2 ^ 35 + 2 ^ 39]

def launch : Launch := ⟨7, desc, true, false, true⟩
def stage : Stage := ⟨0x10, 0, 0, [], [], 1, 0, 0, false, 0, 0, [], [], [], [], [], [], [], 0, false, none⟩
def skein : Skein := ⟨7, desc, 0, 0, 0, 0, 0, 0, [stage], 1, 1, 0, 0, true, false, true, 0, 0, 0, false, [], false, false, 0, false, false, false, none⟩

/-- An address resolves to a target. -/
def lands {α : Type} [DecidableEq α] (r : Except Nat α) (t : α) : Bool := match r with | .ok x => x == t | .error _ => false

/-- The descriptor stands at the start of the window. -/
def described : State := { ready with mem := memPuts [] 0 (desc.flatMap (leBytes 8)) }

/-- One descriptor in the launch queue, with a semaphore to wait on. -/
def queued : State := ((ready.put CTL_SEM_value 0 1 2).put VEC_CTL_en 0 1).modEng 0 fun e => { e with launch := [launch] }

/-- One running skein. -/
def running (k : Skein) : State := ready.modEng 0 fun e => { e with slots := [k] }

/-! ### Witnesses: states that meet the hypotheses of the statements -/

theorem witness_alias_enable : ready.get CLU_ALIAS_CTL_en 1 = 0 ∧ nfld 0x10 4 5 = 1 ∧ nfld (ready.rreg CLU_ALIAS_MAP 0) 0 4 = cluCroft 0 ∧
    nfld (0x0 : Nat) 4 5 = 0 ∧ nfld 0x100 4 5 = 16 ∧ nfld ((ready.wreg CLU_ALIAS_MAP 1 0 0 0x10).rreg CLU_ALIAS_MAP 1) 4 4 = 1 ∧
    nfld ((ready.wreg CLU_ALIAS_MAP 1 0 0 5).rreg CLU_ALIAS_MAP 1) 0 4 ≠ cluCroft 1 ∧ nfld (2 ^ 46) 58 4 = 0 ∧
    (ready.put PRT_CROFT_span 0 5 0).get PRT_CROFT_span 0 (cluCroft 1) = 5 ∧ 0x77FFC0 % 64 = 0 ∧ 0x77FFC0 + 64 * 1 ≤ 0x780000 := by decide +kernel

theorem witness_register_write : ready.get CLU_ALIAS_CTL_en 0 = 1 ∧ ready.get CLU_ALIAS_CTL_en 1 = 0 ∧ (regOf 0x8006400000).isNone = true ∧ 4 % 8 ≠ 0 ∧
    ((regOf (CLU_SPAN.addr 7 0 0)).map fun x => (x.1.base, x.2)) = some (CLU_SPAN.base, 7, 0, 0) ∧ CLU_SPAN.base ∉ commandRegs ∧
    CLU_SPAN.base < 2 ^ 46 ∧ ((regOf (VEC_OP.addr 0 0 0)).map fun x => (x.1.base, x.2)) = some (VEC_OP.base, 0, 0, 0) ∧
    VEC_OP.base ∉ commandRegs ∧ ((VEC_OP.stnOf 0).map fun p => ready.stnHeld 0 p.1) = some false ∧ nbit 1 0 = true ∧ nfld 2 0 2 = 2 := by
  decide +kernel

theorem witness_resolve : ready.get CLU_ALIAS_CTL_en 0 = 1 ∧ ready.get CLU_ALIAS_CTL_en 1 = 0 ∧ nfld (3 * 2 ^ 62) 62 2 = 3 ∧ nfld (2 ^ 46) 46 16 ≠ 0 ∧
    nfld (2 * 2 ^ 62 + 2 ^ 61) 62 2 = 2 ∧ nfld (2 * 2 ^ 62 + 2 ^ 61) 57 5 ≠ 0 ∧ ready.get CLU_ALIAS_CTL_croft_count 0 = 1 ∧
    nfld (2 ^ 62 + 0x1000000000) 46 12 = ready.moduleId ∧ isHbm ((2 ^ 62 + 0x1000000000) % 2 ^ 46) = true ∧
    hbmCroft 0x1000000000 ∈ ready.aliasCrofts 0 ∧ hbmCroft 0x1300000000 ∉ ready.aliasCrofts 0 ∧ (100 * 0 + 99) * 0x800000 + 0x77FFFF < 0x320000000 ∧
    100 * 1 ≤ (399 : Nat) ∧ 399 * 0x800000 + 0x7FFFFF < 0x320000000 ∧ 0xFFF8 + 8 ≤ 0x10000 ∧ 0xFFF8 % 8 = 0 ∧
    ready.get CLU_ALIAS_CTL_en 1 = 0 ∧ (ready.croftPart (cluCroft 1)).1 = 0xFF ∧
    (let s := ready.put PRT_CROFT_assigned 0 1 0; (s.croftPart (cluCroft 1)).1 ≠ 0xFF ∧ (s.croftPart 0).1 = (s.croftPart (cluCroft 1)).1) := by decide +kernel

theorem witness_skein_push : described.get CTL_SK_CTL_en 0 = 1 ∧ (described.cl 0).eng.launch.length < 64 ∧ described.rdPoison 0 64 = false ∧
    firstFail (((described.noteRead 0 64).stamp 0 64).descChecks 0 ((List.range 8).map fun i => leNat (described.rdMem (8 * i) 8))) = 0 ∧
    firstFail (((ready.noteRead 0 64).stamp 0 64).descChecks 0 ((List.range 8).map fun i => leNat (ready.rdMem (8 * i) 8))) ≠ 0 ∧
    (ready.cl 0).faulted = 0 ∧ ready.get CTL_SK_CTL_en 1 = 0 ∧ (ready.cl 1).faulted = 0 ∧
    (State.rdPoison { described with ecc := [(16, poisonDelta)] } 0 64) = true ∧
    64 ≤ ((ready.modEng 0 fun e => { e with launch := List.replicate 64 launch }).cl 0).eng.launch.length := by decide +kernel

theorem witness_skein_start : (queued.cl 0).eng.launch = [launch] ∧ queued.get CTL_SK_CTL_en 0 = 1 ∧ (queued.cl 0).eng.stopped = false ∧
    (queued.cl 0).eng.disabling = false ∧ queued.headOk 0 launch = true ∧ (∀ j < dStages desc, queued.startCode 0 desc j = 0) ∧ dWaitEn desc = true ∧
    (queued.put CTL_SEM_value 0 0 2).headOk 0 launch = false ∧
    (let s := queued.put VEC_CTL_en 0 0; s.headOk 0 launch = true ∧ s.startCode 0 desc 0 ≠ 0 ∧ s.sk 0 launch.no = none ∧ (s.cl 0).faulted = 0) := by decide +kernel

theorem witness_skein_complete :
    let k := { skein with ended := true }
    let full := (running k).modEng 0 fun e => { e with cq := List.replicate 32 k.entry }
    (running k).sk 0 7 = some k ∧ k.done = true ∧ k.held = false ∧ k.entryDue = true ∧ dPostEn desc = true ∧
    (running k).get CTL_SEM_value 0 (dPostSem desc) < 65535 ∧ full.sk 0 7 = some k ∧ (full.cl 0).eng.cq.length = 32 ∧
    k.cancelled = false ∧ (let u := { k with cancelled := true }; (running u).sk 0 7 = some u ∧ u.done = true ∧ u.held = false) := by decide +kernel

theorem witness_semaphores :
    let s := ((ready.put CTL_SEM_value 0 65535 1).modCore 0 fun x => { x with loads := [⟨1, 3, 0x8000002018, 8, false⟩] })
    (ready.get CTL_SEM_value 0 1 + nfld 0xFFFF0001 16 16 ≤ 65535) ∧ 65535 < s.get CTL_SEM_value 0 1 + nfld 0x10001 16 16 ∧ (s.cl 0).faulted = 0 := by
  decide +kernel

theorem witness_cq_pop :
    let s := ready.modCore 0 fun x => { x with loads := [⟨1, 3, 0x8000002018, 8, false⟩] }
    (s.cl 0).core.loads = [⟨1, 3, 0x8000002018, 8, false⟩] ∧ lands (s.resolve 0 .load 0x8000002018 8) (.reg (CTL_CQ_POP.addr 0 0 0)) = true ∧
    (s.cl 0).eng.heldQ = [] ∧
    (let k := { skein with ended := true, held := true }
     let u := s.modEng 0 fun e => { e with slots := [k], heldQ := [7], cq := List.replicate 32 k.entry }
     u.sk 0 7 = some k ∧ (u.cl 0).eng.heldQ = [7] ∧ (u.cl 0).eng.cq.length = 32 ∧
     lands (u.resolve 0 .load 0x8000002018 8) (.reg (CTL_CQ_POP.addr 0 0 0)) = true) := by decide +kernel

theorem witness_skein_engine : nfld (BitVec.toNat (0x640001 : Word)) 16 16 ≠ 0 ∧ nfld (BitVec.toNat (1 : Word)) 16 16 = 0 ∧
    ((running skein).cl 0).eng.slots ≠ [] ∧ ready.get CTL_SK_CTL_en 1 = 0 ∧ ready.get CLU_ALIAS_CTL_en 1 = 0 ∧
    (ready.put CLU_ALIAS_CTL_en 1 1).get CLU_ALIAS_CTL_en 1 = 1 ∧ ready.get CTL_SK_CTL_en 0 = 1 ∧ (ready.cl 0).eng.slots = [] ∧
    ((ready.modEng 0 fun e => { e with disabling := true }).cl 0).eng.disabling = true ∧ nbit (BitVec.toNat (3 : Word)) 1 = true := by decide +kernel

/-- A skein that waits for its third tile. -/
def hungry : Skein := { skein with w := [5 + 3 * 2 ^ 32 + 0xFFFF * 2 ^ 48] ++ desc.drop 1, srcArr := 2, srcIss := 2 }

theorem witness_starved : (running hungry).sk 0 7 = some hungry ∧ (running hungry).starved 0 hungry 0 0 = true ∧ hungry.late = false ∧
    ((running hungry).cl 0).eng.starve < 2 ^ 32 - 1 ∧ (running { hungry with late := true }).starved 0 { hungry with late := true } 0 0 = true ∧
    hungry.takes = true ∧ (running skein).starved 0 skein 0 0 = false ∧ (running skein).adpStarved 0 skein 0 = false ∧ (running hungry).adpStarved 0 hungry 0 = false ∧
    (let k := { hungry with starving := [(0, 0)] }
     (running k).sk 0 7 = some k ∧ k.takes = true ∧ ∃ x ∈ k.starving, (running k).feedHalted 0 k (x.2 == 1 && sideFed k.w x.1) = false) := by decide +kernel

/-- A hungry skein whose first stage is MAT0, with a stationary set loaded. -/
def hungryMat : Skein :=
  { hungry with
      stages := [{ stage with
        stn := 0, mat := some ⟨1, 0, [⟨0, 0xFF, 0, true, false, [], []⟩], 0, 0, none, 0, 1, 0, some 0, [], false, 0, false, [], 0, none, none⟩ }] }

theorem witness_starved_matrix : (running hungryMat).sk 0 7 = some hungryMat ∧ (running hungryMat).starved 0 hungryMat 0 0 = true ∧
    (running hungryMat).get MAT_STALL_holds 0 0 < 2 ^ 32 - 1 := by decide +kernel

theorem witness_credits : (running hungry).sk 0 7 = some hungry ∧ hungry.stages[0]? = some stage ∧ stage.p0.length + stage.seqLen < stage.occ0 ∧
    hungry.takes = true ∧ feedDue hungry false = true ∧ hungry.srcLocal = true ∧ (running hungry).isCross 0 hungry.w = false ∧ hungry.srcArr < dCount hungry.w ∧
    (running hungry).feedRoom 0 hungry false = true ∧ dSrcFmt hungry.w ≠ 4 ∧
    lands ((running hungry).localAddr 0 (.stream false) (srcAddr hungry.w 2) 1024) 0x10000 = true ∧
    (let st := { stage with occ0 := 0, occ1 := 1 }
     let k := { hungry with stages := [st] }
     (running k).sk 0 7 = some k ∧ k.stages[0]? = some st ∧ st.p1.length < st.occ1 ∧ 16 ≤ st.stn ∧ st.occ0 ≤ st.p0.length + st.seqLen) ∧
    (let k := { hungry with w := hungry.w.set 2 0x900000 }
     (running k).sk 0 7 = some k ∧ k.srcLocal = true ∧ feedDue k false = true ∧ (running k).feedRoom 0 k false = true ∧
     lands ((running k).localAddr 0 (.stream false) (srcAddr k.w 2) 1024) 0x900000 = false) ∧
    (let k := { hungry with w := [5 + 3 * 2 ^ 32 + 4 * 2 ^ 16 + 0xFFFF * 2 ^ 48] ++ hungry.w.drop 1 }
     dSrcFmt k.w = 4 ∧ (running k).sk 0 7 = some k ∧ feedDue k false = true ∧ (running k).feedRoom 0 k false = true ∧
     lands ((running k).localAddr 0 (.stream false) (srcAddr k.w 2) 1024) 0x10000 = true ∧
     lands ((running k).localAddr 0 (.stream false) (compAddr k.w (srcAddr k.w 0) 2) 64) 0x10080 = true) := by decide +kernel

/-- A matrix skein at MAT0 with one stationary tile and a draining buffer. -/
def matStage : Stage :=
  { stage with stn := 0, p1 := [⟨0, 0xFF, 0, true, false, [], []⟩], mat := some ⟨1, 0, [], 0, 0, none, 0, 1, 0, none, [0], false, 0, false, [], 0, none, none⟩ }
def matSkein : Skein := { skein with stages := [matStage] }

theorem witness_mat_enable : ready.stnHeld 0 3 = false ∧ ready.get MAT_CTL_en 0 3 = 0 ∧ firstFail (matEnChecks 0 3 ready) = 0 ∧
    firstFail (matEnChecks 0 3 (ready.wreg MAT_OPA 0 3 0 0xFFFFFFFFFFFFFFFF)) ≠ 0 ∧ (running matSkein).stnHeld 0 0 = true ∧
    (ready.put MAT_STAT_state 0 2 3).get MAT_STAT_state 0 3 = 2 := by decide +kernel

/-- A matrix station that is enabled, and one whose window starts with a well-formed image. -/
def matOn : State := ready.put MAT_CTL_en 0 1 3

theorem witness_mat_context : let s := { matOn with mem := memPuts [] 0 [1, 1] }
    matOn.get MAT_CTL_en 0 3 = 1 ∧ matOn.get MAT_CTX_CTL_busy 0 3 = 0 ∧ (matOn.put MAT_CTX_CTL_busy 0 1 3).get MAT_CTX_CTL_busy 0 3 = 1 ∧
    (0x7F7E * 64 + 8256 ≤ 0x200000) ∧ ¬ (0x7F80 * 64 + 8256 ≤ 0x200000) ∧ s.bufSt 0 3 0 = 0 ∧ s.bufSt 0 3 1 = 0 ∧
    s.get MAT_CTL_en 0 3 = 1 ∧ ready.get MAT_CTL_en 0 3 = 0 ∧ s.stnHeld 0 3 = false ∧ matOn.stnHeld 0 3 = false ∧ (matOn.put (bufFld 1) 0 3 3).bufSt 0 3 1 = 3 ∧
    s.stnSkein 0 3 = none ∧ s.rdPoison 0 8256 = false ∧ (running matSkein).stnSkein 0 0 = some (matSkein, 0, matStage) ∧
    ((running matSkein).put MAT_CTX_CTL_busy 0 1 0).get MAT_CTX_CTL_busy 0 0 = 1 := by decide +kernel

theorem witness_mat_image : let i := (State.rdMem { matOn with mem := memPuts [] 0 [1, 1] } 0 64)
    ctxImageOk i = true ∧ leAt i 1 1 = 1 ∧ ctxImageOk (matOn.rdMem 0 64) = false ∧ ctxImageOk (State.rdMem { matOn with mem := memPuts [] 0 [1] } 0 64) = true ∧
    leAt (State.rdMem { matOn with mem := memPuts [] 0 [1] } 0 64) 1 1 = 0 := by decide +kernel

theorem witness_mat_loads : (running matSkein).stnSkein 0 0 = some (matSkein, 0, matStage) ∧ matSkein.ended = false ∧
    matStage.p1.length = 1 ∧ (matStage.mat.map fun r => (r.sets.length, r.draining)) = some (0, [0]) ∧
    dDstFmt matSkein.w = 0 ∧
    (let st := fun (p : Nat) => { matStage with
        mat := some ⟨1, 0, List.replicate 2 ⟨0, 0xFF, 0, true, false, [], []⟩, 0, 0, none, 0, 1, 0, none, [0], true, p, false, [], 0, none, none⟩ }
     let k := fun (p : Nat) => { matSkein with w := [dw desc 0 + 5 * 2 ^ 20] ++ desc.drop 1, stages := [st p] }
     ∀ p < 4, (running (k p)).stnSkein 0 0 = some (k p, 0, st p) ∧ dDstFmt (k p).w = 5 ∧ ((st p).mat.map fun r => (r.sets.length, r.part)) = some (2, p)) ∧
    (let st := { matStage with mat := some ⟨1, 0, [], 0, 0, none, 0, 1, 0, none, [], false, 0, false, [], 0, none, none⟩ }
     (running { matSkein with stages := [st] }).stnSkein 0 0 = some ({ matSkein with stages := [st] }, 0, st)) := by decide +kernel

/-! ### The control core -/

/-- Cluster 0 about to issue an instruction. -/
def core (w : Nat) : State :=
  (ready.put CLU_CORE_CTL_state 0 1).modCore 0 fun x => { x with imem := [(0, BitVec.ofNat 64 w)], g := [(1, 5), (2, 7)] }
/-- An instruction of opcode o with d = 3, a = 1, b = 2. -/
def insn (o d : Nat) : Nat := o + d * 64 + 1 * 2 ^ 11 + 2 * 2 ^ 16

theorem witness_core_alu : (∀ f < 15, (core (insn 1 3 + f * 2 ^ 21)).issue 0 = some (insn 1 3 + f * 2 ^ 21)) ∧
    (core (insn 2 3)).issue 0 = some (insn 2 3) ∧ (core (insn 3 3 - 2 ^ 11)).issue 0 = some (insn 3 3 - 2 ^ 11) ∧
    (core (insn 4 3)).issue 0 = some (insn 4 3) ∧ (core (insn 5 3)).issue 0 = some (insn 5 3) ∧ (core (insn 6 3)).issue 0 = some (insn 6 3) := by
  decide +kernel

theorem witness_core_branches : (∀ o < 4, (core (insn (0x10 + o) 0)).issue 0 = some (insn (0x10 + o) 0)) ∧ (core (insn 0x14 3)).issue 0 = some (insn 0x14 3) ∧
    (core (0x15 + 2 ^ 11)).issue 0 = some (0x15 + 2 ^ 11) ∧ (core 0x1B).issue 0 = some 0x1B := by decide +kernel

theorem witness_core_memory :
    let s := { (core 0).modCore 0 fun x => { x with loads := [⟨4, 3, 0x100, 8, false⟩], stores := [⟨5, 0⟩] } with
                replies := [(.load 0 4, ⟨[1], false, 0⟩), (.store 0 5, ⟨[], false, 0⟩)] }
    (∀ o < 8, (core (insn (8 + o) 3)).issue 0 = some (insn (8 + o) 3) ∧
      lands ((core (insn (8 + o) 3)).resolve 0 (if o < 4 then .load else .store) ((core (insn (8 + o) 3)).ctlAddr 0 (insn (8 + o) 3)) 1) (.mem 7) = true) ∧
    (s.cl 0).core.loads.find? (fun x => x.id == 4) = some ⟨4, 3, 0x100, 8, false⟩ ∧ s.replyOf (.load 0 4) = some ⟨[1], false, 0⟩ ∧
    (s.cl 0).core.stores.find? (fun x => x.id == 5) = some ⟨5, 0⟩ ∧ s.replyOf (.store 0 5) = some ⟨[], false, 0⟩ ∧
    s.portOk 0 (s.cluPG 0).1 (s.cluPG 0).2 = true ∧ (s.put CLU_PART_partition 0 3).portOk 1 ((s.put CLU_PART_partition 0 3).cluPG 0).1 0 = false ∧
    (s.cl 0).core.loads.length < 8 ∧ (s.cl 0).faulted = 0 := by decide +kernel

/-- A core about to load or store through register 1. -/
def coreAt (o a : Nat) : State := (core (insn o 3)).modCore 0 fun x => { x with g := [(1, BitVec.ofNat 64 a)] }

theorem witness_core_faults : (∀ o < 4, (coreAt (8 + o) 0x8000002018).issue 0 = some (insn (8 + o) 3) ∧ (coreAt (8 + o) 0).ctlAddr 0 (insn (8 + o) 3) = 2) ∧
    lands ((coreAt 11 0x8000002006).resolve 0 .load ((coreAt 11 0x8000002006).ctlAddr 0 (insn 11 3)) 8) (.reg 0x8000002008) = true ∧
    ¬ (0x8000002008 = CTL_CQ_POP.addr 0 0 0 ∨ 0x8000002008 = CTL_DRAW.addr 0 0 0) ∧
    (∀ o < 4, (coreAt (12 + o) (3 * 2 ^ 62)).issue 0 = some (insn (12 + o) 3)) ∧
    (match (coreAt 8 (3 * 2 ^ 62)).resolve 0 .load (3 * 2 ^ 62 + 2) 1 with | .error e => e | .ok _ => 0) = 0x0211 ∧
    (match (coreAt 12 (3 * 2 ^ 62)).resolve 0 .store (3 * 2 ^ 62 + 2) 1 with | .error e => e | .ok _ => 0) = 0x0211 ∧
    (let s := fun (d p : Bool) (r : Nat) => { (core 0).modCore 0 fun x => { x with loads := [⟨4, 3, 0x100, 8, d⟩] } with
                replies := [(.load 0 4, ⟨[1], p, r⟩), (.store 0 5, ⟨[], false, r⟩)] }
     (∀ d p, (s d p 0).replyOf (.load 0 4) = some ⟨[1], p, 0⟩ ∧ ((s d p 0).cl 0).core.loads.find? (fun x => x.id == 4) = some ⟨4, 3, 0x100, 8, d⟩) ∧
     (s false false 0x0612).replyOf (.load 0 4) = some ⟨[1], false, 0x0612⟩ ∧ (s false false 0x0612).replyOf (.store 0 5) = some ⟨[], false, 0x0612⟩) := by
  decide +kernel

theorem witness_core_waits : let w := fun (x : CoreWait) => (core 0).modCore 0 fun k => { k with wait := x }
    (core (0x18 + 2 ^ 11)).issue 0 = some (0x18 + 2 ^ 11) ∧ ((core 0).greg 0 1).toNat % 65536 ≠ 0 ∧ (core 0x19).issue 0 = some 0x19 ∧
    (core 0x1A).issue 0 = some 0x1A ∧ ((w (.wsem 2 3)).put CTL_SEM_value 0 3 2).get CTL_SEM_value 0 2 = 3 ∧ ((w .fence).cl 0).core.wait = .fence ∧
    ((w .kend).cl 0).core.stores = [] ∧ (w .kend).engIdle 0 = true ∧ (w .kend).get CLU_CORE_CTL_yield_req 0 = 0 ∧
    ((w .kend).put CLU_CORE_CTL_yield_req 0 1).get CLU_CORE_CTL_yield_req 0 = 1 ∧ ((w .saving).cl 0).core.wait = .saving ∧
    (let s := (core (0x18 + 2 ^ 11)).modCore 0 fun x => { x with g := [] }; s.issue 0 = some (0x18 + 2 ^ 11) ∧ (s.greg 0 1).toNat % 65536 = 0) ∧
    (((core 0).modCore 0 fun x => { x with stores := [⟨5, 0⟩] }).cl 0).core.stores ≠ [] ∧ (running skein).engIdle 0 = false ∧
    (w (.wsem 15 3)).get CTL_SEM_value 0 15 < 3 := by decide +kernel

theorem witness_core_control : ready.coreActive 0 = false ∧ ready.rdPoison (ready.saveArea 0) 256 = false ∧ leAt (ready.rdMem (ready.saveArea 0) 256) 0 8 < 0x4000 ∧
    0x4000 ≤ leAt (({ ready with mem := memPuts [] 0 [0, 0x40] }).rdMem (ready.saveArea 0) 256) 0 8 ∧ (core 0).coreActive 0 = true ∧
    (State.rdPoison { ready with ecc := [(240, poisonDelta)] } (ready.saveArea 0) 256) = true := by decide +kernel

theorem witness_core_copies :
    let s := ready.modCore 0 fun x => { x with loads := [⟨1, 3, 0x8000003000, 8, false⟩] }
    nbit (BitVec.toNat (0x40200000 : Word)) 30 = true ∧ ready.imemOk 0 0x40200000 = true ∧ ready.imemOk 0 0x40000000 = false ∧
    ((ready.modCore 0 fun x => { x with copying := true }).cl 0).core.copying = true ∧ (core 0).coreFree 0 = true ∧ ((core 0).cl 0).faulted = 0 ∧
    (((core 0).setPc 0 0x4000).cl 0).core.pc = 0x4000 ∧ (((core 0).setPc 0 0x4000)).coreFree 0 = true ∧ (core 0).fetched 0 = some 0 ∧ iLegal 0 = false ∧
    (core 0x1B).fetched 0 = some 0x1B ∧ iLegal 0x1B = true ∧ (core 0x1B).coreFree 0 = true ∧
    (let s := (core 0).modCore 0 fun x => { x with marks := [(0, true)] }; tget false (s.cl 0).core.marks ((s.cl 0).core.pc / 16) = true ∧ s.coreFree 0 = true) ∧
    (((core 0).setPc 0 0x3FFE).cl 0).core.pc % 4 ≠ 0 ∧ (running skein).stnHeld 0 0x10 = true ∧
    lands (s.resolve 0 .load CTL_DRAW.base 8) (.reg (CTL_DRAW.addr 0 0 0)) = true ∧
    (∀ n < 4, ready.stnHeld 0 (0x10 + n) = false ∧ ready.get (stnEn (0x10 + n)) 0 = 0) ∧ firstFail (stnEnChecks 0 0x11 ready) = 0 ∧
    firstFail (stnEnChecks 0 0x11 (ready.wreg SUM_OP 0 0 0 0xFFFFFFFFFFFFFFFF)) ≠ 0 := by decide +kernel

/-! ### On-chip memory -/

theorem witness_symbol_code : classWord (List.replicate 18 0) = .good ∧ (List.replicate 18 (0 : Byte)).length = 18 ∧
    ((0x320000000 - 16) + 16 ≤ onchipTop ∧ (0x320000000 - 16) / 0x800000 = (0x320000000 - 1) / 0x800000) ∧ (ready.cl 1599).clr = none ∧
    hbmBase ≤ hbmTop - 64 ∧ (0x320000000 - 16) % 16 = 0 ∧ (List.replicate 16 (1 : Byte)).length % 16 = 0 := by decide +kernel

/-- Borrowing over croft 0's HBM3 with a budget of two lines. -/
def borrow : State := (ready.put CLU_BORROW_CFG_en 0 1).put CLU_BORROW_CFG_ret_lines 0 2

theorem witness_clear : ready.get CLU_CLEAR_busy 0 = 0 ∧ nfld 0x7701 0 7 + nfld 0x7701 8 7 = 120 ∧ nfld 0x7801 0 7 + nfld 0x7801 8 7 = 121 ∧
    nfld 0 8 7 = 0 ∧ (ready.put CLU_CLEAR_busy 0 1).get CLU_CLEAR_busy 0 = 1 ∧
    ((ready.modCl 0 fun x => { x with clr := some (1, 119) }).cl 0).clr = some (1, 119) ∧
    1 + 119 ≤ (128 : Nat) ∧ (ready.cl 0).clr = none ∧
    (borrow.put CLU_BSLOT_valid 0 1 4).get CLU_BSLOT_valid 0 4 = 1 ∧ 4 * 0 ≤ (borrow.put CLU_BSLOT_valid 0 1 4).get CLU_BSLOT_line 0 4 ∧
    (borrow.put CLU_BSLOT_valid 0 1 4).get CLU_BSLOT_line 0 4 < 4 * (0 + 1) := by decide +kernel

theorem witness_scrub : let s := { ready.put CLU_SCRUB_en 0 1 with ecc := [(16, 0x0001)] }
    (ready.put CLU_SCRUB_en 0 0).get CLU_SCRUB_en 0 = 0 ∧ nfld 0x101 8 16 ≠ 0 ∧ nbit 0x101 1 = false ∧ nfld 1 8 16 = 0 ∧ s.get CLU_SCRUB_en 0 = 1 ∧ (s.cl 0).writeback = [] ∧
    s.get MEM_ECC_CNT_corrected 0 < 2 ^ 32 - 1 ∧ (∀ w ∈ ((s.modCl 0 fun x => { x with writeback := [16, 32] }).cl 0).writeback, w % 16 = 0) ∧
    State.wclass { s with ecc := [(16, 0x1)] } 16 ≠ .uncorrectable ∧ State.wclass { s with ecc := [(16, 0x0102)], mem := memPuts [] 17 [3] } 16 = .uncorrectable ∧
    s.get MEM_SCRUB_STAT_position 0 = 0 ∧ s.wclass 0 = .good ∧ s.wclass 32 = .good ∧ s.wclass 48 = .good ∧
    (match s.wclass 16 with | .corrected _ _ => true | _ => false) = true := by decide +kernel

theorem witness_borrow : let s := ready.wreg CLU_SPILL_BASE 0 0 0 0x1000000000
    s.get CLU_BORROW_CFG_en 0 = 0 ∧ s.get CLU_SPILL_BASE_base 0 * 0x4000 = 0x1000000000 ∧ isHbm 0x1000000000 = true ∧ isHbm (0x1000000000 + 32 * 0x4000 - 1) = true ∧
    hbmCroft 0x1000000000 = hbmCroft (0x1000000000 + 32 * 0x4000 - 1) ∧ hbmCroft 0x1000000000 ∈ s.aliasCrofts 0 ∧ s.validSlots 0 = [] ∧
    borrow.get CLU_BORROW_CFG_en 0 = 1 ∧ borrow.get CLU_BSLOT_valid 0 31 = 0 ∧ nbit 0x101DF 16 = true ∧ nfld 0x101DF 0 9 = 479 ∧ nfld 0x101E0 0 9 = 480 ∧
    (borrow.put CLU_BSLOT_valid 0 1 4).validSlots 0 = [4] ∧ (borrow.put CLU_BSLOT_valid 0 1 4).get CLU_BSLOT_line 0 4 = 0 ∧
    ((borrow.put CLU_BSLOT_valid 0 1 4).put CLU_BSLOT_valid 0 1 5).validSlots 0 = [4, 5] ∧ ¬ ([0, 0] : List Nat).Nodup ∧
    ¬ (1 ≤ nfld 1 1 6 ∧ nfld 1 1 6 ≤ 32) ∧ nfld (2 * 32 + 1) 1 6 = 32 ∧ isHbm (ready.get CLU_SPILL_BASE_base 0 * 0x4000) = false ∧
    (let u := (s.put CLU_BSLOT_valid 0 1 4).put CLU_BSLOT_line 0 480 4; (u.validSlots 0).map (fun i => u.get CLU_BSLOT_line 0 i) = [480]) ∧
    borrow.get CLU_BORROW_CFG_ret_lines 0 ≤ ((((borrow.put CLU_BSLOT_valid 0 1 4).put CLU_BSLOT_valid 0 1 5).validSlots 0).filter fun i => i != 31).length ∧
    borrow.mayLend 0 479 1 = false := by decide +kernel

theorem witness_return : let s := (borrow.put CLU_BSLOT_valid 0 1 3).put CLU_BSLOT_dirty 0 1 3
    s.get CLU_BORROW_CFG_en 0 = 1 ∧ s.get CLU_RETURN_busy 0 = 0 ∧ s.get CLU_BSLOT_valid 0 (nfld (3 * 4 + 2) 2 5) = 1 ∧ ready.get CLU_BORROW_CFG_en 0 = 0 ∧
    (∀ x ∈ [(⟨1, true, [(3, 0)], false⟩ : RetCmd), ⟨1, false, [(3, 0)], false⟩, ⟨1, false, [(3, 0)], true⟩, ⟨1, true, [(3, 1)], false⟩],
      ((s.modCl 0 fun y => { y with ret := some x }).cl 0).ret = some x) ∧ s.validSlots 0 = [3] ∧ borrow.validSlots 0 = [] ∧
    s.get CLU_BSLOT_valid 0 (nfld (31 * 4 + 2) 2 5) = 0 ∧ (s.put CLU_RETURN_busy 0 1).get CLU_RETURN_busy 0 = 1 := by decide +kernel

/-! ### HBM3 and the stream stations -/

/-- HBM3 channel 0 trained, enabled and keyed, with one request at its first block. -/
def chanOn : State := (((ready.put HBM_CTL_trained 0 1).put HBM_CTL_en 0 1).put SEC_HBMKEY_keyed 0 1 0).wreg HBM_PSTATE 0 0 0 0
def rdReq : HReq := ⟨.load 0 4, 1, 0x1000000000, .read 64, 16, 0, 0⟩
def wrReq : HReq := ⟨.store 0 5, 1, 0x1000000000, .write (List.replicate 64 7) (2 ^ 64 - 1) false, 16, 0, 0⟩

theorem witness_channel_enable : let s := ready.put HBM_CTL_trained 0 1
    s.get HBM_CTL_en 0 = 0 ∧ s.get HBM_CTL_trained 0 = 1 ∧ s.get HBM_CTL_failed 0 = 0 ∧ ready.get HBM_CTL_trained 0 = 0 ∧ nfld 0x10000 16 16 ≠ 0 ∧
    nfld 1 16 16 = 0 ∧ nbit 0xB7FF 15 = true ∧ nfld 0xB7FF 0 13 = 6143 ∧ nfld 0xB7FF 13 2 = 1 ∧ s.get HBM_PAGE_CMD_busy 0 = 0 ∧
    nfld 0x9800 0 13 = 6144 ∧ nfld 0xE000 13 2 = 3 ∧ (s.put HBM_PAGE_CMD_busy 0 1).get HBM_PAGE_CMD_busy 0 = 1 := by decide +kernel

theorem witness_channel_requests : let s := { chanOn with hbmq := [rdReq] }
    hbmChan rdReq.addr = 0 ∧ isHbm rdReq.addr = true ∧ rdReq.cls < 4 ∧ s.hbmCurrent rdReq = true ∧ ({ chanOn with hbmq := [wrReq] }).hbmCurrent wrReq = true ∧
    s.get HBM_CTL_en 0 = 1 ∧ s.pageState 0x1000000000 = 0 ∧ s.get HBM_CTL_failed 0 = 0 ∧ s.get SEC_HBMKEY_keyed 0 (hbmCroft rdReq.addr) = 1 ∧
    (s.wreg HBM_PSTATE 0 0 0 1).pageState 0x1000000000 = 1 ∧ s.get HBM_FAULT_CNT_presence 0 < 2 ^ 32 - 1 ∧ ready.get HBM_CTL_en 0 = 0 ∧
    hbmRank rdReq.cls < hbmRank 3 ∧ ({ chanOn with hbmq := [{ rdReq with cls := 3 }, rdReq] }).hbmHead 0 3 = some { rdReq with cls := 3 } ∧ s.tick < rdReq.stamp + 40 ∧
    rdReq.stamp + 40 ≤ (State.tick { chanOn with tick := 40 }) ∧ rdReq.addr % 64 = 0 ∧ (s.put HBM_CTL_failed 0 1).get HBM_CTL_failed 0 = 1 ∧
    (s.wreg HBM_PSTATE 0 0 0 2).pageState 0x1000000000 = 2 ∧ (List.replicate 64 (7 : Byte)).length = 64 ∧
    (let r := { rdReq with part := 3 }; State.hbmCurrent { chanOn with hbmq := [r] } r = false) ∧ s.get PRT_STALE_discarded 0 (hbmCroft rdReq.addr) < 2 ^ 32 - 1 := by
  decide +kernel

theorem witness_patrol : chanOn.get HBM_CTL_en 0 = 1 ∧ chanOn.hbmq = [] ∧ tget 0 chanOn.patrol 0 < chBlocks ∧ chanOn.get HBM_CTL_failed 0 = 0 ∧
    chanOn.get HBM_FAULT_CNT_parity 0 < 2 ^ 32 - 1 ∧ hbmChan rdReq.addr = 0 ∧
    State.wclass { chanOn with ecc := [(chanOffset 0 0, 0x0102)], mem := memPuts [] (chanOffset 0 0 + 1) [3] } (chanOffset 0 0) = .uncorrectable ∧
    (chanOn.put HBM_CTL_failed 0 1).get HBM_CTL_failed 0 = 1 := by decide +kernel

/-- STR0 of cluster 0 enabled, with queue 0 in class 1, its limit, rate and depth. -/
def strOn : State :=
  ((((chanOn.put STR_CTL_en 0 1 0).put STR_QCFG_en 0 1 0 0).put STR_QCFG_class 0 1 0 0).put STR_QCFG_limit 0 64 0 0).put STR_QRATE_rate 0 65536 0 0

theorem witness_stream_enable : ready.get STR_CTL_en 0 0 = 0 ∧ nfld 0x10100 8 8 ≠ 0 ∧ nfld 0x10100 16 16 ≠ 0 ∧ nfld 0x100 16 16 = 0 ∧
    strOn.get STR_CTL_en 0 0 = 1 ∧ strOn.get STR_QCFG_en 0 0 1 = 0 ∧ strOn.get STR_QCFG_en 0 1 0 = 0 ∧ nfld 0x1000403 1 2 = 1 ∧ nfld 0x1000403 4 7 = 64 ∧
    nfld 0x10000403 16 13 = 4096 ∧ nfld 0x110013 16 13 = 17 ∧ nfld 0x110003 4 7 = 0 ∧ nfld 0x110413 4 7 = 65 ∧ nfld 0x100013 16 13 = 16 ∧ nfld 0x10010013 16 13 = 4097 ∧
    strOn.get STR_QRATE_rate 0 0 1 = 0 ∧ 131072 < (strOn.put STR_QRATE_rate 0 131073 0 1).get STR_QRATE_rate 0 0 1 ∧
    (let s := (((strOn.put STR_QCFG_en 0 1 0 1).put STR_QCFG_limit 0 64 0 1).put STR_QCFG_en 0 1 0 2).put STR_QCFG_limit 0 64 0 2
     240 < 64 + ((((List.range 32).filter fun i => i != 31 && s.get STR_QCFG_en 0 0 i == 1).map fun i => s.get STR_QCFG_limit 0 0 i).sum)) ∧ 131072 < 65537 + strOn.get STR_QRATE_rate 0 0 0 ∧ nfld 0x110013 4 7 = 1 ∧ (strOn.put STR_QRATE_rate 0 65536 0 1).get STR_QRATE_rate 0 0 1 = 65536 ∧
    64 + strOn.get STR_QCFG_limit 0 0 0 ≤ 240 ∧ 65536 + strOn.get STR_QRATE_rate 0 0 0 ≤ 131072 ∧ nfld 1 1 2 = 0 := by decide +kernel

/-- A skein that reads a tile of HBM3 through queue 0, and the transfer that has brought it. -/
def remote : Skein :=
  { skein with
      w := [5 + 2 ^ 32 + 0xFFFF * 2 ^ 48, 0x10 + 0x1F * 2 ^ 16 + 0x1F * 2 ^ 32 + 0x1F * 2 ^ 48, 0x1000000000, 0, 0x20000, 0, 0, 0],
      srcLocal := false, srcIss := 0, srcArr := 0, stages := [{ stage with occ0 := 0 }] }
def xfer (w : Option Tile) : Xfer := ⟨3, 0, w, 1, [(0, List.replicate 1024 0, false)], 0, false, none⟩
def strRun : State :=
  (((strOn.put STR_QCFG_depth 0 17 0 0).modEng 0 fun e => { e with slots := [remote] }).modQ 0 0 fun q => { q with bound := some 7, tokens := 17 * 65536 })
def strDone (w : Option Tile) : State := strRun.modQ 0 0 fun q => { q with xfers := [xfer w], next := 1 }

theorem witness_stream_start : strRun.get STR_CTL_en 0 0 = 1 ∧ strRun.strPick 0 0 = some 0 ∧
    strRun.strReady 0 0 = some (remote, (0, none, 0), [⟨0, 0x1000000000, 16, [], beAll⟩]) ∧ (strRun.q 0 0).role < 2 ∧ (strRun.cl 0).rr.length = 2 ∧
    lands (strRun.resolve 0 (.stream false) 0x1000000000 1024) (.mem 0x1000000000) = true ∧ isHbm 0x1000000000 = true ∧ ready.get STR_CTL_en 0 1 = 0 := by
  decide +kernel

theorem witness_stream_done : let s := strDone none
    let x : Tile := ⟨0, 0xFF, 0, true, false, [], []⟩
    (s.q 0 0).xfers.find? (fun t => t.id == 3) = some (xfer none) ∧ (s.q 0 0).bound = some 7 ∧ s.sk 0 7 = some remote ∧ (xfer none).n ≤ (xfer none).done.length ∧
    remote.takes = true ∧ (∀ y ∈ (s.q 0 0).xfers, y.dropped = true ∨ (xfer none).tile ≤ y.tile) ∧ s.feedRoom 0 remote false = true ∧ (s.q 0 0).role = 0 ∧
    ((strDone (some x)).q 0 0).xfers.find? (fun t => t.id == 3) = some (xfer (some x)) := by decide +kernel

/-- A halted queue: on a page that is absent, and on a host page that grants the read now. -/
def halted : State :=
  (((strRun.put STR_QSTAT_halt_reason 0 0x0225 0 0).wreg STR_QADDR 0 0 0 0x1000000000).modQ 0 0 fun q => { q with halted := true })
def haltedHost : State :=
  { (strRun.wreg STR_QADDR 0 0 0 (2 ^ 63)).modQ 0 0 fun q => { q with halted := true, prs := true } with
    pcie := { Pcie.init with atc := [(0, 0, true, false)], asked := [(0, 5)], prs := [⟨1, .retry 0 0 0, 0, 0, false, false, none⟩] } }

theorem witness_halted : (halted.q 0 0).halted = true ∧ (halted.q 0 0).bound = some 7 ∧ halted.sk 0 7 = some remote ∧ halted.presenceHalt 0 0 = true ∧
    (halted.q 0 0).retrying = false ∧ (halted.q 0 0).again = none ∧ (halted.q 0 0).role < 2 ∧ remote.ended = false ∧ halted.get STR_QCNT_retries 0 0 0 < 65535 ∧
    lands (halted.resolve 0 (.stream false) (halted.rreg STR_QADDR 0 0 0) 64) (.mem 0x1000000000) = true ∧ haltedHost.presenceHalt 0 0 = false ∧
    haltedHost.strGranted 0 0 = true ∧ remote.reason = 0 ∧ (halted.cl 0).faulted = 0 ∧ (strRun.q 0 0).halted = false ∧
    (let s := { haltedHost with pcie := { haltedHost.pcie with atc := [] } }; s.strGranted 0 0 = false) := by decide +kernel

/-- A halted sink queue that keeps a tile of HBM3 to be written again. -/
def sinking : Skein :=
  { remote with w := remote.w.set 4 0x1000000000, dstLocal := false, sinkN := 1, sinkOut := 1 }
def haltedSink : State :=
  ((((strOn.put STR_QSTAT_halt_reason 0 0x0225 0 0).wreg STR_QADDR 0 0 0 0x1000000000).modEng 0 fun e => { e with slots := [sinking] }).modQ 0 0 fun q =>
    { q with bound := some 7, role := 2, halted := true,
             xfers := [⟨3, 0, some ⟨0, 0xFF, 0, true, false, List.replicate 1024 1, []⟩, 16, [], 1, false, some 0⟩] })

theorem witness_halted_sink : (haltedSink.q 0 0).halted = true ∧ (haltedSink.q 0 0).bound = some 7 ∧ haltedSink.sk 0 7 = some sinking ∧
    haltedSink.presenceHalt 0 0 = true ∧ (haltedSink.q 0 0).retrying = false ∧ sinking.ended = false ∧ haltedSink.get STR_QCNT_retries 0 0 0 < 65535 ∧
    (haltedSink.q 0 0).role = 2 ∧ dMode sinking.w = 0 ∧
    ((haltedSink.q 0 0).again.map fun r =>
      (writePieces r.2.1 0 (sinkAddr sinking.w r.1.tile) (compAddr sinking.w (sinkAddr sinking.w 0) r.1.tile) (haltedSink.get STR_QPOS_block 0 0 0)).map Piece.addr)
      = some [0x1000000000] ∧
    lands (haltedSink.resolve 0 (.stream true) 0x1000000000 64) (.mem 0x1000000000) = true ∧ isHbm 0x1000000000 = true := by decide +kernel

theorem witness_host_pages : let a : HostAcc := ⟨.retry 0 0 0, 0, 0, 0, 5 * 4096, .read 64⟩
    let s := { haltedHost with pcie := { haltedHost.pcie with waits := [a] } }
    s.pcie.prs[0]? = some ⟨1, .retry 0 0 0, 0, 0, false, false, none⟩ ∧ (s.q 0 0).halted = true ∧ (s.q 0 0).prs = true ∧ (s.q 0 0).bound = some 7 ∧
    s.sk 0 7 = some remote ∧ (0, 5) ∈ s.pcie.asked ∧ (0, 6) ∉ s.pcie.asked ∧ haltedHost.pcie.waits = [] ∧ a.iova / 4096 = 5 ∧ grants true false a.op = true ∧ remote.ended = false ∧ remote.reason = 0 ∧
    (s.q 0 0).role < 2 ∧ (s.cl 0).faulted = 0 := by decide +kernel

/-! ### Bales, adapters and the resident pool -/

/-- A request on a mailbox: type, payload length, handle, payload. -/
def request (ty handle : Nat) (pay : List Byte) : List Byte :=
  leBytes 2 ty ++ leBytes 2 0 ++ leBytes 2 (32 + pay.length) ++ leBytes 2 0 ++ leBytes 8 handle ++ List.replicate 16 0 ++ pay
/-- The mailbox holds an accepted request. -/
def asked (s : State) (b : Nat) (r : List Byte) : State := s.modBox b fun _ => ⟨r, [], 1⟩

/-- Partition 0 owns croft 0, with one bound PASID. -/
def parted : State :=
  (((((ready.put PRT_PART_CTL_state 0 2 0).put PRT_PART_CTL_crofts 0 1 0).put PRT_CROFT_assigned 0 1 0).put PRT_CROFT_partition 0 0 0).wreg
    PRT_PART_PASID 0 0 0 (2 ^ 20 + 9)).modPart 0 fun x =>
    { x with payload := List.replicate 64 0 ++ leBytes 4 (2 ^ 31 + 9) ++ List.replicate 60 0 }

/-- An instance that is being loaded, and one that is. -/
def inst : Inst := ⟨9, 0, 2, 77, [], [], 9, 0, 1, false, false, false, false, 0, 0, [], [], []⟩
def held : Inst := { inst with loaded := true, hold := 2 }
def ver : Ver := ⟨0, 3, 32, 8, 0, 1024, 0, 1, [], [], true, 1, 0, 0, false, 0, 0, [], false, false, 0, []⟩
def contract : Contract := ⟨20, 0, 5, 3, 1, 4, [40]⟩
def record : Rec := ⟨0, 5, 3, 4, 1, 0, none, 0, 0, [], 0, 1024, none, false, 0, [], [], [], [], [], 0⟩
/-- Partition 0 with an instance, a served version, a contract and an adapter. -/
def pooled : State :=
  parted.modSys fun x => { x with insts := [held], vers := [ver], contracts := [contract], dir := [(1, record)], dirGen := [(1, 1)], nextHandle := 30 }

theorem witness_bale_load : let r := request 0x0131 0 (leBytes 8 0 ++ leBytes 4 512 ++ leBytes 4 0)
    let s := asked parted 1 r
    (s.box 1).stage = 1 ∧ (s.box 1).req = r ∧ mType r = 0x0131 ∧ mHandle r = 0 ∧ mPay r 12 1 = 0 ∧ mPay r 14 2 = 0 ∧ boxOwner 1 = 0 ∧
    s.partExists 0 = true ∧ bTotal [] ≤ 256 * 2 ^ 20 ∧ leAt [] 0 4 ≠ 0x454C4142 ∧ (s.pasidSlot 0 0).2 = true ∧ s.opBusy 0 1 = false ∧
    (asked (pooled.modSys fun x => { x with insts := [inst] }) 1 r).opBusy 0 1 = true ∧ mHandle (request 0x0131 4 []) ≠ 0 ∧
    (let u := s.put PRT_PART_CTL_state 0 0 0; u.partExists 0 = false ∧ (u.pasidSlot 0 0).2 = true) ∧
    256 * 2 ^ 20 < mPay (request 0x0131 0 (leBytes 8 0 ++ leBytes 4 (2 ^ 28 + 1) ++ leBytes 4 0)) 8 4 := by decide +kernel

theorem witness_bale_first_check :
    ∃ x, ((asked parted 1 []).loadChecks 0 512 [])[1]? = some x ∧ x.1 = false ∧ ∀ y ∈ ((asked parted 1 []).loadChecks 0 512 []).take 1, y.1 = true :=
  ⟨(false, 0x0111), by decide +kernel, rfl, by decide +kernel⟩

/-- A manifest that holds granule 0 of every cluster of one croft, without ops or queues, and a bale with it, without code or data. -/
def goodMan : List Byte :=
  leBytes 2 1 ++ leBytes 1 1 ++ leBytes 1 1 ++ List.replicate 60 0 ++ (List.replicate 100 (leBytes 16 1)).flatten ++ List.replicate 8 0
def goodHead : List Byte :=
  let sec := fun (ty off len : Nat) => leBytes 8 ty ++ leBytes 8 off ++ leBytes 8 len ++ List.replicate 72 0
  leBytes 4 0x454C4142 ++ leBytes 2 1 ++ leBytes 2 1728 ++ leBytes 1 0xA1 ++ leBytes 1 1 ++ leBytes 1 1 ++ leBytes 1 3 ++ leBytes 4 0 ++ leBytes 8 77 ++ leBytes 8 5 ++
  leBytes 8 6784 ++ List.replicate 88 0 ++ sec 1 1728 1672 ++ sec 2 3456 128 ++ sec 3 3584 3200 ++ List.replicate (1728 - 416) 0
def goodBale : List Byte :=
  goodHead ++ goodMan ++ List.replicate 56 0 ++ (leBytes 2 1 ++ leBytes 2 0xA1 ++ List.replicate 124 0) ++ List.replicate 3200 0
def goodState : State :=
  (asked (parted.modSys fun x => { x with keys := [⟨0, 5, []⟩] }) 1 (request 0x0131 0 (leBytes 8 0 ++ leBytes 4 6784 ++ leBytes 4 0)))

theorem good_man : bMan goodBale = goodMan := by decide +kernel

theorem good_map : (bFind goodBale 3).bytes goodBale = List.replicate 3200 0 := by decide +kernel

theorem good_pools : bPool goodBale 4 = [] ∧ bPool goodBale 5 = [] ∧ bPool goodBale 6 = [] ∧ bPool goodBale 7 = [] := by decide +kernel

theorem good_grans : ∀ a < 100, mGrans goodMan a = 1 := by decide +kernel

theorem leAt_zeros (N k n : Nat) : leAt (List.replicate N (0 : Byte)) k n = 0 := by
  have h : ∀ m, leNat (List.replicate m (0 : Byte)) = 0 := by
    intro m
    induction m with
    | zero => rfl
    | succ m ih => rw [List.replicate_succ, leNat, ih]; rfl
  simp only [leAt, slice, List.drop_replicate, List.take_replicate, List.length_replicate, List.replicate_append_replicate, h]

theorem good_clus : ∀ a < 100, cluOk goodBale a = true := by
  intro a ha
  simp only [cluOk, bClu, good_man, good_map, good_pools.1, good_pools.2.1, good_pools.2.2.1, good_pools.2.2.2, good_grans a ha, leAt_zeros]
  decide +kernel

theorem good_head : baleHeadOk goodBale 6784 = true ∧ bCrofts goodBale = 1 := by decide +kernel

theorem good_form : manOk goodBale = true ∧ schedOk goodBale = true ∧ (bFind goodBale 3).len = 3200 := by decide +kernel

theorem good_sched : bSched goodBale = leBytes 2 1 ++ leBytes 2 0xA1 ++ List.replicate 124 0 := by decide +kernel

theorem witness_bale_good (hv : ∀ a b c, Config.edVerify a b c = true) (hs : ∀ t, secMatches goodBale t = true) :
    (∀ y ∈ goodState.loadChecks 0 6784 goodBale, y.1 = true) ∧ (goodState.box 1).stage = 1 ∧ mType (goodState.box 1).req = 0x0131 ∧
    mPay (goodState.box 1).req 8 4 = 6784 ∧ goodState.opBusy 0 1 = false ∧ goodState.partExists 0 = true ∧ (goodState.pasidSlot 0 0).2 = true := by
  refine ⟨?_, by decide +kernel⟩
  have hf : formOk goodBale = true := by
    simp only [formOk, good_form.1, good_form.2.1, good_form.2.2, good_head.2, List.all_eq_true, List.mem_range, Bool.and_eq_true]
    exact ⟨⟨by decide, by decide⟩, fun a ha => good_clus a (by omega)⟩
  have hg : ((goodState.aliases 0).all fun a => (List.range 120).all fun g => !(nbit (mGrans goodMan a) g) || !(goodState.granFixed 0 a g)) = true := by
    have hb : ∀ a < 100, goodState.granFixed 0 a 0 = false := by decide +kernel
    have ha : goodState.aliases 0 = List.range 100 := by decide +kernel
    have hn : ∀ g < 120, g ≠ 0 → nbit 1 g = false := by decide
    simp only [ha, List.all_eq_true, List.mem_range, Bool.or_eq_true, Bool.not_eq_true']
    intro a h g hg
    by_cases h0 : g = 0
    · exact .inr (h0 ▸ hb a h)
    · exact .inl (by rw [good_grans a h]; exact hn g hg h0)
  simp only [State.loadChecks, good_head.1, hv, hs, hf, good_man, hg, good_head.2, State.rateChecks, State.allQs, State.apart, adpCovered, State.pagesOk, good_sched]
  decide +kernel

/-- A bale with a manifest that holds granule 3 of alias cluster 0. -/
def lendBale : List Byte :=
  List.replicate 11 0 ++ [1] ++ List.replicate 116 0 ++ leBytes 8 1 ++ leBytes 8 256 ++ leBytes 8 80 ++ List.replicate 168 0 ++ leBytes 16 8
/-- An adapter's copy in granule 3, which a lease holds, stands in the way of a load. -/
def crowded : State :=
  parted.modSys fun x => { x with insts := [{ inst with bale := lendBale }], dir := [(1, { record with copy := some (3, 1), leases := 1 })] }
/-- The same instance with nothing in its way, in a partition that has no croft, and where MAT0 of cluster 0 holds an undefined op. -/
def loading : State := parted.modSys fun x => { x with insts := [inst] }
def bare : State := loading.put PRT_PART_CTL_crofts 0 0 0

theorem witness_bale_phase2 : loading.instAt 9 = some inst ∧ inst.loaded = false ∧ inst.setup = false ∧ loading.instAt 10 = none ∧ pooled.instAt 9 = some held ∧
    (let s1 := crowded.modInst 9 fun i => { i with hold := 1 }
     (((crowded.occupants { inst with bale := lendBale }).foldl (fun (s : State) k => s.drainCopy k) s1).allHeld { inst with bale := lendBale }) = false) ∧
    loading.allHeld inst = true ∧ bSections inst.bale = [] ∧ (∀ j ∈ loading.instsOf 0, j.handle = 9 ∨ j.loaded = false) ∧
    (let u := parted.modSys fun x => { x with insts := [inst, { held with handle := 10 }] }; ∃ j ∈ u.instsOf 0, j.handle ≠ 9 ∧ j.loaded = true) ∧
    (let s1 := bare.modInst 9 fun i => { i with hold := 1 }
     let s2 := (s1.aliases 0).foldl (fun (s : State) a => s.wipeMask (s.aliasClu 0 a) (mGrans (bMan inst.bale) a)) (s1.modInst 9 fun i => { i with hold := 2 })
     (untilRefused (fun (s : State) a => s.loadClu inst a) (s2.aliases 0) s2).2 = 0) := by decide +kernel

theorem witness_bale_refused :
    let s1 := (loading.wreg MAT_OPA 0 0 0 0xFFFFFFFFFFFFFFFF).modInst 9 fun i => { i with hold := 2 }
    (untilRefused (fun (s : State) a => s.loadClu inst a) (s1.aliases 0) s1).2 ≠ 0 ∧
    (untilRefused (fun (s : State) a => s.loadLast inst a) (s1.aliases 0) s1).2 ≠ 0 := by decide +kernel

/-- Two sections with the same bytes and different digests: one of them does not match. -/
def twinBale : List Byte :=
  List.replicate 11 0 ++ [2] ++ List.replicate 116 0 ++ (leBytes 8 1 ++ List.replicate 24 0 ++ List.replicate 64 1) ++ (leBytes 8 2 ++ List.replicate 24 0 ++ List.replicate 64 2)

theorem witness_bale_digest : ∃ x ∈ bSections twinBale, secMatches twinBale x.ty = false := by
  have h1 : (bFind twinBale 1).bytes twinBale = [] := by decide +kernel
  have h2 : (bFind twinBale 2).bytes twinBale = [] := by decide +kernel
  have d : (bFind twinBale 1).digest ≠ (bFind twinBale 2).digest := by decide +kernel
  have m1 : ∃ x ∈ bSections twinBale, x.ty = 1 := by decide +kernel
  have m2 : ∃ x ∈ bSections twinBale, x.ty = 2 := by decide +kernel
  obtain ⟨x, hx, e1⟩ := m1
  obtain ⟨y, hy, e2⟩ := m2
  by_cases k : secMatches twinBale 1 = true
  · refine ⟨y, hy, ?_⟩
    simp only [secMatches, h1, beq_iff_eq] at k
    simp only [e2, secMatches, h2, beq_eq_false_iff_ne, ne_eq]
    intro z; exact d (k.symm.trans z)
  · exact ⟨x, hx, by simpa [e1] using k⟩

theorem witness_instances : let s := bare.modSys fun x => { x with insts := [{ inst with setup := true }] }
    let u := pooled
    let r := request 0x0132 9 []
    s.instAt 9 = some { inst with setup := true } ∧ s.inGap 0 = true ∧
    (untilRefused (fun (s : State) a => s.loadLast { inst with setup := true } a) (s.aliases 0) (s.clusOff (s.partClus 0))).2 = 0 ∧
    (running skein).inGap 0 = true ∧ ((running skein).put PRT_PART_CTL_crofts 0 1 0).inGap 0 = false ∧
    (asked u 1 r).unloadInst 1 r = some held ∧ (asked pooled 1 r).unloadInst 2 r = none ∧ (asked u 1 r).opBusy 0 1 = false ∧
    (asked (parted.modSys fun x => { x with insts := [held, { inst with handle := 10 }] }) 1 r).opBusy 0 1 = true ∧ held.cls = 2 ∧
    (let s1 := ((asked u 1 r).beSettle 0).mbxKeep 1
     s1.instActive held = false ∧ (s1.stopCtx (s1.heldBy 9)).ctxDrained (s1.heldBy 9) = true ∧ (s1.stopCtx (s1.heldBy 9)).othersQuiet held = true) := by
  decide +kernel

/-- A skein whose ADP stage runs an op of a kind. -/
def adpStage : Stage := { stage with stn := 0x14, op := 0, acc := [0], idx := [2], p0 := [⟨0, 0xFF, 0, false, false, List.replicate 1024 0, []⟩] }
def adpSkein : Skein := { skein with w := [5 + 16 * 2 ^ 32 + 0xFFFF * 2 ^ 48, 0x14 + 0x1F * 2 ^ 16 + 0x1F * 2 ^ 32 + 0x1F * 2 ^ 48] ++ desc.drop 2, stages := [adpStage] }
def adpOn (kind rank : Nat) : State :=
  ((running adpSkein).wreg ADP_OP 0 0 0 (1 + 2 * kind + 8)).modCl 0 fun x => { x with adp := tset AdpEntry.unused x.adp 2 ⟨0, 0, rank, 0, 0, 0⟩ }

theorem witness_adapter_station : ready.stnHeld 0 0x14 = false ∧ ready.get ADP_CTL_en 0 = 0 ∧ firstFail (adpChecks 0 ready) ≠ 0 ∧
    ((adpOn 0 4).adpAt 0 7 0).isSome = true ∧ (∀ b ∈ chunks 16 64 (List.replicate 1024 0), adpEntryOk b = true) ∧
    adpEntryOk (List.replicate 16 1) = false ∧ ((adpOn 0 4).cl 0).faulted = 0 ∧ (running adpSkein).stnHeld 0 0x14 = true ∧
    firstFail (adpChecks 0 strOn) = 0 ∧ firstFail (adpChecks 0 ready) = 0x0D11 ∧ firstFail (adpChecks 0 (strOn.wreg ADP_OP 0 15 0 7)) = 0x0D12 ∧
    firstFail (adpChecks 0 (strOn.wreg ADP_OP 0 15 0 (1 + 2 + 8 + 32))) = 0x0D13 ∧ adpStage.p0.length = 1 ∧
    (∃ b ∈ chunks 16 64 (List.replicate 1024 (1 : Byte)), adpEntryOk b = false) := by decide +kernel

theorem witness_adapter_fetch : (adpOn 1 4).adpAt 0 7 1 = some (adpSkein, 0, adpStage, 11) ∧ ((adpOn 2 4).adpAt 0 7 2).isSome = true ∧ adpStage.p1 = [] ∧
    0 < adpRows adpSkein 0 adpStage 11 ∧ adpStage.rowIdx 0 ≠ 0xFFFF ∧ adpStage.runStart 0 = 0 ∧ (adpOn 1 4).adpRowCode 0 2 = 0 ∧ (adpOn 1 0).adpRowCode 0 2 ≠ 0 ∧
    ((adpOn 1 4).cl 0).adpHeld + 4 * adpWt 11 / 8 ≤ 128 ∧ 1 < adpGroup 11 ∧
    128 < (((adpOn 1 4).modCl 0 fun x => { x with adpBuf := [(0, [], false, 128)] }).cl 0).adpHeld + 4 * adpWt 11 / 8 ∧
    ((adpOn 1 4).adpEntry 0 2).rank ≠ 0 ∧ ((adpOn 1 4).adpEntry 0 2).tag = (adpOn 1 4).get ADP_BASE_tag 0 ∧ ((adpOn 1 0).adpEntry 0 2).rank = 0 ∧
    ((adpOn 1 4).adpEntry 0 2).tag ≠ ((adpOn 1 4).put ADP_BASE_tag 0 1).get ADP_BASE_tag 0 ∧ adpStage.takeIndex.grp.length + 1 < adpGroup 11 ∧
    (let f := fun (v : Nat) => { adpStage with idx := [v] }
     let u := fun (v : Nat) => (running { adpSkein with stages := [f v] }).wreg ADP_OP 0 0 0 11
     (∀ v ∈ [0xFFF, 0x1000, 0xFFFF], (u v).adpAt 0 7 1 = some ({ adpSkein with stages := [f v] }, 0, f v, 11)) ∧ (f 0x1000).takeIndex.rowIdx 0 = 0x1000 ∧
     ∀ i < 1, (f 0xFFFF).takeIndex.rowIdx i = 0xFFFF) := by decide +kernel

theorem witness_contracts : let r := request 0x0141 0 (leBytes 4 5 ++ leBytes 2 3 ++ leBytes 2 1 ++ leBytes 1 4 ++ List.replicate 7 0)
    let big := request 0x0141 0 (leBytes 4 5 ++ leBytes 2 3 ++ leBytes 2 4096 ++ leBytes 1 4 ++ List.replicate 7 0)
    mHandle r = 0 ∧ zeros r 41 7 = true ∧ mPay r 6 2 = 1 ∧ mPay r 8 1 = 4 ∧ pooled.verAt 0 (mPay r 4 2) = some ver ∧ cdiv (4 * 1024) 65536 = 1 ∧
    (pooled.freeRuns 0 1 1 []).isSome = true ∧ mPay big 6 2 = 4096 ∧
    pooled.opBusy 0 1 = false ∧ loading.opBusy 0 1 = true ∧ ver.state = 1 ∧ pooled.sys.nextHandle < 2 ^ 64 ∧
    ((pooled.makeRoom 0 fun t => (t.freeRuns 0 1 1 []).isSome).map fun u => (u.freeRuns 0 1 1 []).isSome) = some true ∧
    (pooled.makeRoom 0 fun t => (t.freeRuns 0 1 100 []).isSome) = none ∧ pooled.verAt 0 4 = none ∧ mHandle (request 0x0141 1 []) = 1 ∧
    ((pooled.pinsOf 20).any fun e => e.2.leases != 0) = false ∧ pooled.contractAt 0 20 = some contract ∧ pooled.contractAt 0 21 = none := by decide +kernel

theorem witness_pins : let r := request 0x0143 20 (leBytes 2 1 ++ leBytes 2 1 ++ leBytes 4 0)
    let pinned := pooled.modSys fun x => { x with dir := [(1, { record with contract := some 20 })] }
    let filling := pooled.modSys fun x => { x with dir := [(1, { record with copy := some (40, 0) })] }
    zeros r 36 4 = true ∧ mHandle r = 20 ∧ pooled.contractAt 0 20 = some contract ∧ pooled.adapter 0 (mPay r 0 2) (mPay r 2 2) = some record ∧
    record.rank ≤ contract.rankMax ∧ (pooled.pinsOf 20).length < contract.pins ∧ pooled.contractRun contract = some 40 ∧
    pinned.adapter 0 1 1 = some { record with contract := some 20 } ∧ contract.pins ≤ (pinned.pinsOf 20).length ∧
    filling.recAt 1 = some { record with copy := some (40, 0) } ∧ 40 + record.grans ≤ 120 ∧ pooled.opBusy 0 1 = false ∧ (record.state = 1 ∧ record.owner = contract.owner ∧
      record.contract = none ∧ record.base = contract.base) ∧
    (∀ c ∈ [none, some (40, 0), some (40, 1), some (40, 2), some (40, 3)], ∀ n < 2,
      let a := { record with copy := c, drainN := n, leases := n }
      let u := pooled.modSys fun x => { x with dir := [(1, a)] }
      u.recAt 1 = some a ∧ u.adapter 0 1 1 = some a) ∧
    (let u := pooled.modSys fun x => { x with dir := [(1, { record with copy := some (40, 1) })] }; u.contractRun contract = none) ∧
    (∀ st < 3, ∀ w < 2, ∀ z < 2, let a := { record with state := st, owner := 5 + w, base := 3 + z, rank := 4 + z }
      (pooled.modSys fun x => { x with dir := [(1, a)] }).adapter 0 1 1 = some a) ∧
    (pinned.modSys fun x => { x with dir := [(1, { record with contract := some 20, leases := 1 })] }).adapter 0 1 1 =
      some { record with contract := some 20, leases := 1 } ∧
    zeros (request 0x0143 20 (leBytes 8 (2 ^ 32))) 36 4 = false ∧ pooled.contractAt 0 0 = none ∧ pooled.adapter 0 1 2 = none := by decide +kernel

/-! ### Home channels -/

/-- Entry 0 of channel 0's update engine, valid and in the update phase, with an empty record. -/
def updOn : State :=
  (((chanOn.put UPD_CTL_en 0 1).put UPD_JOB_CFG_valid 0 1 0).put UPD_JOB_STAT_state 0 3 0)

theorem witness_update_enables : chanOn.get UPD_CTL_en 0 = 0 ∧ chanOn.get HBM_CTL_en 0 = 1 ∧ chanOn.get UPD_TABLE_base 0 + 2 ≤ chUnits ∧ ready.get HBM_CTL_en 0 = 0 ∧
    chUnits < (chanOn.put UPD_TABLE_base 0 (chUnits - 1)).get UPD_TABLE_base 0 + 2 ∧ ready.get UPD_JOB_CFG_valid 0 0 = 0 ∧ updOn.get UPD_CTL_en 0 = 1 ∧
    nfld 1 9 10 = 0 ∧ nfld (1001 * 512) 9 10 = 1001 ∧ nfld 0x21 0 4 = 1 ∧ updOn.get UPD_JOB_CFG_valid 0 0 = 1 ∧ updOn.get UPD_JOB_STAT_state 0 0 = 3 ∧
    addrModule (updOn.get UPD_JOB_ROOT_root_addr 0 0) = updOn.moduleId := by decide +kernel

/-- An optimizer record of a kind over one unit at index 1, exported to index 2. -/
def optRec (kind : Nat) : List Byte :=
  leBytes 2 1 ++ leBytes 1 kind ++ leBytes 17 0 ++ leBytes 4 1 ++ leBytes 4 1 ++ leBytes 4 2 ++ List.replicate 160 0
/-- The unit's reduction record is complete, and no word of it, of the unit or of the record table is poisoned. -/
def unitOn (kind next : Nat) : State :=
  let words := fun n => (List.range 128).map fun i => (chanOffset 0 (2048 * n) + 16 * i, (0 : BitVec 16))
  let s := (updOn.put UPD_TABLE_base 0 3).modUpd 0 0 fun e => { e with recd := if kind = 0 then [] else optRec kind, next := next }
  { s with mem := memPuts [] (chanOffset 0 0) (leBytes 4 0 ++ (List.range 8).flatMap fun _ => leBytes 2 1),
           ecc := words 0 ++ words 1 ++ words 2 ++ words 3 }

theorem witness_unit_update : let s := unitOn 1 0
    let e := s.updE 0 0
    e.recd = optRec 1 ∧ e.next = 0 ∧ rKind (optRec 1) = 1 ∧ rFused (optRec 1) = false ∧ 0 < rUnits (optRec 1) ∧ rRun (optRec 1) + 0 < chUnits ∧
    s.unitComplete 0 0 0 = true ∧ s.chBad 0 (s.redRec 0 0 0 + 320) 1024 = false ∧ s.unitBad 0 2048 (optRec 1) = false ∧
    s.get UPD_JOB_STAT_units_done 0 0 < 2 ^ 32 - 1 ∧ s.get UPD_CTL_en 0 = 1 ∧ s.get UPD_JOB_CFG_valid 0 0 = 1 ∧ s.get UPD_JOB_STAT_state 0 0 = 3 ∧
    s.unitHere 0 0 (optRec 1) 0 false = true ∧ s.get UPD_TABLE_base 0 + 2 ≤ chUnits ∧ s.redRec 0 0 0 + 2048 ≤ chUnits * 2048 ∧
    rRun (optRec 1) + rUnits (optRec 1) ≤ chUnits ∧ rExport (optRec 1) + rUnits (optRec 1) ≤ chUnits ∧ (s.put UPD_CTL_en 0 0).get UPD_CTL_en 0 = 0 ∧
    (s.wreg HBM_PSTATE 0 0 0 1).unitHere 0 0 (optRec 1) 0 false = false ∧
    State.chBad { s with ecc := tset 0 s.ecc (chanOffset 0 (s.redRec 0 0 0 + 320)) poisonDelta } 0 (s.redRec 0 0 0 + 320) 1024 = true ∧
    (∀ n < 5, rKind (optRec n) = n) ∧ (rFused (optRec 1 |>.set 3 2)) = true := by decide +kernel

theorem witness_unit_poisoned : let t := { unitOn 1 0 with ecc := tset 0 (unitOn 1 0).ecc (chanOffset 0 2048) poisonDelta }
    t.unitBad 0 2048 (optRec 1) = true ∧ t.unitComplete 0 0 0 = true := by decide +kernel

theorem witness_unit_export : rKind (optRec 5) = 5 ∧ (unitOn 5 7).unitComplete 0 0 0 = true ∧ ((unitOn 5 7).updE 0 0).exported = 0 ∧
    ((unitOn 5 7).updE 0 0).apply = false ∧ ((unitOn 5 7).updE 0 0).recd = optRec 5 ∧ (unitOn 5 7).unitHere 0 0 (optRec 5) 0 true = true ∧
    (let s := (unitOn 5 0).modUpd 0 0 fun e => { e with apply := true, exported := 1 }
     (s.updE 0 0).apply = true ∧ (s.updE 0 0).next = 0 ∧ s.unitHere 0 0 (optRec 5) 0 false = true ∧ s.chBad 0 2048 1024 = false ∧ s.chBad 0 4096 2048 = false ∧
     s.chBad 0 (s.redRec 0 0 0 + 320) 1024 = false) := by decide +kernel

theorem witness_unit_record : let s := unitOn 0 0
    (s.updE 0 0).recd = [] ∧ (s.updE 0 0).next = 0 ∧ (s.updE 0 0).exported = 0 ∧ s.chBad 0 (s.recEntry 0 0) 128 = false ∧
    s.chBad 0 (s.recEntry 0 0 + 128 + 64 * (s.get UPD_JOB_STEP_txn_step 0 0 % 2)) 64 = false ∧
    (let u : State := { s with mem := memPuts s.mem (chanOffset 0 6144) (optRec 6) }; firstFail (recChecks (u.recBytes 0 0 0) 0) ≠ 0) ∧ s.chHere 0 (s.recEntry 0 0) 256 = true ∧ (s.wreg HBM_PSTATE 0 0 0 1).chHere 0 (s.recEntry 0 0) 256 = false ∧
    (let u := { s with ecc := tset 0 s.ecc (chanOffset 0 (s.recEntry 0 0)) poisonDelta }; u.chBad 0 (u.recEntry 0 0) 128 = true) := by decide +kernel

theorem witness_rank_wait : let s := ({ unitOn 1 0 with mem := [] }).put UPD_JOB_STAT_state 0 1 0
    s.get UPD_JOB_STAT_state 0 0 = 1 ∧ s.get UPD_JOB_CFG_valid 0 0 = 1 ∧
    (let u : State := { s with mem := memPuts (memPuts [] (chanOffset 0 0) (leBytes 4 0 ++ leBytes 2 1 ++ leBytes 14 0)) (chanOffset 0 6144) (optRec 1) }
     0 < u.runUnits 0 0 ∧ u.unitPartial 0 0 0 = true ∧ addrModule (u.rootAddr 0 0) = u.moduleId) ∧
    (let u : State := { s with mem := memPuts [] (chanOffset 0 6144) (leBytes 24 0) }; u.runUnits 0 0 = 0) := by decide +kernel

theorem witness_job_valid : let s : State := { ((unitOn 1 0).put UPD_JOB_CFG_red_base 0 8 0).put UPD_JOB_CFG_valid 0 0 0 with mem := memPuts [] (chanOffset 0 6144) (optRec 5) }
    s.get UPD_JOB_CFG_valid 0 0 = 0 ∧ firstFail (updJobChecks 0 0 (s.plainBut UPD_JOB_CFG_valid 0 0 0 (1 + 1000 * 512))) = 0 ∧ nfld 3 0 4 = 3 ∧
    (let u : State := { s with mem := memPuts [] (chanOffset 0 6144) (optRec 1) }; firstFail (updJobChecks 0 0 (u.plainBut UPD_JOB_CFG_valid 0 0 0 513)) ≠ 0) ∧
    s.chNum 0 (s.recEntry 0 0 + 2) 1 = 5 ∧ (updOn.put UPD_JOB_STAT_state 0 7 0).get UPD_JOB_STAT_state 0 0 = 7 := by decide +kernel

/-! ### Lokel -/

/-- Link 0 up on module 0; a message header word for module 0 from module 2. -/
def linkUp : State := ready.put LNK_CTL_state 0 2
def header (dst opcode ttag : Nat) : Nat := mkHdr dst 2 opcode 0 0x0402 0 ttag 1
/-- A message of an opcode, without data blocks, or with b of them. -/
def messageAt (addr dst opcode b oseq opf : Nat) (n : Nat) : RxMsg :=
  ⟨1, header dst opcode 5, ((chunks 16 (2 + 4 * n + 1) (leBytes 8 addr ++ leBytes 4 oseq ++ leBytes 4 b ++ leBytes 8 0 ++ leBytes 8 opf ++ List.replicate (64 * n + 16) 0)).map
    fun w => (w, false)), 0, cdiv (48 + 64 * n) 224, true, false, 0, 0, (0, 0, 0)⟩
def message : Nat → Nat → Nat → Nat → Nat → Nat → RxMsg := messageAt (2 ^ 62)
/-- The message stands in link 0's receive buffer, and key slot 1 holds the key of its span. -/
def received (m : RxMsg) : State := { linkUp.modLink 0 fun x => { x with rx := [m] } with keys := [(1, ⟨[], 0x0402, 1, true, true, []⟩)] }

theorem witness_links : let s := linkUp
    s.get LNK_CTL_en 0 = 0 ∧ nfld 1 16 16 = 0 ∧ firstFail (linkChecks 0 (s.plainBut LNK_CTL_en 0 0 0 1)) = 0x0711 ∧ s.get LNK_CTL_state 0 = 2 ∧
    s.get LNK_STAT_retrains 0 < 65535 ∧ (ready.put LNK_CTL_state 0 1).get LNK_CTL_state 0 = 1 ∧ (ready.put LNK_CTL_state 0 3).get LNK_CTL_state 0 = 3 ∧
    (s.link 0).joinDue = [] ∧ s.get LNK_MODULE_route_en (dieLink 0) = 0 ∧ (s.put LNK_MODULE_route_en 0 1).get LNK_MODULE_route_en (dieLink 0) = 1 ∧
    nfld 0 0 12 = s.get LNK_MODULE_id (dieLink 0) ∧ routeOk 0 5 0 = true ∧ routeOwn 0 5 0 = true ∧ routeOk 0 5 (2 ^ 64 - 1) = false ∧ routeOwn 0 0 1 = false ∧
    routeOk 0 0 1 = true ∧ (s.put LNK_CTL_state 0 4).get LNK_CTL_state 0 = 4 ∧ (s.link 0).ready = [] ∧ (s.link 0).wire.length + (s.link 0).replay.length ≤ 256 ∧
    nfld 1 0 12 ≠ s.get LNK_MODULE_id (dieLink 0) := by decide +kernel

/-- A link whose limits pass the checks of an enable, on an I/O die whose routes do. -/
def linkSet : State :=
  (((((ready.wreg LNK_RSV 0 0 0 1).put LNK_TIMEOUT_txn_us 0 1000).put LNK_TIMEOUT_prune_us 0 1).put LNK_MODULE_route_en 0 1).wreg LNK_ROUTE 0 0 0 0x11F)

theorem witness_link_enable : linkSet.get LNK_CTL_en 0 = 0 ∧ firstFail (linkChecks 0 (linkSet.plainBut LNK_CTL_en 0 0 0 (1 + 999 * 65536))) = 0 ∧
    (linkSet.put LNK_MODULE_route_en 0 0).get LNK_MODULE_route_en 0 = 0 := by decide +kernel

theorem witness_route_enable : firstFail (routeChecks 0 ((linkSet.put LNK_MODULE_route_en 0 0).plainBut LNK_MODULE_route_en 0 0 0 (2 ^ LNK_MODULE_route_en.lo))) = 0 ∧
    firstFail (routeChecks 0 (ready.plainBut LNK_MODULE_route_en 0 0 0 0)) ≠ 0 := by decide +kernel

/-- A single flit with its CRC; a control flit. -/
def flit (ty lseq : Nat) : List Byte :=
  let b := leBytes 16 (ty + 1 * 16 + lseq * 256) ++ List.replicate 252 0
  b ++ leBytes 4 (crc32c b)

set_option maxRecDepth 100000 in
theorem witness_flits : leAt (flit 5 0) 268 4 = crc32c (slice (flit 5 0) 0 268) ∧ fType (flit 5 0) = 5 ∧ fLseq (flit 5 0) = 0 ∧ fLseq (flit 5 4095) = 4095 ∧
    fAckValid (flit 5 0) = false ∧ fNack (flit 5 0) = false ∧ fType (flit 1 0) = 1 ∧ leAt (List.replicate 272 0) 268 4 ≠ crc32c (slice (List.replicate 272 0) 0 268) ∧
    (linkUp.link 0).ackSeq = none ∧ tget [] (linkUp.link 0).part (linkUp.flitRsv 0 (flit 5 0)) = [] ∧ linkUp.get LNK_ERR_CNT_crc_fail 0 < 2 ^ 32 - 1 ∧
    (linkUp.link 0).stored < 1024 ∧ fType (flit 2 0) = 2 ∧ fType (flit 3 0) = 3 ∧ fType (flit 4 0) = 4 ∧
    1024 ≤ ((linkUp.modLink 0 fun x => { x with rx := List.replicate 147 ⟨1, 0, [], 0, 7, true, false, 0, 0, (0, 0, 0)⟩ }).link 0).stored := by
  decide +kernel

/-- A flit that asks for replay, and a sent flit that is not acknowledged. -/
def nackFlit : List Byte :=
  let b := leBytes 16 (5 + 1 * 16 + 2 ^ 33) ++ List.replicate 252 0
  b ++ leBytes 4 (crc32c b)
def sentFlit (lseq n : Nat) : Flit := ⟨5, 1, 0, [], 0, lseq, n, true⟩

set_option maxRecDepth 100000 in
theorem witness_nack : let s := linkUp.modLink 0 fun x => { x with replay := [sentFlit 0 0, sentFlit 1 7] }
    leAt nackFlit 268 4 = crc32c (slice nackFlit 0 268) ∧ fNack nackFlit = true ∧ (s.link 0).replay ≠ [] ∧ s.get LNK_ERR_CNT_replays 0 < 2 ^ 32 - 1 ∧
    ((s.link 0).replay.any fun f => decide (7 ≤ f.resent)) = true ∧ ackReplay (s.link 0).replay 0 = [sentFlit 1 7] := by
  decide +kernel

theorem witness_forward : let m := message 3 2 1 0 0 1
    (received m).rxHead 0 0 = some m ∧ m.dst ≠ (received m).moduleId ∧ m.opcode ≠ 5 ∧ m.hopByHop = false ∧ (received m).route (linkDie 0) m.dst = none ∧
    isRequest m.opcode = false ∧ (received m).get LNK_DROP_CNT_route 0 < 65534 ∧ m.cut = 0 := by decide +kernel

theorem witness_forward_routed : let m := { message 3 2 1 0 0 1 with hdr := mkHdr 3 2 2 2 0x0402 0 5 1 }
    let s := ((((((received m).put LNK_MODULE_route_en 0 1).wreg LNK_ROUTE 0 0 0 ((1 + 1 * 32 + 256) * 2 ^ 48)).put LNK_RSV_valid 1 1 4).put LNK_RSV_class 1 1 4).put LNK_RSV_span 1 0x0402 4).put
      LNK_CTL_state 1 2
    s.rxHead 0 0 = some m ∧ m.dst ≠ s.moduleId ∧ s.route (linkDie 0) m.dst = some (1, hHops m.hdr - 1) ∧ 1 ≤ hHops m.hdr ∧ s.rsvOf 1 m.span m.cls = some 4 ∧
    s.get LNK_CTL_state 1 = 2 ∧ 1 < 24 ∧ m.cut = 0 ∧ (s.put LNK_CTL_state 1 3).get LNK_CTL_state 1 = 3 ∧ (s.put LNK_CTL_state 1 4).get LNK_CTL_state 1 = 4 ∧
    (s.put LNK_RSV_valid 1 0 4).rsvOf 1 m.span m.cls = none ∧
    (let f : Flit := ⟨2, 1, m.hdr, [], 0, 0, 0, true⟩
     let u := s.modLink 0 fun x => { x with rx := [], part := [(0, [f])] }
     u.rxHead 0 0 = none ∧ tget [] (u.link 0).part 0 = [f] ∧ hDst f.hdr ≠ u.moduleId ∧ hOpcode f.hdr ≠ 5 ∧ hOpcode f.hdr ≠ 0x10 ∧
     (tget (0, 0, 0, 0) (u.link 0).cuts 0).1 = 0 ∧ u.route (linkDie 0) (hDst f.hdr) = some (1, hHops f.hdr - 1) ∧ u.rsvOf 1 (hSpan f.hdr) f.cls = some 4 ∧
     (u.modLink 0 fun x => { x with part := [] }).rxHead 0 0 = none) := by decide +kernel

/-- A message that has its key and hops passes the checks of an answer, whatever the cipher is, if its tag verifies. -/
theorem ansCheck_of (s : State) (l : Nat) (m : RxMsg) (k : KeySlot) (p : List Byte) (h1 : hHops m.hdr = 0) (h2 : m.valid = true)
    (h3 : tfind s.keys m.key = some k) (h4 : k.span = m.span) (h : ∀ a b c d e, Config.gcmOpen a b c d e = some p) : s.ansCheck l m = (s, some p) := by
  simp [State.ansCheck, State.lokOpen, h1, h2, h3, h4, h]

/-- The same for a request that has passed its stream check before. -/
theorem reqCheck_of (s : State) (l : Nat) (m : RxMsg) (k : KeySlot) (p : List Byte) (h1 : hHops m.hdr = 0) (h2 : m.valid = true)
    (h3 : tfind s.keys m.key = some k) (h4 : k.span = m.span) (h : ∀ a b c d e, Config.gcmOpen a b c d e = some p) (h5 : m.passed = true) :
    s.reqCheck l m = (s, some p) := by
  simp [State.reqCheck, State.lokOpen, h1, h2, h3, h4, h, h5]

/-- A read request, a write of one block, an accumulate and a close for the own module, which have passed their stream check. -/
def req (opcode b : Nat) (n : Nat) (opf : Nat) : RxMsg := { message 0 opcode b 3 opf n with passed := true }
def target : TgtStream := ⟨2, 0, 0x0402, 1, 4, 0, false, some 3, 5, 0, 0⟩
def reqState (m : RxMsg) : State := (received m).modLok 0 fun x => { x with tgt := [target] }
/-- The same with croft 0 assigned to a partition of the message's span. -/
def spanState (m : RxMsg) : State := ((reqState m).put PRT_CROFT_assigned 0 1 0).put PRT_CROFT_span 0 0x0402 0

theorem witness_requests (p : List Byte) (h : ∀ a b c d e, Config.gcmOpen a b c d e = some p) :
    (∀ m ∈ [req 1 1 0 0, req 3 1 1 1, req 4 1 1 0, req 9 1 0 0, req 10 0 0 0], (reqState m).rxHead 0 0 = some m ∧ m.dst = (reqState m).moduleId ∧ m.done = 0 ∧
      ((reqState m).tgt (linkDie 0) m).isSome = true) ∧
    (∀ m ∈ [req 1 1 0 0, req 3 1 1 1, req 4 1 1 0, req 9 1 0 0, req 10 0 0 0], (reqState m).reqCheck 0 m = (reqState m, some p)) ∧
    (∀ m ∈ [req 1 1 0 0, req 3 1 1 1, req 4 1 1 0, req 9 1 0 0], (spanState m).remoteCheck m.opcode m.addr m.b 0x0403 m.cls ≠ 0) ∧
    (∀ m ∈ [req 1 1 0 0, req 3 1 1 1, req 9 1 0 0], (spanState m).remoteCheck m.opcode m.addr m.b m.span m.cls = 0 ∧
      (spanState m).boundary (m.addr % 2 ^ 46) = true ∧ (spanState m).pullHeld m = false ∧ (spanState m).inAdmit m = m.b ∧ isHbm (m.addr % 2 ^ 46) = false ∧
      (spanState m).rangeRefuse (m.addr % 2 ^ 46) m.b m.cls (if m.opcode = 3 then .write [] 0 false else .read 64) = none) := by
  refine ⟨by decide +kernel, ?_, by decide +kernel, by decide +kernel⟩
  intro m hm
  have h0 : hHops m.hdr = 0 ∧ m.valid = true ∧ tfind (reqState m).keys m.key = some ⟨[], 0x0402, 1, true, true, []⟩ ∧ 0x0402 = m.span ∧ m.passed = true := by
    revert m; decide +kernel
  exact reqCheck_of _ _ _ _ _ h0.1 h0.2.1 h0.2.2.1 h0.2.2.2.1 h h0.2.2.2.2

/-- A request that names the on-chip window of cluster 1, whose alias map is not enabled, and of the last cluster. -/
theorem witness_alias_refusal : ∀ m ∈ [req 1 1 0 0, req 3 1 1 1, req 4 1 1 0, req 9 1 0 0],
    (spanState m).get CLU_ALIAS_CTL_en 1 = 0 ∧ (spanState m).get PRT_CROFT_span 0 (cluCroft 1) = 0x0402 ∧
    (spanState m).remoteCheck m.opcode (2 ^ 62 + (spanState m).moduleId * 2 ^ 46 + 0x800040) m.b 0x0402 = 0x0723 ∧
    (spanState m).remoteCheck m.opcode (2 ^ 62 + (spanState m).moduleId * 2 ^ 46 + 1599 * 0x800000 + 0x77FFC0) 1 0x0402 = 0x0723 := by
  decide +kernel

/-- Requests that have passed their stream check, at an address. -/
def reqAt (addr opcode b n opf : Nat) : RxMsg := { messageAt addr 0 opcode b 3 opf n with passed := true }

theorem witness_alias_request (p : List Byte) (h : ∀ a b c d e, Config.gcmOpen a b c d e = some p) :
    ∀ m ∈ [reqAt (2 ^ 62 + 0x800040) 1 1 0 0, reqAt (2 ^ 62 + 0x800040) 3 1 1 1, reqAt (2 ^ 62 + 0x800040) 4 1 1 0, reqAt (2 ^ 62 + 0x800040) 9 1 0 0],
      (spanState m).rxHead 0 0 = some m ∧ m.dst = (spanState m).moduleId ∧ (spanState m).reqCheck 0 m = (spanState m, some p) ∧
      (spanState m).remoteCheck m.opcode m.addr m.b m.span m.cls = 0x0723 := by
  intro m hm
  have h0 : hHops m.hdr = 0 ∧ m.valid = true ∧ tfind (spanState m).keys m.key = some ⟨[], 0x0402, 1, true, true, []⟩ ∧ 0x0402 = m.span ∧ m.passed = true ∧
      (spanState m).rxHead 0 0 = some m ∧ m.dst = (spanState m).moduleId ∧ (spanState m).remoteCheck m.opcode m.addr m.b m.span m.cls = 0x0723 := by
    revert m; decide +kernel
  exact ⟨h0.2.2.2.2.2.1, h0.2.2.2.2.2.2.1, reqCheck_of _ _ _ _ _ h0.1 h0.2.1 h0.2.2.1 h0.2.2.2.1 h h0.2.2.2.2.1, h0.2.2.2.2.2.2.2⟩

/-- The same state with HBM3 channel 0 on, a job entry whose run is unit 1, and a record of it. -/
def homeState (m : RxMsg) : State :=
  { ((((((spanState m).put HBM_CTL_trained 0 1).put HBM_CTL_en 0 1).put SEC_HBMKEY_keyed 0 1 0).put UPD_TABLE_base 0 3).put UPD_JOB_CFG_valid 0 1 0).wreg HBM_PSTATE 0 0 0 0 with
    mem := memPuts [] (chanOffset 0 6144) (optRec 5), ecc := (List.range 128).map fun i => (chanOffset 0 6144 + 16 * i, 0) }

theorem witness_requests_hbm : let a := 2 ^ 62 + chanOffset 0 2048
    let rd := reqAt a 1 1 0 0
    let add := reqAt a 4 1 1 (2 ^ 10)
    let lcd := fun (m : RxMsg) (n : Nat) => (homeState m).put LNK_INRSV_depth (dieLink (croftDie 0)) n 0
    rd.cls = 1 ∧ isHbm (rd.addr % 2 ^ 46) = true ∧ (homeState rd).remoteCheck 1 rd.addr rd.b rd.span rd.cls = 0 ∧
    (homeState rd).get LNK_INRSV_depth (dieLink (croftDie (hbmCroft (rd.addr % 2 ^ 46)))) (hbmCroft (rd.addr % 2 ^ 46) % 8) = 0 ∧
    (lcd rd 1).get LNK_INRSV_depth (dieLink (croftDie (hbmCroft (rd.addr % 2 ^ 46)))) (hbmCroft (rd.addr % 2 ^ 46) % 8) = 1 ∧ (lcd rd 1).inAdmit rd = 1 ∧
    ((lcd rd 1).modLok (croftDie 0) fun x => { x with inTok := [(0, 65536)] }).inAdmit rd = 0 ∧ rd.done < rd.b ∧
    (lcd rd 1).boundary (rd.addr % 2 ^ 46) = true ∧ (lcd rd 1).rangeRefuse (rd.addr % 2 ^ 46) 1 1 (.read 64) = none ∧
    ((lcd add 1).remoteCheck 4 add.addr add.b add.span add.cls = 0) ∧ (lcd add 1).rangeRefuse (add.addr % 2 ^ 46) 1 1 (.accum 0 [] false) = none ∧
    (((lcd add 1).put UPD_JOB_STEP_txn_step 0 7 0).adderTake (add.addr % 2 ^ 46) 0 [List.replicate 64 0] false).2 = 0 ∧
    ((lcd add 1).put UPD_JOB_CFG_valid 0 0 0 |>.adderTake (add.addr % 2 ^ 46) add.opf [List.replicate 64 0] false).2 ≠ 0 ∧
    (spanState rd |>.put PRT_CROFT_gen 0 1 0).boundary 0 = false ∧
    (let pull := req 9 1 0 0
     ((spanState pull).modLok 0 fun x => { x with roots := [⟨0, 5, 3, 1, 0x0402, 0, 16, some (0, 7), 0, 0, 0, 0, [(0, [], false)], 0, none, [], [], [], 0, false, 0⟩] }).pullHeld pull = true) := by
  decide +kernel

theorem witness_acks : ((reqState (req 3 1 1 1)).lokD 0).tgt.find? (fun e => e.src == 2 && e.dst == 0 && e.span == 0x0402 && e.cls == 1) = some target ∧
    target.ackDue.isSome = true ∧ (linkUp.lokD 0).tgt = [] := by decide +kernel

/-- A request of cluster 0's core outstanding at I/O die 0, and one of a later message of its stream. -/
def out (ttag oseq opcode : Nat) (who : Who) : Out := ⟨ttag, some who, 2, 0x0402, 1, oseq, opcode, 0, 16, 2 ^ 62 + 2 * 2 ^ 46, 1⟩
def ansState (m : RxMsg) (outs : List Out) : State := (received m).modLok 0 fun x => { x with outs := outs }

theorem witness_answers (p : List Byte) (h : ∀ a b c d e, Config.gcmOpen a b c d e = some p) :
    let rd := message 0 2 1 0 0 1
    let fl := message 0 7 0 0 0x0241 0
    let lost := message 0 7 0 0 0x0728 0
    let ak := message 0 6 0 0 3 0
    let load := out 5 3 1 (.load 0 0)
    let store := out 5 3 3 (.store 0 0)
    (∀ m ∈ [rd, fl, lost, ak], (ansState m [load]).ansCheck 0 m = (ansState m [load], some p)) ∧
    (∀ m ∈ [rd, fl, lost, ak], (ansState m [load]).rxHead 0 0 = some m ∧ m.dst = (ansState m [load]).moduleId) ∧
    (∀ m ∈ [rd, fl, lost], (ansState m [load]).outFor 0 m = some (0, load) ∧ (ansState m [load]).ansCurrent load m = true) ∧
    nfld fl.opf 0 16 ≠ 0x0728 ∧ nfld fl.opf 0 16 ≠ 0 ∧ nfld lost.opf 0 16 = 0x0728 ∧ ((ansState lost [load]).lokD 0).src = [] ∧
    (ansState ak [store, out 6 4 3 (.store 0 1)]).outFor 0 ak = some (0, store) ∧ ak.opf % 2 ^ 32 < (out 6 4 3 (.store 0 1)).oseq ∧ store.oseq ≤ ak.opf % 2 ^ 32 ∧
    (ansState ak []).outFor 0 ak = none ∧ (ansState ak []).get LNK_DROP_CNT_stale 0 < 65535 ∧
    ((ansState rd [load]).lokD 0).outs.find? (fun o => o.ttag == 5) = some load ∧ ((ansState rd []).lokD 0).outs.find? (fun o => o.ttag == 5) = none := by
  refine ⟨?_, by decide +kernel⟩
  intro m hm
  have h0 : hHops m.hdr = 0 ∧ m.valid = true ∧ tfind (ansState m [out 5 3 1 (.load 0 0)]).keys m.key = some ⟨[], 0x0402, 1, true, true, []⟩ ∧ 0x0402 = m.span := by
    revert m; decide +kernel
  exact ansCheck_of _ _ _ _ _ h0.1 h0.2.1 h0.2.2.1 h0.2.2.2 h

/-- A multicast stream of span 0x0402 to group 3: at its root, and at a receiver that module 2 sends to. -/
def root : McRoot := ⟨0, 5, 3, 1, 0x0402, 0, 16, some (0, 7), 0, 0, 0, 0, [(0, List.replicate 64 1, false)], 0, none, [], [(2, 0), (0, 0)], [], 0, false, 0⟩
def recv : McRecv := ⟨2, 0, 3, 1, 0x0402, 0, 1, 0, [], false, 0, 0, none, 0, 0, 0, 0, 0⟩
def mcState (m : RxMsg) (r : McRoot) (v : McRecv) : State := (spanState m).modLok 0 fun x => { x with roots := [r], recvs := [v] }
/-- The group is set up with module 2 as its root. -/
def grouped (m : RxMsg) (v : McRecv) : State :=
  ((((((mcState m root v).put LNK_GROUP_valid 0 1 3).put LNK_GROUP_local 0 1 3).put LNK_GROUP_root 0 2 3).put LNK_GROUP_span 0 0x0402 3).put LNK_GROUP_class 0 1 3)
/-- A notice of the management class, which has passed its stream check. -/
def noticed (subtype : Nat) : RxMsg := { message 0 0x10 1 0 subtype 1 with cls := 0, passed := true }

theorem witness_multicast : let s := mcState (req 1 1 0 0) root recv
    let full := mcState (req 1 1 0 0) { root with sent := 1024 } recv
    let w := { message 3 5 1 0 1 1 with passed := true }
    let old := { message 3 5 1 0 0 1 with passed := true }
    let g := grouped w recv
    s.rootAt 0 0 = some root ∧ root.origin.isSome = true ∧ root.marks = [] ∧ s.mcHeld 0 root = false ∧
    (s.sendSlot 1 0x0402).isSome = true ∧ s.mcFeed 0 0 = s ∧ s.mcOwn 0 root 0 1 = some (0, 0x0721) ∧
    (let u := (((s.put LNK_GROUP_valid 0 1 3).put LNK_GROUP_local 0 1 3).put LNK_GROUP_span 0 0x0402 3).put LNK_GROUP_class 0 1 3
     let b := { u with keys := [] }
     u.mcFeed 0 0 = u ∧ u.rootAt 0 0 = some root ∧ root.msgLen = 1 ∧ u.mcHeld 0 root = false ∧ u.mcOwn 0 root 0 1 = none ∧ u.groupCode 0 3 0x0402 1 = 0 ∧
     (u.put LNK_GROUP_links 0 1 3).groupCode 0 3 0x0402 1 = 0x0726 ∧ b.sendSlot 1 0x0402 = none ∧ b.mcOwn 0 root 0 1 = none ∧ (u.lokD 0).src.length < streamCap ∧
     (u.lokD 0).findSrc (4096 + 3) 0x0402 1 = none ∧ (∀ y ∈ root.ready.take 1, y.2.1.length = 64)) ∧
    (let u := mcState (req 1 1 0 0) { root with ready := [] } recv; u.mcFeed 0 0 = u ∧ u.rootAt 0 0 = some { root with ready := [] }) ∧ s.rootAt 0 1 = none ∧ full.mcHeld 0 { root with sent := 1024 } = true ∧
    g.rxHead 0 0 = some w ∧ w.opcode = 5 ∧ (∀ p ∈ g.groupOut 0 w.dst w.span w.cls, p.1 = 0) ∧ g.recvOf 0 w.src (nfld w.opf 32 16) = some recv ∧
    g.get LNK_GROUP_valid 0 w.dst = 1 ∧ g.get LNK_GROUP_root 0 w.dst = w.src ∧ g.mcRefuse 0 w.dst w.src w.span w.cls w.addr w.b = 0 ∧ nfld w.opf 0 32 = recv.landed ∧
    nfld old.opf 0 32 ≠ recv.landed ∧ recv.spent 1 0 = false ∧ (g.put LNK_GROUP_local 0 0 3).get LNK_GROUP_local 0 w.dst = 0 ∧ g.get LNK_GROUP_local 0 w.dst = 1 ∧
    (g.put LNK_GROUP_root 0 1 3).mcRefuse 0 w.dst w.src w.span w.cls w.addr w.b ≠ 0 ∧ g.inAdmit w = 1 ∧ w.done = 0 ∧ w.b = 1 ∧ isHbm (w.addr % 2 ^ 46) = false ∧
    (mcState w root { recv with id := 9 }).recvOf 0 w.src 0 = none ∧ g.rangeRefuse (w.addr % 2 ^ 46) w.b w.cls (.mcast [] false) = none ∧ g.boundary (w.addr % 2 ^ 46) = true ∧
    recv.landed ≠ recv.acked ∧ recv.pruned = false := by decide +kernel

theorem witness_multicast_notices (p : List Byte) (h : ∀ a b c d e, Config.gcmOpen a b c d e = some p) (hp : p = List.replicate 64 0) :
    (∀ n ∈ [1, 2, 3, 4, 5, 6], let m := noticed n
      let s := mcState m root recv
      s.rxHead 0 0 = some m ∧ s.ansCheck 0 m = (s, some p) ∧ (s.noticeTake 0 0 n).2 = some (m, p)) ∧
    (let m := { message 3 5 1 0 1 1 with passed := true }
     ((grouped m recv).reqCheck 0 m).2 = some p) ∧
    (let m := message 0 8 0 0 1 0
     let s := mcState m root recv
     s.rxHead 0 0 = some m ∧ s.ansCheck 0 m = (s, some p) ∧ s.rootAt (s.rootDie 0 0) 0 = some root ∧ root.gen = m.gen ∧ s.genOk 16 root.gen = true) := by
  refine ⟨?_, ?_, ?_⟩
  · intro n hn
    have h0 : let m := noticed n
        let s := mcState m root recv
        s.rxHead 0 0 = some m ∧ hHops m.hdr = 0 ∧ m.valid = true ∧ tfind s.keys m.key = some ⟨[], 0x0402, 1, true, true, []⟩ ∧ 0x0402 = m.span ∧
        m.passed = true ∧ m.opcode = 0x10 ∧ m.opf = n ∧ m.dst = s.moduleId ∧ noticeOk n (List.replicate 64 0) = true := by
      revert n; decide +kernel
    have hr := reqCheck_of _ 0 _ _ _ h0.2.1 h0.2.2.1 h0.2.2.2.1 h0.2.2.2.2.1 h h0.2.2.2.2.2.1
    refine ⟨h0.1, ansCheck_of _ _ _ _ _ h0.2.1 h0.2.2.1 h0.2.2.2.1 h0.2.2.2.2.1 h, ?_⟩
    simp only [State.noticeTake, h0.1, h0.2.2.2.2.2.2.1, h0.2.2.2.2.2.2.2.1, h0.2.2.2.2.2.2.2.2.1, hr, hp, h0.2.2.2.2.2.2.2.2.2]
    simp
  · have h0 : let m := { message 3 5 1 0 1 1 with passed := true }
        hHops m.hdr = 0 ∧ m.valid = true ∧ tfind (grouped m recv).keys m.key = some ⟨[], 0x0402, 1, true, true, []⟩ ∧ 0x0402 = m.span ∧ m.passed = true := by
      decide +kernel
    simp only [reqCheck_of _ 0 _ _ _ h0.1 h0.2.1 h0.2.2.1 h0.2.2.2.1 h h0.2.2.2.2]
  · have h0 : let m := message 0 8 0 0 1 0
        let s := mcState m root recv
        s.rxHead 0 0 = some m ∧ s.rootAt (s.rootDie 0 0) 0 = some root ∧ root.gen = m.gen ∧ s.genOk 16 root.gen = true ∧
        hHops m.hdr = 0 ∧ m.valid = true ∧ tfind s.keys m.key = some ⟨[], 0x0402, 1, true, true, []⟩ ∧ 0x0402 = m.span := by decide +kernel
    exact ⟨h0.1, ansCheck_of _ _ _ _ _ h0.2.2.2.2.1 h0.2.2.2.2.2.1 h0.2.2.2.2.2.2.1 h0.2.2.2.2.2.2.2 h, h0.2.1, h0.2.2.1, h0.2.2.2.1⟩

/-- Entry 0 of channel 0 in the update phase, the module's own norm root, with a shard already staged. -/
def rootOn (kind : Nat) (shards : List Shard) : State :=
  let s := (((unitOn kind 1).put UPD_JOB_CFG_root 0 1 0).put UPD_JOB_CFG_shards_m1 0 1 0).modUpd 0 0 fun e => { e with shards := shards }
  { s with mem := memPuts [] (chanOffset 0 (s.recEntry 0 0)) (List.replicate 192 0) }
/-- A reduction-control message of subtype k of job 0 and attempt 0 for record-table entry 0, or for Aselo. -/
def posted (s : State) (off k index reason : Nat) : State := { s with redIn := [(off, redMsg 0 0 k index reason 0 (globalAddr 0 0))] }
def shard0 : Shard := ⟨0, 0x3F800000, globalAddr 0 0⟩

theorem witness_norm_root : let e := rootOn 1 []
    let s := rootOn 1 [shard0]
    let p1 := posted s (chanOffset 0 6144) 1 1 0
    let p2 := posted s (chanOffset 0 6144) 2 0 0
    let u := { s with redIn := [] }
    e.get UPD_JOB_CFG_valid 0 0 = 1 ∧ e.get UPD_JOB_STAT_state 0 0 = 3 ∧ (e.updE 0 0).sent = false ∧ rKind (e.recBytes 0 0 0) ≠ 5 ∧ s.runComplete 0 0 = true ∧
    rFused (e.recBytes 0 0 0) = false ∧ addrModule (e.get UPD_JOB_ROOT_root_addr 0 0) = e.moduleId ∧ s.get UPD_JOB_CFG_root 0 0 = 1 ∧
    (s.updE 0 0).shards.length ≤ s.get UPD_JOB_CFG_shards_m1 0 0 ∧ ¬0 < (e.updE 0 0).shards.length ∧
    p1.redTake none 1 = (u, some (chanOffset 0 6144, redMsg 0 0 1 1 0 0 (globalAddr 0 0))) ∧ u.entryAt (chanOffset 0 6144) = some (0, 0) ∧ u.entryJob 0 0 = 0 ∧
    u.get UPD_JOB_STEP_txn_step 0 0 = 0 ∧ (u.updE 0 0).shards.any (fun x => x.index == 1) = false ∧ (u.updE 0 0).shards.any (fun x => x.index == 0) = true ∧
    (∀ x ∈ [shard0], addrModule x.reply = u.moduleId) ∧
    (p2.put UPD_JOB_STAT_state 0 2 0).redTake none 2 = ((u.put UPD_JOB_STAT_state 0 2 0), some (chanOffset 0 6144, redMsg 0 0 2 0 0 0 (globalAddr 0 0))) ∧
    (XNum.zero.nonfinite = false ∧ XNum.zero.lt (f32Sqrt XNum.zero) = false) ∧
    (let far := (e.put UPD_JOB_CFG_root 0 0 0).put UPD_JOB_ROOT_root_addr 0 (globalAddr 2 0) 0
     ((far.modUpd 0 0 fun e => { e with sent := true }).redFrom 0 0 (far.rootAddr 0 0) (redMsg (rJob (far.recBytes 0 0 0)) 0 1 0 0 0 (far.entryAddr 0 0))).2 ≠ 0) ∧
    ((e.modUpd 0 0 fun e => { e with sent := true }).redFrom 0 0 (e.rootAddr 0 0) (redMsg (rJob (e.recBytes 0 0 0)) 0 1 0 0 0 (e.entryAddr 0 0))).2 = 0 ∧
    e.get UPD_JOB_CFG_root 0 0 = 1 ∧ e.rootAddr 0 0 = e.entryAddr 0 0 ∧ (s.updE 0 0).shards.length = 1 ∧ s.get UPD_JOB_CFG_shards_m1 0 0 = 1 := by decide +kernel

/-- A run of one unit, or of two with the second empty, whose record asks for the fused norm, while the adder still takes contributions. -/
def fusedOn (units : Nat) (complete : Bool) : State :=
  let s := (unitOn 1 0).put UPD_JOB_STAT_state 0 1 0
  let r := leBytes 2 1 ++ leBytes 1 1 ++ leBytes 1 2 ++ leBytes 16 0 ++ leBytes 4 units ++ leBytes 4 1 ++ List.replicate 36 0 ++ leBytes 4 0x3F800000 ++ List.replicate 124 0
  let headers := memPuts (memPuts s.mem (chanOffset 0 0) (leBytes 4 0 ++ (List.range 8).flatMap fun _ => leBytes 2 (b2n complete))) (chanOffset 0 2048) (List.replicate 20 0)
  { s with mem := memPuts headers (chanOffset 0 6144) r }

theorem witness_norm_sum : ∀ x ∈ [(1, false), (1, true), (2, true)],
    let q := (fusedOn x.1 x.2).adderIntake (chanOffset 0 2048) 7 [List.replicate 64 0] false
    let v := q.1
    let r := v.recBytes 0 0 (v.get UPD_JOB_STEP_txn_step 0 0)
    hbmChan (chanOffset 0 2048) = 0 ∧ accJob 7 = 0 ∧ q.2 = 0 ∧ v.get UPD_JOB_CFG_valid 0 0 = 1 ∧ v.get UPD_JOB_STAT_state 0 0 = 1 ∧ rFused r = true ∧
    (v.updE 0 0).normed = 0 ∧ 0 < rUnits r ∧ rUnits r ≤ 2 ∧ v.unitComplete 0 0 0 = x.2 ∧
    v.chBad 0 (v.redRec 0 0 0 + 320) 1024 = false ∧ (rUnits r ≤ 1 ∨ v.unitComplete 0 0 1 = false) := by decide +kernel

/-- The run of one unit with K ranks whose record holds no contribution yet. -/
def adderOn (rmax : Nat) : State :=
  let s := fusedOn 1 false
  { s.put UPD_JOB_CFG_rmax 0 rmax 0 with mem := memPuts s.mem (chanOffset 0 64) (List.replicate 32 0) }

theorem witness_adder : let s := adderOn 1
    let a := chanOffset 0 2048
    hbmChan a = 0 ∧ hbmChAddr a = 2048 ∧ accJob (2 ^ 32) = 0 ∧ accRank (2 ^ 32) = 1 ∧ accTxn (2 ^ 32) = s.get UPD_JOB_STEP_txn_step 0 0 ∧ accTxn 7 ≠ s.get UPD_JOB_STEP_txn_step 0 0 ∧
    s.get UPD_JOB_CFG_valid 0 0 = 1 ∧ s.get UPD_JOB_STAT_state 0 0 = 1 ∧ (s.put UPD_JOB_CFG_valid 0 0 0).get UPD_JOB_CFG_valid 0 0 = 0 ∧
    s.accFits 0 0 2048 1 = true ∧ s.accFits 0 0 4096 1 = false ∧ s.accFits 0 0 2048 9 = false ∧ s.ranks 0 0 = 2 ∧ (adderOn 0).ranks 0 0 = 1 ∧
    s.chHere 0 (s.redRec 0 0 0) (redSize 2) = true ∧ s.redBad 0 0 0 0 = false ∧ s.redNext 0 0 0 0 = 0 ∧ s.redStaged 0 0 0 0 1 = false ∧ s.redStaged 0 0 0 0 0 = false ∧
    s.sumsBad 0 0 0 0 = false ∧ s.redEmpty 0 0 0 = false ∧ s.redRec 0 0 0 + redSize 2 ≤ chUnits * 2048 ∧ (s.put UPD_JOB_STEP_txn_step 0 7 0).redEmpty 0 0 0 = true ∧
    (unitOn 1 0).redNext 0 0 0 0 = 1 ∧ (unitOn 1 0).ranks 0 0 = 1 := by decide +kernel

/-- A tuning job of partition 0 on this module alone. -/
def job : Job := ⟨40, 0, leBytes 4 0 ++ leBytes 24 0 ++ leBytes 4 1 ++ List.replicate 224 0, [0], [], 0, 0, 0, true, [], 0, 0, [], [], [], 0, [], 0, 0, false, false, false, []⟩
def tuned (j : Job) : State := pooled.modSys fun x => { x with jobs := [j], insts := [] }

theorem witness_step_void : let s := tuned job
    let due := updOn.modUpd 0 0 fun e => { e with handed := [0] }
    (∀ k ∈ [3, 4, 5, 6], (posted s aseloOff k 0 0x0C21).redTake none k = (s, some (aseloOff, redMsg 0 0 k 0 0x0C21 0 (globalAddr 0 0)))) ∧
    s.jobOf 0 = some job ∧ s.jobAt 40 = some job ∧ job.root = s.moduleId ∧ job.txn % 2 ^ 32 = 0 ∧ s.shardsIn job = false ∧ job.parts = [s.moduleId] ∧
    (∀ ch ∈ s.homeChans job, s.get UPD_JOB_STAT_committed ch job.entry = 0) ∧
    (∃ ch ∈ (s.put UPD_JOB_STAT_committed 0 1 0).homeChans job, (s.put UPD_JOB_STAT_committed 0 1 0).get UPD_JOB_STAT_committed ch job.entry = 1) ∧
    (posted s aseloOff 3 0 0x0C21).redSrc none = 0 ∧ s.accBound 0 = false ∧ s.mayStart { job with running := false } = true ∧
    s.mayStart { job with running := false, checks := [(0, 0, 0)] } = false ∧ leAt (redMsg 0 0 5 0 0 1 0) 16 4 = 1 ∧ leAt (redMsg 0 0 5 0 0 0 0) 16 4 = 0 ∧
    s.beInsts 0 = [] ∧ job.entry < 16 ∧ (tuned { job with voided := 0x0C21 }).jobOf 0 = some { job with voided := 0x0C21 } ∧
    (∃ x ∈ { job with mods := [0, 2] }.parts, x ∉ [0]) ∧ due.returnDue 0 = [(0, 0)] ∧ s.returnDue 0 = [] ∧
    ((due.lokD 0).roots.filter fun r => r.origin.isNone && decide (r.chan < 128)).length < 4 := by decide +kernel

/-- A command of an opcode with inline input, ready for its service on channel 0 of partition 0. -/
def cmd (opcode object : Nat) (input : List Byte) : Cmd := ⟨6, opcode, 0, input.length, 0, input, object, true, false, 0, [], []⟩
def sent (s : State) (c : Cmd) : State := (s.put CHN_CTL_open 0 1).modCh 0 fun x => { x with cmds := [c] }
/-- A shard image of one granule for one croft, without its tile data. -/
def image : List Byte :=
  leBytes 4 0x53484442 ++ leBytes 2 1 ++ leBytes 2 0 ++ leBytes 2 1 ++ leBytes 1 1 ++ leBytes 1 1 ++ List.replicate 4148 0
def loadInput : List Byte := leBytes 2 2 ++ leBytes 2 0 ++ leBytes 1 2 ++ List.replicate 27 0
/-- Partition 0 with its first PASID bound and no version. -/
def empty0 : State := ((parted.wreg PRT_PART_PASID 0 0 0 (9 + 2 ^ 20)).modSys fun x => { x with vers := [] })

theorem witness_base_load : let c := cmd 0x0221 0 loadInput
    let s := sent empty0 c
    s.chanCmd 0 6 0x0221 = some c ∧ s.cmdInput 0 c = some loadInput ∧ s.chOwner 0 = 0 ∧ baseOk false c loadInput = true ∧ s.partExists 0 = true ∧
    (s.pasidSlot 0 (leAt loadInput 5 1)).2 = true ∧ s.baseCode 0 loadInput = 0 ∧ imageOk image (s.partM 0) false = true ∧ imageOk [] (s.partM 0) false = false ∧
    s.layoutOk 0 loadInput image = true ∧ (s.claimRun 0 0 (iG image)).isSome = true ∧ s.opBusy 0 18 = false ∧
    (s.modSys fun x => { x with insts := [inst] }).opBusy 0 18 = true := by decide +kernel

theorem witness_base_fill : let v := { ver with state := 0, listOk := false, cseq := 6, seen := 1 }
    let s := (sent empty0 (cmd 0x0221 0 loadInput)).modSys fun x => { x with vers := [v] }
    s.verAt 0 3 = some v ∧ (s.hch v.ch).cmds.any (fun c => c.cseq == v.cseq) = true ∧ s.filling v = false ∧ v.state = 0 ∧
    s.filling { v with source := true, group := 3 } = false ∧ pooled.verAt 0 3 = some ver ∧ ver.state ≠ 0 := by decide +kernel

theorem witness_base_verified : let v := { ver with state := 0, g := 0, cseq := 6, seen := 1, shardDigest := Config.sha512 [] }
    let s := (sent empty0 (cmd 0x0221 0 loadInput)).modSys fun x => { x with vers := [v] }
    v.listOk = true ∧ v.seen = 1 ∧ v.source = false ∧ s.baseMem v = [] ∧ s.basePoison v = false ∧ s.filling v = false ∧ v.gran + v.g ≤ 120 ∧
    Config.sha512 [] = v.shardDigest := ⟨by decide, by decide, by decide, by decide +kernel, by decide +kernel, by decide +kernel, by decide, rfl⟩

/-! ### Channels, the endpoint, mailboxes -/

/-- Channel 0 is open, with a slot whose sequence word and body are being read. -/
def slotRd (current : Bool) (reads : Nat) : SlotRd := ⟨1, reads, 0, current, true⟩
def hread (id : Nat) (who : Who) (len : Nat) : HostRead := ⟨id, ⟨who, 0, 0, 9, 0, .read len⟩⟩
def chanWith (f : HChan → HChan) (reads : List HostRead) : State :=
  { (parted.put CHN_CTL_open 0 1).modCh 0 f with pcie := { Pcie.init with reads := reads } }
/-- A slot with no payload. -/
def slotBody (client : Nat) : List Byte := leBytes 2 0x0211 ++ leBytes 6 0 ++ leBytes 8 client ++ List.replicate 108 0
def cpl : Cpl := ⟨77, 1, 0, true, false, false, 0, 0, true, 1⟩

theorem witness_channels : let s := chanWith (fun x => { x with slots := [slotRd false 0] }) [hread 1 (.chan 0 1) 4]
    s.get CHN_CTL_open 0 = 1 ∧ s.get CHN_CTL_halted 0 = 0 ∧ s.get CHN_CNT_bad_db 0 < 65535 ∧ seqDiff 1 (s.get CHN_SQ_STAT_tail 0) < 2 ^ 31 ∧
    seqDiff 1 (s.get CHN_SQ_STAT_consumed 0) ≤ s.sqSlots 0 ∧ s.sqSlots 0 < seqDiff 17 (s.get CHN_SQ_STAT_consumed 0) ∧
    2 ^ 31 ≤ seqDiff (2 ^ 32 - 1) (s.get CHN_SQ_STAT_tail 0) ∧ seqDiff (s.get CHN_CQ_STAT_posted 0) (s.get CHN_CQ_STAT_head 0) < seqDiff 1 (s.get CHN_CQ_STAT_head 0) ∧
    s.slotRead 0 1 4 = some (hread 1 (.chan 0 1) 4) ∧ (s.hch 0).slots[0]? = some (slotRd false 0) ∧ rereads ≤ (slotRd false rereads).reads ∧
    (s.hch 0).slots.find? (fun r => r.cseq == 1) = some (slotRd false 0) ∧ s.atcFind 9 0 = none := by decide +kernel

theorem witness_channels_completions : let s := chanWith (fun x => { x with slots := [slotRd false 0] }) [hread 1 (.chan 0 1) 4]
    let b := chanWith (fun x => { x with slots := [slotRd true 0], window := [(77, some cpl), (78, none)] }) [hread 1 (.chan 0 1) 124]
    let w := (chanWith (fun x => { x with wait := [cpl] }) []).put PCI_LINK_STAT_up 0 1
    let again := chanWith (fun x => { x with slots := [slotRd false 1] }) []
    let spent := chanWith (fun x => { x with slots := [slotRd false rereads] }) [hread 1 (.chan 0 1) 4]
    let q := (chanWith (fun x => { x with seqOut := [(1, cpl)] }) []).put CHN_CTL_irq_en 0 1 |>.put PCI_LINK_STAT_up 0 1
    let cl := chanWith (fun x => { x with wait := [cpl], closing := some 1 }) []
    b.slotRead 0 1 124 = some (hread 1 (.chan 0 1) 124) ∧ (b.hch 0).slots = [slotRd true 0] ∧ b.get CHN_REASON_buffers 0 < 65536 ∧
    slotOk (slotBody 0) = true ∧ slotOk (List.replicate 124 0xFF) = false ∧ leAt (slotBody 77) 8 8 = 77 ∧
    (b.hch 0).window.find? (fun w => w.1 == 77) = some (77, some cpl) ∧ (b.hch 0).window.find? (fun w => w.1 == 78) = some (78, none) ∧
    (b.hch 0).window.find? (fun w => w.1 == 79) = none ∧
    (w.hch 0).wait = [cpl] ∧ seqDiff (seqNext (w.hch 0).nextQ) (w.get CHN_CQ_STAT_head 0) ≤ w.cqEntries 0 ∧ w.refBusy 0 1 = false ∧ w.get CHN_CTL_open 0 = 1 ∧ w.get PCI_LINK_STAT_up 0 = 1 ∧ (w.put PCI_CHRATE_depth 0 4 0).chRoom (w.chOwner 0) cpl.blocks = true ∧
    (w.put PCI_CHRATE_depth 0 0 0).chRoom 0 1 = false ∧ w.chOwner 0 = 0 ∧ s.slotRead 0 2 4 = none ∧ s.slotRead 0 1 124 = none ∧ (spent.hch 0).slots = [slotRd false rereads] ∧
    spent.slotRead 0 1 4 = some (hread 1 (.chan 0 1) 4) ∧ (again.hch 0).slots.find? (fun r => r.cseq == 1) = some (slotRd false 1) ∧ (slotRd false 1).again < rereads ∧
    again.pcie.ats = true ∧ ({ again with pcie := { again.pcie with ats := true, atc := [(9, 0, true, false)] } }).atcFind 9 0 = some (true, false) ∧
    q.get PCI_LINK_STAT_up 0 = 1 ∧ s.get PCI_LINK_STAT_up 0 = 0 ∧ ([({ id := 1, kind := .seqWord 0 1, acc := (hread 1 (.chan 0 1) 4).acc, half := 2 } : Tx)]).any (fun y => y.kind == .seqWord 0 1) = true ∧ w.logs (w.chOwner 0) = false ∧
    (q.hch 0).seqOut = [(1, cpl)] ∧ q.pcie.tx.any (fun y => y.kind == .seqWord 0 1) = false ∧ q.msixMasked (q.get CHN_CTL_vector 0) = true ∧
    ({ q with bar0 := [(msixBase + 12, 0)] }).msixMasked (q.get CHN_CTL_vector 0) = false ∧
    (cl.hch 0).closing = some 1 ∧ (cl.hch 0).cmds = [] ∧ (cl.hch 0).wait ≠ [] ∧ (cl.hch 0).seqOut = [] ∧
    ((cl.modCh 0 fun x => { x with seqOut := [(1, cpl)] }).hch 0).seqOut ≠ [] := by decide +kernel

/-- A bale whose manifest holds one host read queue. -/
def hostBale : List Byte :=
  List.replicate 11 0 ++ [1] ++ List.replicate 116 0 ++ leBytes 8 1 ++ leBytes 8 256 ++ leBytes 8 80 ++ List.replicate 104 0 ++
    List.replicate 28 0 ++ leBytes 4 1 ++ List.replicate 32 0 ++ leBytes 5 0 ++ leBytes 1 2 ++ List.replicate 10 0

theorem witness_endpoint : let s := chanWith (fun x => { x with slots := [slotRd false 0] }) [hread 1 (.chan 0 1) 4]
    let c := { cmd 0x0211 0 [] with flags := 1, length := 1 }
    let k := chanWith (fun x => { x with cmds := [c] }) [hread 1 (.ref 0 6 0) 64]
    let f := { k with pcie := { k.pcie with prs := [⟨3, .ref 0 6 0, 9, 0, false, false, none⟩] } }
    let big := s.modPart 0 fun x => { x with payload := List.replicate 10 0 ++ leBytes 2 1 ++ x.payload.drop 12 }
    let up := s.put PCI_LINK_STAT_up 0 1
    let ld := { s with pcie := { s.pcie with reads := [hread 1 (.load 0 0) 64] } }
    let onBig := (big.put HBM_CTL_en 0 1).put HBM_CTL_failed 0 0
    let reading := (onBig.modSys fun x => { x with insts := [{ held with bale := hostBale }] })
    ld.readAt 1 = some (hread 1 (.load 0 0) 64) ∧ ld.cluPG 0 = (0, 0) ∧ s.readAt 2 = none ∧ (onBig.stagingOff 0 0).map onBig.chanOff = some false ∧
    (onBig.stagingOff 0 0).map onBig.chanTakes = some true ∧ (big.stagingOff 0 0).map big.chanTakes = some false ∧ (onBig.stagingOff 0 63).isSome = true ∧
    reading.hostReaders 0 = true ∧ onBig.hostReaders 0 = false ∧
    ((hread 1 (.chan 0 1) 4).acc.pasid = 9 ∧ (hread 1 (.chan 0 1) 4).acc.iova / 4096 = 0) ∧ s.pcie.invs = [] ∧
    s.readAt 1 = some (hread 1 (.chan 0 1) 4) ∧ s.get PCI_ERR_CNT_ur_ca 0 < 65535 ∧ s.get PCI_ERR_CNT_poisoned_in 0 < 65535 ∧
    s.get PCI_ERR_CNT_cpl_timeout 0 < 65535 ∧ s.get CHN_CTL_halted 0 = 0 ∧ (s.hch 0).slots.any (fun y => y.cseq == 1) = true ∧
    k.readAt 1 = some (hread 1 (.ref 0 6 0) 64) ∧ (k.hch 0).cmds.any (fun c => c.cseq == 6) = true ∧
    f.pcie.prs.any (fun r => match r.who with | .ref a b _ => a == 0 && b == 6 | _ => false) = true ∧
    bar0Permitted 0x700020 8 = true ∧ bar0Permitted 0x600000 8 = false ∧ s.get PCI_ERR_CNT_ign_write 0 < 65535 ∧
    (big.stagingOff 0 0).isSome = true ∧ s.stagingOff 0 0 = none ∧ s.get PCI_DROP_CNT_bar2_miss 0 < 2 ^ 32 - 1 ∧ s.hostReaders 0 = false ∧
    s.pcie.perst = false ∧ s.pwr.pwrok = true ∧ up.get PCI_LINK_STAT_up 0 = 1 ∧ up.get PCI_LINK_STAT_retrains 0 < 65535 ∧ up.resetDue = 0 ∧
    (up.modSys fun x => { x with up := true }).resetRuns = false ∧ { up with resetDue := 1 }.resetRuns = true := by decide +kernel

/-- The request of a CHAN_OPEN on a partition's mailbox: channel 0, PASID slot 0, rings of 16 slots and entries at 64 KiB and 128 KiB. -/
def openReq : List Byte := request 0x0121 0 (leBytes 2 0 ++ leBytes 1 0 ++ leBytes 1 0 ++ leBytes 1 0 ++ leBytes 1 0 ++ leBytes 2 0 ++ leBytes 8 0x10000 ++ leBytes 8 0x20000 ++ leBytes 8 0)
def keyReq (ty : Nat) : List Byte := request ty 0 (leBytes 8 0 ++ leBytes 40 5)

theorem witness_mailboxes : let s := parted.wreg PRT_PART_PASID 0 0 0 (9 + 2 ^ 20)
    let idle := s.put MBX_STAT_state 1 1
    let post := asked s 1 []
    let opened := s.put CHN_CTL_open 0 1
    idle.get MBX_STAT_state 1 = 1 ∧ idle.get MBX_STAT_accepted 1 = 0 ∧ idle.get MBX_STAT_ignored 1 < 65535 ∧ idle.mbxRefuse 1 1 (idle.bar0Bytes (boxBase 1) 4096) ≠ 0 ∧
    (idle.box 1).rsp = [] ∧ ((post.modBox 1 fun x => { x with stage := 3, rsp := List.replicate 32 0 }).box 1).stage = 3 ∧ s.keysBusy = false ∧
    mType openReq = 0x0121 ∧ mType (keyReq 0x0111) = 0x0111 ∧ ((asked s 1 openReq).box 1).stage = 1 ∧
    mHandle (keyReq 0x0111) = 0 ∧ zeros (keyReq 0x0111) 33 7 = true ∧ s.partExists 0 = true ∧ (s.keysOf 0).length < 8 ∧ mPay (keyReq 0x0111) 0 1 = 0 ∧
    chanOpenOk false openReq = true ∧ s.get CHN_CTL_open 0 ≠ 1 ∧ (s.pasidSlot 0 0).2 = true ∧ s.pcie.pasidEn = true ∧ (s.pasidSlot 0 0).1 < 2 ^ 20 ∧
    (s.openChans 0).length < (s.modPart 0 fun x => { x with payload := List.replicate 12 0 ++ leBytes 2 1 ++ x.payload.drop 14 }).pf 0 12 2 ∧
    0x10000 + 2 ^ 4 * 128 ≤ 0x20000 ∧ mPay openReq 8 8 = 0x10000 ∧ mPay openReq 16 8 = 0x20000 ∧
    opened.get CHN_CTL_open 0 = 1 ∧ opened.chOwner 0 = boxOwner 1 ∧ (opened.hch 0).closing = none ∧ (opened.hch 0).cmds = [] ∧ (opened.hch 0).wait = [] ∧
    ((sent s (cmd 0x0211 0 [])).hch 0).cmds ≠ [] := by decide +kernel

/-! ### Serving, tuning, partitions -/

/-- A bale with a manifest for one croft, four HBM3 pages from page 0 and one core of one word of code in alias cluster 0. -/
def bale : List Byte :=
  leBytes 9 0 ++ leBytes 1 1 ++ leBytes 1 1 ++ leBytes 1 2 ++ leBytes 4 0 ++ leBytes 8 77 ++ List.replicate 104 0 ++
  (leBytes 8 1 ++ leBytes 8 352 ++ leBytes 8 1672 ++ List.replicate 72 0) ++ (leBytes 8 3 ++ leBytes 8 320 ++ leBytes 8 32 ++ List.replicate 72 0) ++
  (leBytes 4 0 ++ leBytes 28 1) ++ leBytes 4 (2 ^ 24) ++ List.replicate 1660 0 ++ leBytes 2 0 ++ leBytes 6 4
/-- A latency-critical instance, and a best-effort one. -/
def lc : Inst := { inst with cls := 1, loaded := true, hold := 2, bale := bale }
def be : Inst := { inst with handle := 10, loaded := true, hold := 2, bale := bale }
def theLoop : Loop :=
  { part := 0, inst := 9, seed := 1, maxRows := 4, maxTokens := 16, chunks := 1, kvBase := 0, kvTok := 64, step := 0, tag := 0, phase := 0, rows := [], run := [],
    queue := [], joins := 0, started := 0, begun := 0, stopBox := none, adapters := [], starve0 := 0 }
def serving (l : Loop) : State := pooled.modSys fun x => { x with insts := [lc, be], loops := [l] }
def startReq : List Byte := request 0x0151 0 (leBytes 8 77 ++ leBytes 8 1 ++ leBytes 2 4 ++ leBytes 2 16 ++ leBytes 4 1 ++ leBytes 8 0 ++ leBytes 4 64 ++ leBytes 28 0)

theorem witness_serve_start : let off := pooled.modSys fun x => { x with insts := [lc] }
    let s := serving theLoop
    mType startReq = 0x0151 ∧ ((asked off 1 startReq).box 1).stage = 1 ∧ (asked off 1 startReq).serveCode 0 startReq = 0 ∧ pooled.loopOf 0 = none ∧
    pooled.lcInst 0 = none ∧ mHandle startReq = 0 ∧ pooled.serveCode 0 startReq = 0x0911 ∧ s.loopOf 0 = some theLoop ∧ theLoop.phase = 0 ∧
    off.lcInst 0 = some lc ∧ (s.box 1).stage ≠ 1 ∧ boxOwner 1 = 0 ∧ 0 < s.serveCode 0 startReq ∧ s.serveCode 0 startReq ≤ 0x0912 ∧
    (serving { theLoop with phase := 3 }).loopOf 0 = some { theLoop with phase := 3 } := by decide +kernel

/-- A SUBMIT of one prompt token for at most n new ones, best-effort, without an adapter. -/
def submitIn (n : Nat) : List Byte :=
  leBytes 2 0 ++ leBytes 2 0xFFFF ++ leBytes 2 0 ++ leBytes 1 2 ++ leBytes 1 0 ++ leBytes 4 n ++ leBytes 16 0 ++ leBytes 4 1 ++ leBytes 4 5
def sreq : SReq := ⟨0, 6, 3, 0xFFFF, 0, 2, 4, 7, 0, 0, 0, 0, [5], [], 0, 0, [0], false, 0, 0, [], 0⟩

theorem witness_serving_commands : let s := serving theLoop
    let c := cmd 0x0201 0 (submitIn 4)
    let x := cmd 0x0202 6 []
    let r := cmd 0x0213 (1 + 65536) (leBytes 4 0)
    let run := serving { theLoop with run := [sreq] }
    (sent s c).chanCmd 0 6 0x0201 = some c ∧ (sent s c).cmdInput 0 c = some (submitIn 4) ∧ submitOk c (submitIn 4) = true ∧ submitOk c [] = false ∧
    (sent s c).loopOf 0 = some theLoop ∧ cdiv 5 256 ≤ theLoop.chunks ∧ theLoop.chunks < cdiv (1 + leAt (submitIn 300) 8 4) 256 ∧
    ((s.served 0).map Ver.tag) = [3] ∧ 4 ∉ ((s.served 0).map Ver.tag) ∧
    (sent run x).chanCmd 0 6 0x0202 = some x ∧ x.length = 0 ∧ x.hasRefs = false ∧ sreq.is 0 x.object = true ∧
    (sent s r).chanCmd 0 6 0x0213 = some r ∧ ((sent s r).adapter 0 (r.object % 65536) (r.object / 65536)).isSome = true ∧
    (sent s r).adapter 0 2 1 = none ∧ (sent pooled c).loopOf 0 = none ∧ s.chanCmd 0 6 0x0201 = none ∧ (cmd 0x0202 7 []).object ≠ 6 ∧
    (sent run (cmd 0x0202 7 [])).chanCmd 0 6 0x0202 = some (cmd 0x0202 7 []) ∧ sreq.is 0 7 = false ∧
    (let all := cmd 0x0213 0xFFFF (leBytes 4 5)
     (sent s all).chanCmd 0 6 0x0213 = some all ∧ all.object % 65536 = 0xFFFF ∧ all.object / 65536 = 0 ∧ all.hasRefs = false ∧
     ((s.recsOf 0).filter fun e => e.2.owner == 5 && e.2.state != 2).map Prod.fst = [1]) ∧
    (let staged : Cmd := { cmd 0x0211 0xFFFF [] with flags := 1, length := 1, payload := leBytes 8 0 ++ leBytes 4 64 ++ leBytes 4 2 }
     let v := sent (pooled.modPart 0 fun x => { x with payload := List.replicate 10 0 ++ leBytes 2 1 ++ x.payload.drop 12 }) staged
     let a := (v.stagingOff 0 0).getD 0
     let u : State := { v with mem := memPuts [] a (List.replicate 64 0), ecc := [(a, poisonDelta)] }
     u.chanCmd 0 6 0x0211 = some staged ∧ u.cmdInput 0 staged = none) := by decide +kernel

/-- A blob of rank 4 for a version with H = 16, with its pending key; a command that names it by one input reference; one output reference. -/
def blob : List Byte :=
  leBytes 4 sealMagic ++ leBytes 2 1 ++ leBytes 1 4 ++ leBytes 1 1 ++ leBytes 4 5 ++ leBytes 4 16 ++ List.replicate 192 0
def refCmd (opcode object : Nat) (refs : List Byte) (got : List (Nat × List Byte)) : Cmd :=
  { cmd opcode object [] with flags := 1, length := refs.length / 16, payload := refs, got := got }
def refTo (len flags : Nat) : List Byte := leBytes 8 0x10000 ++ leBytes 4 len ++ leBytes 4 flags
def importing : State :=
  ((pooled.modSys fun x => { x with insts := [], vers := [{ ver with h := 16, baseDigest := List.replicate 64 0 }] }).modPart 0 fun x =>
    { x with payload := leBytes 8 0 ++ leBytes 8 1 ++ leBytes 48 4 ++ x.payload.drop 64 })

theorem witness_adapters : let c := refCmd 0x0211 0xFFFF (refTo 208 0) [(0, blob)]
    let s := { sent importing c with rot := { importing.rot with pend := [⟨0, List.replicate 16 0, 5, [], []⟩] } }
    let e := refCmd 0x0212 (1 + 65536) (refTo 144 1) []
    let short := refCmd 0x0212 (1 + 65536) (refTo 100 1) []
    s.chanCmd 0 6 0x0211 = some c ∧ s.cmdInput 0 c = some blob ∧ c.object = 0xFFFF ∧ c.refs.length = 1 ∧ s.importCode 0 blob = 0 ∧
    (s.pendKey 0 blob).isSome = true ∧ (s.blobVer 0 blob).isSome = true ∧ importing.importCode 0 blob ≠ 0 ∧
    (sent pooled e).chanCmd 0 6 0x0212 = some e ∧ e.outs.length = 1 ∧ e.refs.length = 1 ∧ (sent pooled e).adapter 0 1 1 = some record ∧ record.state ≠ 2 ∧
    record.seals < sealLimit ∧ 144 + (sent pooled e).partM 0 * record.rank * record.h ≤ 144 ∧ 100 < 144 + (sent pooled e).partM 0 * record.rank * record.h ∧
    short.outs.length = 1 := by decide +kernel

/-- The result word of row 0 of step 0: token 9. -/
def resultAt : Nat := croftOff 0 (stepArea 0 + 0x18800)

theorem witness_step_done : let l := { theLoop with phase := 3, rows := [(0, 1)], run := [sreq] }
    let s0 := (sent (serving l) (cmd 0x0201 0 (submitIn 4))).put CLU_CORE_CTL_state 0 5
    let block := resultAt / 64 * 64
    let s := ({ s0 with mem := memPuts (memPuts [] block (List.replicate 64 0)) resultAt (leBytes 16 9), ecc := (List.range 4).map fun i => (block + 16 * i, 0) }).put HBM_CTL_en (hbmChan resultAt) 1
    let d := pooled.modSys fun x => { x with vers := [{ ver with drained := true }] }
    s.loopOf 0 = some l ∧ s.instAt l.inst = some lc ∧ s.coreClus lc = [0] ∧ s.get CLU_CORE_CTL_state 0 = 5 ∧ (serving l).get CLU_CORE_CTL_state 0 ≠ 5 ∧
    ¬(l.starve0 < s.starveSum 0 ∨ boundNs lc.bale < s.tick - l.begun) ∧ boundNs lc.bale < ({ s with tick := 9 }).tick - l.begun ∧
    sreq.fed + 1 = sreq.toks.length ∧ (s.hch sreq.ch).cmds.any (fun k => k.cseq == sreq.cseq) = true ∧ s.rowResult 0 l.step 0 = (9, false) ∧
    9 ≠ sreq.stop ∧ sreq.out.length + 1 < sreq.maxNew ∧ d.verAt 0 3 = some { ver with drained := true } ∧ ver.state = 1 ∧
    (s.put HBM_CTL_en (hbmChan resultAt) 0).rowResult 0 l.step 0 = (9, true) ∧ sreq.slot = 0xFFFF ∧ sreq.seat = 0 ∧ l.phase = 3 ∧ d.served 0 = [{ ver with drained := true }] ∧
    boundNs lc.bale < 1 ∧ s.tick = 0 ∧ pooled.loopOf 0 = none ∧ d.verAt 0 4 = none := by decide +kernel

/-- A JOB_CREATE of one stage and one rank on this module, without home units, for the adapter in slot 1. -/
def jobReq (owner : Nat) : List Byte :=
  request 0x0161 0 (leBytes 4 0 ++ leBytes 1 1 ++ leBytes 1 1 ++ leBytes 2 1 ++ leBytes 2 0 ++ leBytes 2 1 ++ leBytes 4 4 ++ leBytes 8 0 ++ leBytes 2 1 ++
    List.replicate 230 0 ++ leBytes 2 owner ++ leBytes 2 1 ++ leBytes 2 1)
def job1 : Job := jobNew 40 0 (jobReq 0) (jobTables (jobReq 0) [])
/-- A record of two tokens. -/
def example2 : List Byte := leBytes 4 2 ++ leBytes 4 0 ++ leBytes 4 8 ++ leBytes 4 9

/-- The same with one home unit in each channel of croft 0: a custom kind, its run at unit 10 and its export area at unit 20. -/
def homeReq : List Byte :=
  request 0x0161 0 (leBytes 4 0 ++ leBytes 1 1 ++ leBytes 1 1 ++ leBytes 2 1 ++ leBytes 2 0 ++ leBytes 2 1 ++ leBytes 4 4 ++ leBytes 8 0 ++ leBytes 2 1 ++
    leBytes 2 0 ++ leBytes 4 1 ++ leBytes 8 0 ++ leBytes 4 0 ++ leBytes 4 10 ++ leBytes 4 20 ++ leBytes 2 0 ++ leBytes 2 1 ++ List.replicate 8 0 ++
    leBytes 2 1 ++ leBytes 1 5 ++ List.replicate 61 0 ++ List.replicate 128 0 ++ leBytes 2 0 ++ leBytes 2 1 ++ leBytes 2 1)
def homeJob : Job := jobNew 30 0 homeReq (jobTables homeReq [])
/-- Partition 0 with a best-effort instance that sends accumulates, and the channels of its croft with their update engines. -/
def homes (en : Nat) : State :=
  (List.range 8).foldl (fun (s : State) ch => ((s.put HBM_CTL_en ch 1).put SEC_HBMKEY_keyed 0 1 0).put UPD_CTL_en ch en) (pooled.modSys fun x => { x with insts := [be] })

theorem witness_job_homes : let j := homeJob
    jobOk homeReq (jobTables homeReq []) = true ∧ mType homeReq = 0x0161 ∧ mHandle homeReq = 0 ∧ (homes 1).jobCode j = 0 ∧ (homes 0).jobCode j = 0 ∧
    (homes 1).homeChans j = List.range 8 ∧ (homes 0).homeChans j = List.range 8 ∧
    (((homes 0).homeChans j).find? fun ch =>
      (((homes 0).homeChans j).zipIdx.foldl (fun (q : State) c => q.jobEntry j c.2 c.1) (homes 0).newHandle.1).get UPD_JOB_CFG_valid ch j.entry == 0) = some 0 ∧
    ((homes 1).newHandle.1.jobEntry j 0 0).get UPD_JOB_CFG_valid 0 j.entry = 1 := by decide +kernel

theorem witness_job_create : let s := pooled.modSys fun x => { x with insts := [] }
    jobOk (jobReq 0) (jobTables (jobReq 0) []) = true ∧ mType (jobReq 0) = 0x0161 ∧ ((asked s 1 (jobReq 0)).box 1).stage = 1 ∧ s.jobCode job1 = 0 ∧
    s.homeChans job1 = [] ∧ s.beInsts 0 = [] ∧ s.sys.nextHandle < 2 ^ 64 ∧
    s.jobCode (jobNew 30 0 (jobReq 7) (jobTables (jobReq 7) [])) ≠ 0 ∧ s.jobCode (jobNew 30 0 (jobReq 7) (jobTables (jobReq 7) [])) < 65536 ∧
    (s.box 1).stage ≠ 1 ∧ (tuned { job1 with ended := 7 }).jobAt 40 = some { job1 with ended := 7 } ∧ s.jobAt 41 = none ∧ job1.handle = 40 ∧
    (tuned { job1 with running := true }).jobAt 40 = some { job1 with running := true } ∧ job1.part = 0 ∧ job1.ended = 0 ∧ job1.running = false := by
  decide +kernel

theorem witness_job_commands : let s := tuned job1
    let x := cmd 0x0231 40 example2
    let k := refCmd 0x0232 40 (refTo 4 0 ++ refTo 144 1) [(0, leBytes 4 0)]
    let full := tuned { job1 with batches := [[0]], fill := 4 }
    let due := sent (tuned { job1 with checks := [(0, 6, 0)] }) k
    (sent s x).chanCmd 0 6 0x0231 = some x ∧ (sent s x).cmdJob 0 x = some job1 ∧ x.outs = [] ∧ (exRecords job1.mbTokens example2.length example2).2 = 0 ∧
    (exRecords job1.mbTokens example2.length example2).1 ≠ [] ∧ (exRecords job1.mbTokens 8 (leBytes 8 9)).2 ≠ 0 ∧
    (sent s k).chanCmd 0 6 0x0232 = some k ∧ (sent s k).cmdInput 0 k = some (leBytes 4 0) ∧ (sent s k).cmdJob 0 k = some job1 ∧ k.outs.length = 1 ∧
    job1.committed ≤ 0 ∧ s.ckBytes job1 ≤ 144 ∧
    (full.jobsPoll).jobAt 40 = some { job1 with batches := [[0]], fill := 4 } ∧ 0 + job1.micro ≤ { job1 with batches := [[0]], fill := 4 }.packed ∧
    (full.jobsPoll).mayStart { job1 with batches := [[0]], fill := 4 } = true ∧ (full.jobsPoll).accQueues 0 = [] ∧ (full.jobsPoll).moduleId = 0 ∧
    0 < full.jobsPoll.partM 0 ∧ s.jobsPoll.jobAt 41 = none ∧ job1.committed = 0 ∧ (s.homeChans job1) = [] ∧ record.seals < sealLimit ∧
    (tuned { job1 with committed := 1 }).cmdJob 0 k = some { job1 with committed := 1 } ∧ leAt (leBytes 4 0) 0 4 < 1 ∧ s.cmdJob 0 { k with object := 41 } = none ∧
    job1.voided = 0 ∧ full.jobsPoll.returnedAll { job1 with batches := [[0]], fill := 4 } 0 = true ∧
    (due.jobsPoll).jobAt 40 = some { job1 with checks := [(0, 6, 0)] } ∧ job1.adapters = [(1, 1)] ∧ due.jobsPoll.recAt 1 = some record ∧
    (due.jobsPoll.hch 0).cmds.find? (fun c => c.cseq == 6) = some k := by decide +kernel

/-- A checkpoint is due: of a job whose adapter is gone, is sealed out, or whose home units read poisoned. -/
theorem witness_checkpoint : let k := refCmd 0x0232 40 (refTo 4 0 ++ refTo 144 1) [(0, leBytes 4 0)]
    let due := fun (j : Job) => sent (tuned { j with checks := [(0, 6, 0)] }) k
    let gone := (due job1).modSys fun x => { x with dir := [] }
    let worn := (due job1).modSys fun x => { x with dir := [(1, { record with seals := sealLimit })] }
    let h := { homeJob with handle := 40 }
    let bad : State := { due h with mem := memPuts [] (chanOffset 0 20480) (List.replicate 64 0), ecc := [(chanOffset 0 20480, poisonDelta)] }
    gone.jobsPoll.recAt 1 = none ∧ gone.jobsPoll.jobAt 40 = some { job1 with checks := [(0, 6, 0)] } ∧ k.outs.length = 1 ∧
    worn.jobsPoll.recAt 1 = some { record with seals := sealLimit } ∧ bad.jobsPoll.jobAt 40 = some { h with checks := [(0, 6, 0)] } ∧
    bad.homeChans h = List.range 8 ∧ h.units = 1 ∧ h.f 44 4 = 10 ∧ bad.jobsPoll.chBad 0 (10 * 2048) 2048 = true ∧
    [(0, 6, 0)].find? (fun (e : Nat × Nat × Nat) => e.2.2 == h.committed) = some (0, 6, 0) := by decide +kernel

/-- A PART_CREATE of partition p on croft 1 with one PASID. -/
def createPay (p : Nat) : List Byte :=
  leBytes 1 p ++ leBytes 1 1 ++ leBytes 2 2 ++ leBytes 2 5 ++ leBytes 2 0 ++ leBytes 2 1 ++ leBytes 14 0 ++ leBytes 4 1 ++ leBytes 12 17 ++ leBytes 8 1 ++ leBytes 8 1 ++
    leBytes 4 0 ++ leBytes 4 100 ++ leBytes 4 77 ++ List.replicate 60 0

theorem witness_partitions : let r := request 0x0101 0 (createPay 1)
    let s := asked parted 0 r
    let q := request 0x0103 0 (leBytes 8 0)
    (s.box 0).stage = 1 ∧ mType r = 0x0101 ∧ mHandle r = 0 ∧ partPayOk (mPayBytes r 0 128) = true ∧ firstFail (s.partChecks (mPayBytes r 0 128)) = 0 ∧
    leAt (mPayBytes r 0 128) 6 1 = 0 ∧ firstFail (s.partChecks (createPay 0)) ≠ 0 ∧ partPayOk (createPay 0) = true ∧
    zeros q 33 7 = true ∧ mPay q 0 1 = 0 ∧ mType q = 0x0103 ∧ s.partExists 0 = true ∧ s.partExists 2 = false ∧ s.pf 0 6 1 = 0 ∧ s.resetDue = 0 ∧
    s.get CLU_BSLOT_valid 1599 31 = 0 ∧ { s with resetDue := 1 }.resetDue ≠ 0 ∧ s.booting = true ∧ (s.modSys fun x => { x with up := true }).booting = false ∧ boxOwner 1 = 0 ∧ (s.box 2).stage ≠ 1 ∧ s.openChans 0 = [] ∧
    (s.put CHN_CTL_open 3 1).openChans 0 = [3] ∧
    (let u := s.modPart 0 fun x => { x with payload := List.replicate 6 0 ++ [32] ++ x.payload.drop 7 }; u.pf 0 6 1 = 32 ∧ layoutFits (u.part 0).payload = true) := by decide +kernel

theorem witness_dirty_log : let s := (parted.put PRT_DIRTY_RANGE_pages 0 64 0).put PRT_DIRTY_BASE_base 0 1 0
    let on := (s.put PRT_DIRTY_CTL_en 0 1 0).put PRT_DIRTY_CTL_done 0 1 0
    s.get PRT_DIRTY_CTL_en 0 0 = 0 ∧ s.get PRT_DIRTY_RANGE_pages 0 0 = 64 ∧ s.get PRT_DIRTY_BASE_base 0 0 * 4096 + 128 < 2 ^ 57 ∧
    s.pasidTaken (nfld 0x501 8 20) = false ∧ s.get PRT_PART_CTL_state 0 0 = 2 ∧ parted.get PRT_DIRTY_RANGE_pages 0 0 = 0 ∧
    (s.wreg PRT_PART_PASID 0 0 0 (5 + 2 ^ 20)).pasidTaken (nfld 0x501 8 20) = true ∧ s.get PRT_PART_CTL_state 0 1 ≠ 2 ∧ on.get PRT_DIRTY_CTL_done 0 0 = 1 ∧
    (on.put PRT_DIRTY_CTL_done 0 0 0).pcie.tx = [] ∧ on.get PRT_DIRTY_CTL_en 0 0 = 1 ∧ (on.put PRT_DIRTY_CTL_done 0 0 0).get PRT_DIRTY_CTL_done 0 0 = 0 ∧ s.get SEC_HBMKEY_busy 0 0 = 0 ∧ (on.put SEC_HBMKEY_busy 0 1 0).get SEC_HBMKEY_busy 0 0 = 1 := by decide +kernel

theorem witness_steps : let p := serving { theLoop with phase := 1 }
    let s := serving { theLoop with phase := 2 }
    let run := (((serving { theLoop with phase := 1 }).modPart 0 fun x => { x with be := some 10 }).modCl 0 fun x => { x with inst := some 10 }).put CLU_CORE_CTL_state 0 1
    let hot := (s.put PWR_CTL_en 0 1).put PWR_CAP_t_hard 0 0
    let warm := (p.put PWR_CTL_en 0 1).put PWR_CAP_t_soft 0 0
    p.loopOf 0 = some { theLoop with phase := 1 } ∧ (p.part 0).since + 1000 * p.pf 0 56 4 ≤ p.tick ∧
    ((run.part 0).be).bind run.instAt = some be ∧ run.instActive be = true ∧ (s.beSettle 0).loopOf 0 = some { theLoop with phase := 2 } ∧
    (s.beSettle 0).instAt 9 = some lc ∧ ((s.beSettle 0).part 0).be = none ∧ (s.beSettle 0).returning 0 = false ∧ (s.beSettle 0).lcHot = false ∧ (p.beSettle 0).beHot = false ∧
    (s.beSettle 0).lentNow 0 = [] ∧ (hot.beSettle 0).get PWR_CTL_en 0 = 1 ∧ (hot.beSettle 0).lcHot = true ∧ ((hot.beSettle 0).part 0).lcHeld = 0 ∧
    (p.beSettle 0).beNext 0 = some be ∧ (p.beSettle 0).lentOut be = [] ∧ be.ran = false ∧ (warm.beSettle 0).beHot = true ∧
    ((warm.beSettle 0).part 0).beHeld = 0 ∧ (p.beSettle 0).beHot = false ∧ ((run.cl 0).inst = some be.handle) ∧ s.coreClus be = [0] ∧
    (let held1 := warm.modPart 0 fun x => { x with beHeld := 1 }; (held1.beSettle 0).beHot = true ∧ ((held1.beSettle 0).part 0).beHeld ≠ 0) ∧
    (let held1 := hot.modPart 0 fun x => { x with lcHeld := 1 }; (held1.beSettle 0).lcHot = true ∧ ((held1.beSettle 0).part 0).lcHeld ≠ 0) ∧
    (p.ungate 0).repairing 0 = false ∧ ((p.modSys fun x => { x with repairs := [⟨0, 0, 1, 0⟩] }).ungate 0).repairing 0 = true ∧
    ((p.modPart 0 fun x => { x with since := 1 }).part 0).since + 1000 * p.pf 0 56 4 ≤ p.tick + 1 ∧
    ¬((p.modPart 0 fun x => { x with since := 2 }).part 0).since + 1000 * p.pf 0 56 4 ≤ p.tick + 1 ∧
    (let g := p.modPart 0 fun x => { x with gapEnd := 1 }; (g.beSettle 0).tick < ((g.beSettle 0).part 0).gapEnd) ∧ ((s.beSettle 0).part 0).gapEnd ≤ (s.beSettle 0).tick ∧
    pooled.loopOf 0 = none ∧ theLoop.started = 0 ∧ (s.beSettle 0).tick = 0 := by decide +kernel

/-- Slot 3 of cluster 0 holds a line that the step's start must have back; a best-effort instance is due that has run, or whose line is out. -/
theorem witness_lent_lines : let s := (serving { theLoop with phase := 2 }).put CLU_BSLOT_valid 0 1 3
    let busy := s.modEng 0 fun e => { e with slots := [skein] }
    let again := (pooled.modSys fun x => { x with insts := [{ be with ran := true }] })
    let out := pooled.modSys fun x => { x with insts := [{ be with lent := [(0, 3, 12, false)] }] }
    let lends := parted.modSys fun x => { x with insts := [{ lc with bale := lendBale }] }
    (s.beSettle 0).lentNow 0 = [(0, 3, 0, false)] ∧ (s.beSettle 0).lentQuiet 0 = true ∧ (busy.beSettle 0).lentQuiet 0 = false ∧ (busy.beSettle 0).lentNow 0 ≠ [] ∧
    ((s.put CLU_BORROW_CFG_en 0 1).beSettle 0).get CLU_BORROW_CFG_en 0 = 1 ∧ (s.beSettle 0).returning 0 = false ∧
    (again.beSettle 0).beNext 0 = some { be with ran := true } ∧ (again.beSettle 0).loopOf 0 = none ∧ again.lentOut { be with ran := true } = [] ∧
    ((again.ungate 0).repair 0).repairing 0 = false ∧ ((again.partClus 0).any fun c => (again.cl c).eng.slots.all Skein.done) = true ∧
    (out.beSettle 0).beNext 0 = some { be with lent := [(0, 3, 12, false)] } ∧ out.lentOut { be with lent := [(0, 3, 12, false)] } ≠ [] ∧
    lends.mayLend 0 12 1 = true ∧ lends.mayLend 0 16 1 = false ∧ (lends.modSys fun x => { x with loops := [{ theLoop with phase := 3 }] }).mayLend 0 12 1 = false := by decide +kernel

theorem witness_teardown : let y := (ready.put CLU_CORE_CTL_state 0 1).put CLU_CORE_CTL_yield_req 0 1
    let f := ready.modCl 0 fun x => { x with faulted := 0x0241 }
    let i := (serving theLoop).modCl 0 fun x => { x with faulted := 0x0241, inst := some 9 }
    let o := f.modLok 0 fun x => { x with outs := [out 5 3 1 (.load 0 0)] }
    y.get CLU_CORE_CTL_yield_req 0 = 1 ∧ y.coreActive 0 = true ∧ (y.cl 0).faulted = 0 ∧ (f.cl 0).faulted ≠ 0 ∧ ((f.cl 0).inst).bind f.instAt = none ∧
    (f.stopCtx [0]).ctxDrained [0] = true ∧ (o.stopCtx [0]).ctxDrained [0] = false ∧ ((i.cl 0).inst).bind i.instAt = some lc ∧
    (i.stopCtx (i.heldBy 9)).ctxDrained (i.heldBy 9) = true ∧ (i.stopCtx (i.heldBy 9)).othersQuiet lc = true ∧
    (let two := (i.modCl 1 fun x => { x with inst := some 10 }).modEng 1 fun e => { e with slots := [skein] }
     (two.stopCtx (two.heldBy 9)).othersQuiet lc = false) ∧
    (let n := pooled.modSys fun x => { x with insts := [{ lc with fault := 0x0A52 }] }
     n.noted (n.croftPart (cluCroft 0)).1 = some { lc with fault := 0x0A52 } ∧ (n.cl 0).faulted = 0) ∧
    pooled.noted (pooled.croftPart (cluCroft 0)).1 = none := by decide +kernel

/-! ### The root of trust, events, power and test access -/

/-- The module has booted; it holds a session, a pending key, and a key in slot 2. -/
def bootedNow : State :=
  let s := parted.put SEC_STAT_stage 0 3
  { s with keys := [(2, ⟨[], 5, 1, false, true, []⟩)], rot := { s.rot with sessions := [⟨7, 0, [], 0⟩], pend := [⟨0, List.replicate 16 0, 5, [], []⟩] } }
def deliver : List Byte := request 0x0312 0 (leBytes 8 7 ++ leBytes 8 1 ++ leBytes 20 0 ++ leBytes 1 1 ++ List.replicate 587 0)

theorem witness_root_of_trust : let s := asked bootedNow 17 []
    let create := request 0x0321 0 (leBytes 1 3 ++ leBytes 1 0 ++ leBytes 2 5 ++ leBytes 4 1)
    let other := request 0x0321 0 (leBytes 1 2 ++ leBytes 1 0 ++ leBytes 2 6 ++ leBytes 4 1)
    let open_ := request 0x0311 0 (List.replicate 104 0)
    parted.booted = false ∧ s.booted = true ∧ ((asked s 17 create).box 17).stage = 1 ∧ mHandle create = 0 ∧ mPayLen create = 8 ∧ zeros create 33 1 = true ∧
    mPay create 2 2 = 5 ∧ s.slotOther 3 5 = false ∧ s.slotOther (mPay other 0 1) (mPay other 2 2) = true ∧ s.partExists 0 = true ∧ s.partExists 9 = false ∧
    mPayLen open_ = 104 ∧ zeros open_ 33 7 = true ∧ s.rot.sessions.length < 16 ∧ keyDeliverOk deliver = true ∧ mPay deliver 0 8 = 7 ∧
    s.rot.sessions.find? (fun y => y.id == 7) = some ⟨7, 0, [], 0⟩ ∧ 0 < mPay deliver 8 8 ∧ (tfind s.keys 2).isSome = true ∧ tfind s.keys 3 = none ∧
    cSerial [] ∉ ([] : List Nat) := by decide +kernel

/-- A certificate pair passes when its chain, its signature and its firmware hash do; an image passes when its digest and signature do. -/
theorem witness_root_of_trust_algorithms (hc : ∀ a, Config.chainOk a = true) (hv : ∀ a b c, Config.edVerify a b c = true)
    (hs : ∀ a, Config.sha512 a = List.replicate 64 0) (hk : keyId (Config.fusedKey 0) = 0) :
    bootedNow.peerCode [] (leBytes 4 certMagic ++ leBytes 2 1 ++ List.replicate 202 0) = 0 ∧
    bootedNow.imageCode 1 (leBytes 4 0x474D4946 ++ leBytes 2 1 ++ leBytes 1 1 ++ List.replicate 185 0) = 0 := by
  constructor
  · simp only [State.peerCode, hc, hv, State.fwHash, hs]; decide +kernel
  · simp only [State.imageCode, hv, hs, hk]; decide +kernel

/-- An event raised, and one in the intake queue. -/
def raisedEvent : Event := Event.plain 0x0541 0 0xFF 0 3 0 0
def snapped : Event := { raisedEvent with snaps := some [] }

theorem witness_events : let s := ready.modEvr fun x => { x with raised := [raisedEvent, { raisedEvent with unit := 4 }, raisedEvent], queue := [raisedEvent, snapped] }
    let w := ready.modEvr fun x => { x with queue := [snapped], ring := [(1, snapped)] }
    let dry := s.modEvr fun x => { x with buckets := [(0x0541, 32)] }
    let r := request 0x0172 0 (leBytes 4 0 ++ leBytes 4 5)
    s.evr.raised[1]? = some { raisedEvent with unit := 4 } ∧ s.evr.raised[2]? = some raisedEvent ∧ freeCode raisedEvent.code = false ∧
    tget 0 s.evr.buckets raisedEvent.code < (s.evrRate raisedEvent.code).2 ∧ s.evr.queue.length < 512 ∧
    ¬(tget 0 dry.evr.buckets raisedEvent.code < (dry.evrRate raisedEvent.code).2) ∧ s.evr.queue[0]? = some raisedEvent ∧ s.evr.queue[1]? = some snapped ∧
    raisedEvent.snaps = none ∧ w.evr.queue = [snapped] ∧ ringUsed w.evr.ring + 1 ≤ 8192 ∧ mType r = 0x0172 ∧ mHandle r = 0 ∧ mPayLen r = 8 ∧ zeros r 38 2 = true ∧
    mPay r 4 2 = 5 ∧
    (let l := fun (off : Nat) => ((s.put EVR_SNAP_valid 0 1 5 0).put EVR_SNAP_code 0 0x541 5 0).put EVR_SNAP_off 0 off 5 0
     (l 0).snapList 0x541 = some 5 ∧ (l 0).snapEntries 5 = [(l 0).rreg EVR_SNAP 0 5 0] ∧ nbit ((l 0).rreg EVR_SNAP 0 5 0) 1 = false ∧
     (regOf (0x8000000000 + 3 * 0x10000 + nfld ((l 0).rreg EVR_SNAP 0 5 0) 3 43 * 8)).isSome = true ∧
     (regOf (0x8000000000 + 3 * 0x10000 + nfld ((l 0x1FFF).rreg EVR_SNAP 0 5 0) 3 43 * 8)).isSome = false) := by decide +kernel

/-- A clear token up to event 0. -/
def token : List Byte := leBytes 4 0x52454C43 ++ leBytes 2 1 ++ leBytes 1 1 ++ leBytes 1 0 ++ leBytes 8 9 ++ leBytes 4 0 ++ leBytes 4 0 ++ leBytes 8 6 ++ leBytes 4 0 ++ List.replicate 92 0

theorem witness_event_tokens (hk : Config.clearKey = some []) (hv : ∀ a b c, Config.edVerify a b c = true) (hs : Config.serial = 9) (hn : ready.evrNonce = 6) :
    firstFail (ready.tokChecks token) = 0 ∧ leAt token 6 1 = 1 ∧ firstFail (ready.tokChecks []) ≠ 0 := by
  refine ⟨?_, by decide +kernel, ?_⟩
  · simp only [State.tokChecks, hk, hv, hs, hn]; decide +kernel
  · simp only [State.tokChecks, hk, hv, hs, hn]; decide +kernel

/-- Partition 0 with a best-effort instance. -/
def run0 : State := parted.modPart 0 fun x => { x with be := some 10 }

theorem witness_resets : let s := State.reset
    let cool := (s.put PWR_MEAS_vin_mv 0 48000)
    let off := { s with pwr := { s.pwr with off := true } }
    let gone := s.modSys fun x => { x with up := true }
    s.pwr.off = false ∧ off.pwr.off = true ∧ s.pwr.tripped = false ∧ s.resetDue = 0 ∧ cool.get PWR_TEMP_die_max 0 < cool.get PWR_CAP_t_soft 0 ∧
    cool.get PWR_MEAS_vin_mv 0 = 48000 ∧ s.get PCI_LINK_STAT_up 0 = 0 ∧ (s.put PCI_LINK_STAT_up 0 1).get PCI_LINK_STAT_up 0 = 1 ∧
    s.booting = true ∧ (s.put PWR_STATE_cause 0 1).get PWR_STATE_cause 0 = 1 ∧ s.get PWR_STATE_cause 0 ≠ 1 ∧ gone.booting = false ∧ gone.resetDue = 0 ∧
    gone.absorbs = false ∧ s.absorbs = true ∧ (parted.modSys fun x => { x with up := true }).booting = false ∧
    (∀ p < 16, gone.partExists p = false) ∧ gone.sys.up = true ∧ ¬((gone.croftPart 0).1 < 16) ∧ (run0.croftPart 0).1 = 0 ∧ (run0.part 0).be.isSome = true := by decide +kernel

theorem witness_measurement : let s := State.reset
    let low := (s.put PWR_CTL_en 0 0)
    s.pwr.off = false ∧ s.pwr.degraded = false ∧ s.get PWR_CTL_en 0 = 1 ∧ low.get PWR_CTL_en 0 = 0 ∧
    1000 ≤ low.get PWR_CAP_cap_w 0 ∧ low.get PWR_CAP_cap_w 0 ≤ 4800 ∧ 50 ≤ low.get PWR_CAP_soft_pct 0 ∧ low.get PWR_CAP_soft_pct 0 ≤ 99 ∧
    low.get PWR_CAP_t_soft 0 < low.get PWR_CAP_t_hard 0 ∧ low.get PWR_CAP_t_hard 0 < 105 ∧
    (low.put PWR_CAP_cap_w 0 999).get PWR_CAP_cap_w 0 = 999 ∧ (low.put PWR_CAP_soft_pct 0 49).get PWR_CAP_soft_pct 0 = 49 ∧
    (low.put PWR_CAP_t_hard 0 0).get PWR_CAP_t_hard 0 = 0 ∧ s.rot.unlocked = false := by decide +kernel

theorem witness_unlock (hv : ∀ a b c, Config.edVerify a b c = true) (hs : Config.serial = 9) :
    let k := leBytes 8 9 ++ leBytes 8 5 ++ List.replicate 112 0
    k.length = 128 ∧ leAt k 0 8 = Config.serial ∧ zeros k 16 48 = true ∧ leAt k 8 8 = 5 ∧
    Config.edVerify (Config.fusedKey 1) (Config.sha512 (k.take 64)) (k.drop 64) = true := by
  intro k
  exact ⟨by decide +kernel, by rw [hs]; decide +kernel, by decide +kernel, by decide +kernel, hv _ _ _⟩

/-! ### Worked examples of the spec -/

/-- Cluster 0 of a partition that holds crofts 5, 6 and 13. -/
def three : State := ((ready.put CLU_ALIAS_CTL_croft_count 0 3).wreg CLU_ALIAS_MAP 0 0 0 (5 + 6 * 16 + 13 * 256))

/-- The worked examples of chapter "Address space, identifiers and access rules": the window byte of cluster 687, and channel 111. -/
theorem test_alias_example : lands (three.resolve 0 .load 0x49B00400 1) (.mem 0x157B00400) = true ∧
    lands (three.resolve 0 .load 0x1640003800 1) (.mem 0x3740003800) = true ∧ 0x157B00400 / 0x800000 = 687 ∧ hbmChan 0x3740003800 = 111 := by decide +kernel

/-- The dot product of chapter "Number formats and rounding" in both operand formats. -/
theorem test_dot_example :
    let tree := fun (f : FpFmt) (big small : Nat) => acc40.enc none (accRow 8 XNum.zero (f.dec big :: List.replicate 7 (f.dec small)) (f.dec big :: List.replicate 7 (f.dec small)))
    tree bf16 0x4380 0x3B80 = 0x4780000003 ∧ tree e4m3 0x78 0x02 = 0x4780000003 ∧ bf16.enc none (acc40.dec 0x4780000003) = 0x4780 := by decide +kernel

/-- Stochastic rounding of 1 + 2^-9 + 2^-10 to BF16, and rank-ordered binary32 sums. -/
theorem test_rounding_examples :
    let x := (XNum.mk false 1 0).add ((XNum.mk false 1 (-9)).add (XNum.mk false 1 (-10)))
    bf16.enc (some 0x9F3C) x = 0x3F80 ∧ bf16.enc (some 0xA000) x = 0x3F81 ∧ bf16.enc none x = 0x3F80 ∧
    bin32.enc none (f32Add (f32Add (f32Add XNum.zero (bf16.dec 0x3F80)) (bf16.dec 0x4B80)) (bf16.dec 0xCB80)) = 0 := by decide +kernel

/-- Slots 36 and 37 of the worked example of chapter "Host attachment": command 101 stands at sq_base + 0x1200, completion 88 at entry 87. -/
theorem test_ring_example : ringPlace 101 64 = 36 ∧ 128 * ringPlace 101 64 = 0x1200 ∧ ringPlace 88 256 = 87 ∧ 32 * ringPlace 88 256 = 0xAE0 := by decide +kernel

/-! ### The whole step, and what remains -/

theorem test_reset_wf : State.reset.wf = true := by decide +kernel

theorem witness_step_wf : State.reset.wf = true ∧ ∃ t, step State.reset = .next t := ⟨by decide +kernel, _, rfl⟩

theorem witness_adapter_enable :
    let s := (ready.put STR_QCFG_en 0 1 0 0).put STR_QCFG_class 0 1 0 0
    ready.get ADP_CTL_en 0 = 0 ∧ s.get ADP_CTL_en 0 = 0 ∧ firstFail (adpChecks 0 s) = 0 ∧ firstFail (adpChecks 0 ready) = 0x0D11 := by decide +kernel

end Sys2Proof.Tests
end

/-! # The reset state (O2)

A register of the reset state reads its reset value, so each clause about a register field is a fact about the register table alone. -/

section
namespace Sys2Proof.Machine

open Sys2Proof

/-! ### What the reset state reads -/

/-- R7: nothing has written a register after reset. -/
@[simp] theorem State.rreg_reset (r : Reg) (u i j : Nat) : State.reset.rreg r u i j = r.reset i % 2 ^ 64 := by
  simp [State.rreg, State.reset, tget]

theorem State.get_reset (f : Fld) (u i j : Nat) : State.reset.get f u i j = nfld (f.reg.reset i % 2 ^ 64) f.lo f.w := by
  rw [State.get, State.rreg_reset]

/-- A field that is not repeated holds one value in every unit after reset. -/
theorem State.get_reset_unit (f : Fld) (u : Nat) : State.reset.get f u = State.reset.get f 0 := by
  rw [State.get_reset, State.get_reset]

/-- Log 18: no byte is listed after reset, and an unlisted byte of the on-chip windows is zero. -/
theorem State.rawByte_reset_onchip (a : Nat) (h : a < onchipTop) : State.reset.rawByte a = 0 := by
  simp [State.rawByte, State.reset, tfind, unlistedByte, h]

theorem State.partExists_reset (p : Nat) : State.reset.partExists p = false := by
  have hstate : State.reset.get PRT_PART_CTL_state 0 p = 0 := by
    rw [State.get_reset]; rfl
  simp [State.partExists, hstate]

end Sys2Proof.Machine

namespace Sys2Proof

open Sys2Proof.Machine

/-- Settles O2: the tables are empty, every register field reads its reset value, and the fields of a unit are those of unit 0. -/
theorem resetLeavesTheSpecifiedValues : Obligations.ResetLeavesTheSpecifiedValues := by
  refine ⟨rfl, rfl, ?nextSeq, ?oldest, rfl, ?recorderOn, rfl, ?powerOn, ?capW, ?softPct, ?tSoft, ?tHard, ?mailboxes, rfl, rfl, ?linkDown,
    fun p _ => State.partExists_reset p, ?engines, ?channels, ?links, ?hostChannels, State.rawByte_reset_onchip⟩
  case mailboxes => exact fun b _ => (State.get_reset_unit MBX_STAT_state b).trans rfl
  case engines => exact fun c _ => (State.get_reset_unit CTL_SK_CTL_en c).trans rfl
  case channels => exact fun ch _ => (State.get_reset_unit HBM_CTL_en ch).trans rfl
  case links => exact fun l _ => (State.get_reset_unit LNK_CTL_en l).trans rfl
  case hostChannels => exact fun ch _ => (State.get_reset_unit CHN_CTL_open ch).trans rfl
  all_goals exact (State.get_reset _ _ _ _).trans rfl

end Sys2Proof
end

/-! # The register map: an address names its register (Table 2.4)

The blocks of a cluster, a channel and a link stand 64 KiB apart and hold the same registers, so the search of the register tables at an
address of unit `u` is the search at unit 0 (`regAt_shift`). What remains of a register is a finite check of its repetitions in unit 0. -/

section
namespace Sys2Proof.Machine

open Sys2Proof

/-! ### One register -/

/-- Distance from a register's first repetition to its last. -/
def Reg.span (r : Reg) : Nat := (r.n1 - 1) * r.s1 + (r.n2 - 1) * r.s2

/-- Does the register stand in a block of `U` units, 64 KiB apart, whose unit 0 starts at `B`. -/
def Reg.inBlock (r : Reg) (B U : Nat) : Bool :=
  r.unit == 0x10000 && r.units == U && decide (B ≤ r.base) && decide (r.base + r.span < B + 0x10000)

/-- Does the register stand outside a range of addresses, in every unit. -/
def Reg.apart (r : Reg) (lo hi : Nat) : Bool := decide (hi ≤ r.base) || decide (r.base + (r.units - 1) * r.unit + r.span < lo)

/-- Outer repetition that a distance from the first repetition falls into. -/
def Reg.outerAt (r : Reg) (d : Nat) : Nat := if r.s1 = 0 then 0 else if r.s2 ≤ r.s1 then Nat.min (d / r.s1) (r.n1 - 1) else 0

/-- Inner repetition that a distance from the first one falls into. -/
def Reg.innerAt (r : Reg) (d : Nat) : Nat := if r.s2 = 0 then 0 else Nat.min (d / r.s2) (r.n2 - 1)

/-- The repetition of unit `u` at address `a`, `d` bytes above the unit's first repetition, if `a` is the address of one. -/
def Reg.hit (r : Reg) (a u d : Nat) : Option (Nat × Nat × Nat) :=
  let i := r.outerAt d
  let j := r.innerAt (d - i * r.s1)
  if u < r.units ∧ r.addr u i j = a then some (u, i, j) else none

theorem Reg.find_eq (r : Reg) (a : Nat) : r.find a = if a < r.base then none else
    r.hit a (if r.unit = 0 then 0 else (a - r.base) / r.unit) (if r.unit = 0 then a - r.base else (a - r.base) % r.unit) := rfl

theorem Reg.outerAt_le (r : Reg) (d : Nat) : r.outerAt d ≤ r.n1 - 1 := by
  unfold Reg.outerAt
  split
  · exact Nat.zero_le _
  · split
    · exact Nat.min_le_right _ _
    · exact Nat.zero_le _

theorem Reg.innerAt_le (r : Reg) (d : Nat) : r.innerAt d ≤ r.n2 - 1 := by
  unfold Reg.innerAt
  split
  · exact Nat.zero_le _
  · exact Nat.min_le_right _ _

theorem Reg.hit_some {r : Reg} {a u d u' i j : Nat} (h : r.hit a u d = some (u', i, j)) :
    u' = u ∧ r.addr u' i j = a ∧ u' < r.units ∧ i ≤ r.n1 - 1 ∧ j ≤ r.n2 - 1 := by
  obtain ⟨⟨hu, haddr⟩, hx⟩ := Option.ite_none_right_eq_some.mp h
  simp only [Option.some.injEq, Prod.mk.injEq] at hx
  obtain ⟨rfl, rfl, rfl⟩ := hx
  exact ⟨rfl, haddr, hu, r.outerAt_le _, r.innerAt_le _⟩

/-- What a register's search finds is a unit and a repetition of it at that address. -/
theorem Reg.find_some {r : Reg} {a u i j : Nat} (h : r.find a = some (u, i, j)) :
    r.addr u i j = a ∧ u < r.units ∧ i ≤ r.n1 - 1 ∧ j ≤ r.n2 - 1 := by
  rw [Reg.find_eq] at h
  exact (Reg.hit_some (Option.ite_none_left_eq_some.mp h).2).2

/-- A block that is not repeated has unit 0 alone. -/
theorem Reg.find_unit_zero {r : Reg} {a u i j : Nat} (hunit : r.unit = 0) (h : r.find a = some (u, i, j)) : u = 0 := by
  rw [Reg.find_eq, if_pos hunit] at h
  exact (Reg.hit_some (Option.ite_none_left_eq_some.mp h).2).1

/-- The repetitions reach no further than the span. -/
theorem Reg.repeat_le_span {r : Reg} {i j : Nat} (hi : i ≤ r.n1 - 1) (hj : j ≤ r.n2 - 1) : i * r.s1 + j * r.s2 ≤ r.span :=
  Nat.add_le_add (Nat.mul_le_mul_right _ hi) (Nat.mul_le_mul_right _ hj)

theorem Reg.find_apart {r : Reg} {lo hi a : Nat} (hr : r.apart lo hi = true) (hlo : lo ≤ a) (hhi : a < hi) : r.find a = none := by
  rcases hfind : r.find a with _ | ⟨u, i, j⟩
  · rfl
  · obtain ⟨haddr, hu, hi', hj⟩ := Reg.find_some hfind
    have hrep := Reg.repeat_le_span hi' hj
    have hunits : u * r.unit ≤ (r.units - 1) * r.unit := Nat.mul_le_mul_right _ (by omega)
    simp only [Reg.apart, Bool.or_eq_true, decide_eq_true_eq] at hr
    simp only [Reg.addr] at haddr
    omega

/-- The search of a register of a block finds in unit `c` what it finds at the same place of unit 0. -/
theorem Reg.find_shift {r : Reg} {B U c o : Nat} (hr : r.inBlock B U = true) (hc : c < U) (ho : o < 0x10000) :
    r.find (B + c * 0x10000 + o) = (r.find (B + o)).map fun x => (c, x.2) := by
  simp only [Reg.inBlock, Bool.and_eq_true, beq_iff_eq, decide_eq_true_eq] at hr
  obtain ⟨⟨⟨hunit, hunits⟩, hB⟩, hspan⟩ := hr
  by_cases hlow : B + o < r.base
  · have hzero : r.find (B + o) = none := by simp [Reg.find, hlow]
    rcases hfind : r.find (B + c * 0x10000 + o) with _ | ⟨u, i, j⟩
    · simp [hzero]
    · obtain ⟨haddr, hu, hi, hj⟩ := Reg.find_some hfind
      have hrep := Reg.repeat_le_span hi hj
      simp only [Reg.addr, hunit] at haddr
      omega
  · have hquot : (B + c * 0x10000 + o - r.base) / 0x10000 = c := by omega
    have hrem : (B + c * 0x10000 + o - r.base) % 0x10000 = B + o - r.base := by omega
    have hquot0 : (B + o - r.base) / 0x10000 = 0 := by omega
    have hrem0 : (B + o - r.base) % 0x10000 = B + o - r.base := by omega
    have hhigh : ¬ B + c * 0x10000 + o < r.base := by omega
    have haddr : ∀ i j, r.addr c i j = B + c * 0x10000 + o ↔ r.addr 0 i j = B + o := by
      intro i j
      simp only [Reg.addr, hunit]
      omega
    have hU : 0 < U := by omega
    have hne : ¬ 0x10000 = 0 := by decide
    simp only [Reg.find_eq, hlow, hhigh, if_false, hunit, hquot, hrem, hquot0, hrem0, Reg.hit, haddr, hunits, hc, hU, hne, true_and]
    split
    · rfl
    · rfl

/-! ### The search of all tables -/

/-- Is every register either in the block or outside it in every unit. -/
def blockAt (B U : Nat) : Bool := allRegs.all fun r => r.inBlock B U || r.apart B (B + U * 0x10000)

/-- Two searches that agree on every element of a list find the same. -/
theorem findSome?_congr {α β : Type} {f g : α → Option β} {l : List α} (h : ∀ x ∈ l, f x = g x) : l.findSome? f = l.findSome? g := by
  induction l with
  | nil => rfl
  | cons x t ih =>
    have htail : t.findSome? f = t.findSome? g := ih fun y hy => h y (List.mem_cons_of_mem x hy)
    rw [List.findSome?_cons, List.findSome?_cons, h x List.mem_cons_self, htail]

theorem regAt_shift {B U c o : Nat} (hblock : blockAt B U = true) (hc : c < U) (ho : o < 0x10000) :
    regAt (B + c * 0x10000 + o) = (regAt (B + o)).map fun x => (x.1, c, x.2.2) := by
  have hfind : ∀ r ∈ allRegs, r.find (B + c * 0x10000 + o) = (r.find (B + o)).map fun x => (c, x.2) := by
    intro r hr
    have hplace := List.all_eq_true.mp hblock r hr
    rcases Bool.or_eq_true _ _ ▸ hplace with hin | hout
    · exact Reg.find_shift hin hc ho
    · rw [Reg.find_apart hout (by omega) (by omega), Reg.find_apart hout (by omega) (by omega)]
      rfl
  rw [regAt, regAt, List.map_findSome?]
  refine findSome?_congr fun r hr => ?_
  rw [hfind r hr, Function.comp_apply, Option.map_map, Option.map_map]
  rfl

/-- What the search finds is a register of the tables, at its address. -/
theorem regAt_some {a u i j : Nat} {r : Reg} (h : regAt a = some (r, u, i, j)) : r ∈ allRegs ∧ r.find a = some (u, i, j) := by
  obtain ⟨q, hq, hfound⟩ := List.exists_of_findSome?_eq_some h
  obtain ⟨x, hx, hpair⟩ := Option.map_eq_some_iff.mp hfound
  obtain ⟨rfl, rfl⟩ := Prod.mk.inj hpair
  exact ⟨hq, hx⟩

theorem regOf_some {a u i j : Nat} {r : Reg} (h : regOf a = some (r, u, i, j)) : r ∈ allRegs ∧ ∃ x, r.find x = some (u, i, j) := by
  have hat : ∃ x, regAt x = some (r, u, i, j) := by
    simp only [regOf] at h
    split at h
    · rename_i y hy
      rw [h] at hy
      split at hy
      · exact ⟨_, hy⟩
      · exact ⟨_, hy⟩
    · simp only [ioRegAt] at h
      split at h
      · obtain ⟨o, -, ho⟩ := Option.bind_eq_some_iff.mp h
        exact ⟨_, ho⟩
      · cases h
  obtain ⟨x, hx⟩ := hat
  exact ⟨(regAt_some hx).1, x, (regAt_some hx).2⟩

/-- Below the blocks of I/O die 1 the map is the tables'. -/
theorem regOf_of_regAt {a : Nat} {x : Reg × Nat × Nat × Nat} (ha : a < 0x8030140000) (h : regAt a = some x) : regOf a = some x := by
  have hdie : ¬ (0x8030140000 ≤ a ∧ a < 0x8030160000) := by omega
  simp [regOf, hdie, h]

/-- A map without repeated values on a list is injective there. -/
theorem eq_of_nodup_map {α β : Type} {f : α → β} {l : List α} (hnodup : (l.map f).Nodup) {x y : α} (hx : x ∈ l) (hy : y ∈ l)
    (h : f x = f y) : x = y := by
  induction l with
  | nil => cases hx
  | cons a t ih =>
    obtain ⟨hhead, htail⟩ := List.nodup_cons.mp hnodup
    rcases List.mem_cons.mp hx with rfl | hxt
    · rcases List.mem_cons.mp hy with rfl | hyt
      · rfl
      · exact absurd (h ▸ List.mem_map_of_mem hyt) hhead
    · rcases List.mem_cons.mp hy with rfl | hyt
      · exact absurd (h ▸ List.mem_map_of_mem hxt) hhead
      · exact ih htail hxt hyt

/-- No two registers of the tables have the same base. -/
theorem reg_eq_of_base {r q : Reg} (hr : r ∈ allRegs) (hq : q ∈ allRegs) (h : r.base = q.base) : r = q :=
  eq_of_nodup_map (f := Reg.base) (by decide +kernel) hr hq h

/-! ### The registers that a command writes whole -/

/-- Does every repetition of the register in unit 0 lead back to the register. -/
def Reg.placed (r : Reg) : Bool :=
  (List.range r.n1).all fun i => (List.range r.n2).all fun j => (regAt (r.addr 0 i j)).map (fun x => (x.1.base, x.2)) == some (r.base, 0, i, j)

/-- First address of the block of unit 0. -/
def Reg.block (r : Reg) : Nat := r.base - r.base % 0x10000

theorem regAt_of_placed {r : Reg} {i j : Nat} (hr : r ∈ allRegs) (hp : r.placed = true) (hi : i < r.n1) (hj : j < r.n2) :
    regAt (r.addr 0 i j) = some (r, 0, i, j) := by
  have hrow := List.all_eq_true.mp hp i (List.mem_range.mpr hi)
  have hcell := eq_of_beq (List.all_eq_true.mp hrow j (List.mem_range.mpr hj))
  obtain ⟨⟨q, k⟩, hq, hkey⟩ := Option.map_eq_some_iff.mp hcell
  obtain ⟨hbase, rfl⟩ := Prod.mk.inj hkey
  rw [hq, reg_eq_of_base (regAt_some hq).1 hr hbase]

/-- A repetition stands at the same place of every unit's block. -/
theorem Reg.addr_inBlock {r : Reg} {B U i j : Nat} (hin : r.inBlock B U = true) (hi : i < r.n1) (hj : j < r.n2) :
    ∃ o < 0x10000, ∀ u, r.addr u i j = B + u * 0x10000 + o := by
  have hrep : i * r.s1 + j * r.s2 ≤ r.span := Reg.repeat_le_span (by omega) (by omega)
  simp only [Reg.inBlock, Bool.and_eq_true, beq_iff_eq, decide_eq_true_eq] at hin
  obtain ⟨⟨⟨hunit, -⟩, hB⟩, hspan⟩ := hin
  refine ⟨r.base - B + (i * r.s1 + j * r.s2), by omega, fun u => ?_⟩
  simp only [Reg.addr, hunit]
  omega

/-- A register that leads back to itself in unit 0 does so in every unit of its block. -/
theorem regAt_addr {r : Reg} {B U u i j : Nat} (hr : r ∈ allRegs) (hp : r.placed = true) (hin : r.inBlock B U = true)
    (hblock : blockAt B U = true) (hu : u < U) (hi : i < r.n1) (hj : j < r.n2) : regAt (r.addr u i j) = some (r, u, i, j) := by
  obtain ⟨o, ho, haddr⟩ := Reg.addr_inBlock hin hi hj
  have hzero := regAt_of_placed hr hp hi hj
  rw [haddr, Nat.zero_mul, Nat.add_zero] at hzero
  rw [haddr, regAt_shift hblock hu ho, hzero]
  rfl

/-- Registers of the repeated blocks whose writes have a command of their own, and CLU_SPAN. -/
def unitRegs : List Reg :=
  [CLU_ALIAS_CTL, CLU_SPAN, CLU_CLEAR, CLU_RETURN, CTL_SK_CTL, CTL_SKQ_PUSH, CTL_SEM_ADD, MAT_CTL, MAT_CTX_CTL, STR_QCFG, HBM_PAGE_CMD, UPD_CMD,
    LNK_CTL]

theorem unitRegs_subset : unitRegs ⊆ allRegs := by
  simp [unitRegs, allRegs, regsPart0, regsPart1, regsPart2, regsPart3, regsPart4, regsPart5, regsPart6]

/-- The checks of one register of the repeated blocks: all of them are closed facts about the tables. -/
def Reg.mapped (r : Reg) : Bool :=
  r.placed && r.inBlock r.block r.units && blockAt r.block r.units && decide (r.block + r.units * 0x10000 ≤ 0x8030000000) &&
    decide (8 ∣ r.base ∧ 8 ∣ r.s1 ∧ 8 ∣ r.s2)

section
variable {r : Reg} {u i j : Nat} (hr : r ∈ unitRegs) (hu : u < r.units) (hi : i < r.n1) (hj : j < r.n2)
include hr

theorem mapped_of_unitRegs : r.mapped = true := by
  have hall : ∀ q ∈ unitRegs, q.mapped = true := by decide +kernel
  exact hall r hr

theorem unitReg_addr_aligned (u i j : Nat) : r.addr u i j % 8 = 0 := by
  have hmapped := mapped_of_unitRegs hr
  simp only [Reg.mapped, Reg.inBlock, Bool.and_eq_true, decide_eq_true_eq, beq_iff_eq] at hmapped
  obtain ⟨⟨⟨⟨-, ⟨⟨hunit, -⟩, -⟩, -⟩, -⟩, -⟩, hbase, hs1, hs2⟩ := hmapped
  have hblock : 8 ∣ u * r.unit := Nat.dvd_mul_left_of_dvd (by rw [hunit]; decide) u
  have houter : 8 ∣ i * r.s1 := Nat.dvd_mul_left_of_dvd hs1 i
  have hinner : 8 ∣ j * r.s2 := Nat.dvd_mul_left_of_dvd hs2 j
  exact Nat.mod_eq_zero_of_dvd (Nat.dvd_add (Nat.dvd_add (Nat.dvd_add hbase hblock) houter) hinner)

include hu hi hj

theorem unitReg_addr_lt : r.addr u i j < 0x8030000000 := by
  have hmapped := mapped_of_unitRegs hr
  simp only [Reg.mapped, Bool.and_eq_true, decide_eq_true_eq] at hmapped
  obtain ⟨⟨⟨⟨-, hin⟩, -⟩, htop⟩, -⟩ := hmapped
  obtain ⟨o, ho, haddr⟩ := Reg.addr_inBlock hin hi hj
  rw [haddr]
  omega

/-- Table 2.4: the address of a repetition names the register, the unit and the repetition. -/
theorem regOf_addr : regOf (r.addr u i j) = some (r, u, i, j) := by
  have hmapped := mapped_of_unitRegs hr
  simp only [Reg.mapped, Bool.and_eq_true, decide_eq_true_eq] at hmapped
  obtain ⟨⟨⟨⟨hp, hin⟩, hblock⟩, -⟩, -⟩ := hmapped
  have hlt := unitReg_addr_lt hr hu hi hj
  exact regOf_of_regAt (by omega) (regAt_addr (unitRegs_subset hr) hp hin hblock hu hi hj)

end

theorem regOf_pwrCtl : regOf (PWR_CTL.addr 0 0 0) = some (PWR_CTL, 0, 0, 0) := rfl

end Sys2Proof.Machine
end

/-! # Bits of a register write

A bit of a number, of the mask of an access and of the value moved into the access's bytes. -/

section
namespace Sys2Proof.Machine

open Sys2Proof

theorem nbit_eq_testBit (n i : Nat) : nbit n i = n.testBit i := by
  rw [nbit, Nat.shiftRight_eq_div_pow, Nat.testBit_eq_decide_div_mod_eq]
  exact rfl

theorem nbit_mod_two_pow {n k i : Nat} (hi : i < k) : nbit (n % 2 ^ k) i = nbit n i := by
  simp [nbit_eq_testBit, Nat.testBit_mod_two_pow, hi]

theorem nbit_and (a b n : Nat) : nbit (a &&& b) n = (nbit a n && nbit b n) := by
  simp only [nbit_eq_testBit, Nat.testBit_and]

theorem nbit_or (a b n : Nat) : nbit (a ||| b) n = (nbit a n || nbit b n) := by
  simp only [nbit_eq_testBit, Nat.testBit_or]

/-- Taking away the bits that a number shares with a mask clears them and no other. -/
theorem nbit_sub_and (a b n : Nat) : nbit (a - (a &&& b)) n = (nbit a n && !nbit b n) := by
  simp only [nbit_eq_testBit]
  induction n generalizing a b with
  | zero =>
    have hle : a &&& b ≤ a := Nat.and_le_left
    have hlow := Nat.testBit_and a b 0
    generalize a &&& b = c at *
    rcases Nat.mod_two_eq_zero_or_one a with ha | ha <;> rcases Nat.mod_two_eq_zero_or_one b with hb | hb <;>
      simp [Nat.testBit_zero, ha, hb] at hlow ⊢ <;> omega
  | succ n ih =>
    have hhalf : (a - (a &&& b)) / 2 = a / 2 - (a / 2 &&& b / 2) := by
      have hle : a &&& b ≤ a := Nat.and_le_left
      have hlow := Nat.testBit_and a b 0
      rw [← Nat.and_div_two]
      generalize a &&& b = c at *
      rcases Nat.mod_two_eq_zero_or_one a with ha | ha <;> simp [Nat.testBit_zero, ha] at hlow <;> omega
    simp only [Nat.testBit_succ, hhalf, ih]

/-- Two numbers with the same bits in a field hold the same field. -/
theorem nfld_congr {a b lo w : Nat} (h : ∀ n < lo + w, lo ≤ n → nbit a n = nbit b n) : nfld a lo w = nfld b lo w := by
  refine Nat.eq_of_testBit_eq fun k => ?_
  simp only [nfld, Nat.testBit_mod_two_pow, Nat.testBit_shiftRight]
  by_cases hk : k < w
  · have := h (lo + k) (by omega) (by omega)
    simp only [nbit_eq_testBit] at this
    rw [this]
  · simp [hk]

/-- A mask of all 64 bits reaches each of them. -/
theorem nbit_whole {n : Nat} (hn : n < 64) : nbit (2 ^ 64 - 1) n = true := by
  rw [nbit_eq_testBit, Nat.testBit_two_pow_sub_one, decide_eq_true hn]

/-- The mask of an access selects the bits of its bytes. -/
theorem nbit_accessMask {off size n : Nat} (hsize : size = 4 ∨ size = 8) (halign : off % size = 0) (hn : n < 64) :
    nbit (accessMask off size) n = decide (8 * (off % 8) ≤ n ∧ n < 8 * (off % 8) + 8 * size) := by
  rw [nbit_eq_testBit]
  rcases hsize with rfl | rfl
  · have hhalf : off % 8 = 0 ∨ off % 8 = 4 := by omega
    rcases hhalf with hlow | hhigh
    · have hmask : accessMask off 4 = 2 ^ 32 - 1 := by simp [accessMask, hlow]
      rw [hmask, hlow, Nat.testBit_two_pow_sub_one]
      simp
    · have hmask : accessMask off 4 = (2 ^ 32 - 1) * 2 ^ 32 := by simp [accessMask, hhigh]
      rw [hmask, hhigh, Nat.testBit_mul_two_pow, Nat.testBit_two_pow_sub_one, Bool.decide_and]
      exact congrArg _ (decide_eq_decide.mpr (by omega))
  · have hmask : accessMask off 8 = 2 ^ 64 - 1 := rfl
    rw [hmask, halign, Nat.testBit_two_pow_sub_one]
    simp

/-- The value of an access stands in its bytes, bit for bit. -/
theorem nbit_accessValue {v size p n : Nat} (hn : 8 * p ≤ n ∧ n < 8 * p + 8 * size) :
    nbit (v % 2 ^ (8 * size) * 2 ^ (8 * p)) n = nbit v (n - 8 * p) := by
  have hlow : n - 8 * p < 8 * size := by omega
  simp [nbit_eq_testBit, Nat.testBit_mul_two_pow, Nat.testBit_mod_two_pow, hn.1, hlow]

end Sys2Proof.Machine
end

/-! # REGISTER_WRITE (O5)

Every write ends in one of two ways. A register that is no enable or command register takes the plain write of R7
(`State.regWrite_plain`), of which each bit is known (`State.nbit_accessWrite`). A whole write to an enable or command register is handed to
its block with the value as written (`exec_write_cluster` and its like), where the model's command stands. -/

section
namespace Sys2Proof.Machine

open Sys2Proof

/-! ### The plain write (R7) -/

/-- Is a bit of a register open to a write: it is RW, or RWL while the enable that locks it is 0. -/
def State.opensBit (s : State) (r : Reg) (u i j n : Nat) : Bool := nbit r.rw n || nbit r.rwl n && !s.lockedReg r u i j

/-- Each bit of a register after a plain write: stored where the access reaches an open bit, cleared where a 1 meets a W1C bit, else kept. -/
theorem State.nbit_accessWrite (s : State) (r : Reg) (u i j v mask : Nat) {n : Nat} (hn : n < 64) :
    nbit ((s.accessWrite r u i j v mask).rreg r u i j) n =
      if (s.opensBit r u i j n && nbit mask n) = true then nbit v n
      else nbit (s.rreg r u i j) n && !(nbit r.w1c n && nbit v n && nbit mask n) := by
  have hstored : nbit ((r.rw ||| if s.lockedReg r u i j then 0 else r.rwl) &&& mask) n = (s.opensBit r u i j n && nbit mask n) := by
    simp only [State.opensBit, nbit_and, nbit_or]
    cases s.lockedReg r u i j <;> simp [nbit_eq_testBit]
  rw [State.accessWrite, State.rreg_wreg_same, nbit_mod_two_pow hn, nbit_or, nbit_sub_and, nbit_or, nbit_and v, nbit_and (r.w1c &&& v),
    nbit_and r.w1c, hstored]
  cases (s.opensBit r u i j n && nbit mask n)
  · simp [Bool.and_comm (nbit v n)]
  · simp

theorem State.accessWrite_regsBut (s : State) (r : Reg) (u i j v mask : Nat) :
    regsBut s (s.accessWrite r u i j v mask) [r.addr u i j] := fun _ ha =>
  State.tfind_wreg_ne _ _ _ _ _ _ _ (fun h => ha (List.mem_singleton.mpr h))

theorem State.accessWrite_onlyRegs (s : State) (r : Reg) (u i j v mask : Nat) : onlyRegs s (s.accessWrite r u i j v mask) := rfl

/-! ### Which registers take the plain write -/

/-- A write to a station's register while no skein holds the station. The definition is unfolded as a constant: at an open register its
match would have the kernel subtract the base of the register blocks in unary. -/
theorem State.stnWrite_free (s : State) {r : Reg} {c i : Nat} (j v mask : Nat) (hstn : ∀ p, r.stnOf i = some p → s.stnHeld c p.1 = false) :
    s.stnWrite r c i j v mask = s.accessWrite r c i j v mask := by
  obtain ⟨write, hwrite⟩ : ∃ write, write = @State.stnWrite := ⟨_, rfl⟩
  rw [← hwrite]
  delta State.stnWrite at hwrite
  subst hwrite
  dsimp only
  generalize r.stnOf i = station at *
  rcases station with _ | ⟨stn, lost⟩
  · rfl
  · simp only [hstn _ rfl, Bool.false_eq_true, and_false, if_false]

/-- The I/O dies' blocks have unit 0 alone. -/
theorem regOf_unit_zero {a u i j : Nat} {r : Reg} (hreg : regOf a = some (r, u, i, j)) (hlow : 0x8030000000 ≤ r.base) (htop : r.base < 2 ^ 46) :
    u = 0 := by
  have hsingle : (allRegs.all fun q => decide (q.base < 0x8030000000) || decide (2 ^ 46 ≤ q.base) || q.unit == 0) = true := by decide +kernel
  obtain ⟨hmem, x, hx⟩ := regOf_some hreg
  have hunit := List.all_eq_true.mp hsingle r hmem
  simp only [Bool.or_eq_true, decide_eq_true_eq, beq_iff_eq] at hunit
  exact Reg.find_unit_zero (by omega) hx

/-- The value of an access, moved to its place within the 8 bytes. -/
def accessValue (off size v : Nat) : Nat := v % 2 ^ (8 * size) * 2 ^ (8 * (off % 8))

theorem accessValue_whole {off : Nat} (halign : off % 8 = 0) (v : Word) : accessValue off 8 v.toNat = v.toNat := by
  rw [accessValue, halign]
  exact (Nat.mul_one _).trans (Nat.mod_eq_of_lt v.isLt)

/-- The blocks give the registers of `commandRegs` a meaning of their own; every other register takes the plain write. -/
theorem State.regWrite_plain (s : State) {off u i j : Nat} {r : Reg} (size v : Nat) (hreg : regOf (off - off % 8) = some (r, u, i, j))
    (htop : r.base < 2 ^ 46) (hcmd : r.base ∉ commandRegs) (hstn : ∀ p, r.stnOf i = some p → s.stnHeld u p.1 = false) :
    s.regWrite off size v = s.accessWrite r u i j (accessValue off size v) (accessMask off size) := by
  have hunit := regOf_unit_zero hreg
  simp only [commandRegs, List.map_append, List.map_cons, List.map_nil, List.mem_append, List.mem_cons, List.not_mem_nil, or_false, not_or] at hcmd
  simp only [State.regWrite, hreg, State.cluWrite, State.kernelWrite, State.chBlockWrite, State.lnkWrite, State.ioWrite, hcmd, htop, false_and,
    if_true, if_false, s.stnWrite_free _ _ _ hstn, accessValue]
  split
  · rfl
  · split
    · rfl
    · split
      · rfl
      · rw [hunit (by omega) htop]

/-- Each bit of a register after a plain write of an access, by the value as the access carries it. -/
theorem State.nbit_accessWrite_access (s : State) (r : Reg) (u i j : Nat) {off size n : Nat} (v : Nat) (hsize : size = 4 ∨ size = 8)
    (halign : off % size = 0) (hn : n < 64) :
    let covered : Prop := 8 * (off % 8) ≤ n ∧ n < 8 * (off % 8) + 8 * size
    let x := nbit v (n - 8 * (off % 8))
    let stored : Prop := covered ∧ (nbit r.rw n = true ∨ (nbit r.rwl n = true ∧ s.lockedReg r u i j = false))
    let t := s.accessWrite r u i j (accessValue off size v) (accessMask off size)
    (stored → nbit (t.rreg r u i j) n = x) ∧
    (¬ stored → nbit (t.rreg r u i j) n = (nbit (s.rreg r u i j) n && !(decide covered && nbit r.w1c n && x))) := by
  intro covered x stored t
  have hvalue : covered → nbit (accessValue off size v) n = x := nbit_accessValue
  have hmask : nbit (accessMask off size) n = decide covered := nbit_accessMask hsize halign hn
  have hstored : (s.opensBit r u i j n && nbit (accessMask off size) n) = true ↔ stored := by
    rw [hmask, State.opensBit]
    simp only [Bool.and_eq_true, Bool.or_eq_true, Bool.not_eq_true', decide_eq_true_eq]
    exact and_comm
  have hbit := s.nbit_accessWrite r u i j (accessValue off size v) (accessMask off size) hn
  refine ⟨fun h => ?_, fun h => ?_⟩
  · rw [if_pos (hstored.mpr h)] at hbit
    exact hbit.trans (hvalue h.1)
  · have hclear : (nbit r.w1c n && nbit (accessValue off size v) n && nbit (accessMask off size) n) = (decide covered && nbit r.w1c n && x) := by
      rw [hmask]
      by_cases hcov : covered
      · rw [hvalue hcov, decide_eq_true hcov, Bool.and_true, Bool.true_and]
      · rw [decide_eq_false hcov, Bool.and_false, Bool.false_and, Bool.false_and]
    rw [if_neg (fun hs => h (hstored.mp hs)), hclear] at hbit
    exact hbit

/-! ### The command -/

theorem exec_registerWrite_local (s : State) {off size : Nat} (v : Word) (hsize : size = 4 ∨ size = 8) (halign : off % size = 0)
    (htop : off < 2 ^ 46) : exec (.registerWrite off size v) s = .next (s.regWrite off size v.toNat) := by
  have hhost : ¬ 2 ^ 46 ≤ off := by omega
  simp only [exec, execRegisterWrite, hsize, halign, hhost, and_self, if_true, if_false]

theorem exec_registerWrite_host (s : State) {off size : Nat} (v : Word) (hsize : size = 4 ∨ size = 8) (halign : off % size = 0)
    (htop : 2 ^ 46 ≤ off) : exec (.registerWrite off size v) s = .next (s.hostWrite (off - 2 ^ 46) size v.toNat) := by
  simp only [exec, execRegisterWrite, hsize, halign, htop, and_self, if_true]

/-- R40: an access that is not 4 or 8 aligned bytes does nothing. -/
theorem exec_registerWrite_bad (s : State) {off size : Nat} (v : Word) (h : (size ≠ 4 ∧ size ≠ 8) ∨ off % size ≠ 0) :
    exec (.registerWrite off size v) s = .next s := by
  have hbad : ¬ ((size = 4 ∨ size = 8) ∧ off % size = 0) := by omega
  simp only [exec, execRegisterWrite, hbad, if_false]

theorem exec_registerWrite_plain (s : State) {off size u i j : Nat} {r : Reg} (v : Word) (hsize : size = 4 ∨ size = 8) (halign : off % size = 0)
    (hoff : off < 2 ^ 46) (hreg : regOf (off - off % 8) = some (r, u, i, j)) (htop : r.base < 2 ^ 46) (hcmd : r.base ∉ commandRegs)
    (hstn : ∀ p, r.stnOf i = some p → s.stnHeld u p.1 = false) :
    exec (.registerWrite off size v) s = .next (s.accessWrite r u i j (accessValue off size v.toNat) (accessMask off size)) := by
  rw [exec_registerWrite_local s v hsize halign hoff, s.regWrite_plain size v.toNat hreg htop hcmd hstn]

/-- R6: an offset with no register ignores the write. -/
theorem exec_registerWrite_unmapped (s : State) {off : Nat} (size : Nat) (v : Word) (hoff : off < 2 ^ 46) (hreg : regOf (off - off % 8) = none) :
    exec (.registerWrite off size v) s = .next s := by
  by_cases hok : (size = 4 ∨ size = 8) ∧ off % size = 0
  · rw [exec_registerWrite_local s v hok.1 hok.2 hoff]
    simp only [State.regWrite, hreg]
  · exact exec_registerWrite_bad s v (by omega)

/-! ### Whole writes of enable and command registers -/

/-- A write of all 8 bytes is the value as written, whatever the register held. -/
theorem State.merged_whole (s : State) (r : Reg) (u i j : Nat) (v : Word) : BitVec.ofNat 64 (s.merged r u i j v.toNat (2 ^ 64 - 1)) = v := by
  refine BitVec.eq_of_getLsbD_eq fun n hn => ?_
  rw [BitVec.getLsbD_ofNat, ← nbit_eq_testBit, State.merged, nbit_or, nbit_sub_and, nbit_or, nbit_and, nbit_whole hn, decide_eq_true hn]
  simp only [Bool.true_or, Bool.not_true, Bool.and_false, Bool.false_or, Bool.and_true, Bool.true_and]
  exact nbit_eq_testBit _ _

/-- A whole write reaches every bit, so its block sees the value as written. -/
theorem State.regWrite_whole (s : State) {a u i j : Nat} {r : Reg} (hreg : regOf a = some (r, u, i, j)) (halign : a % 8 = 0) (v : Word) :
    s.regWrite a 8 v.toNat =
      if r.base < 0x8010000000 then s.cluWrite r u i j v true v.toNat (2 ^ 64 - 1)
      else if r.base < 0x8020000000 then s.chBlockWrite r u i j v true v.toNat (2 ^ 64 - 1)
      else if r.base < 0x8030000000 then s.lnkWrite r u i j v true v.toNat (2 ^ 64 - 1)
      else if r.base < 2 ^ 46 then s.ioWrite r i j v true v.toNat (2 ^ 64 - 1)
      else s.hostBlockWrite r u i j v true v.toNat (2 ^ 64 - 1) := by
  have hmask : accessMask a 8 = 2 ^ 64 - 1 := rfl
  have hvalue : v.toNat % 2 ^ (8 * 8) * 2 ^ (8 * 0) = v.toNat := accessValue_whole (off := 0) rfl v
  simp only [State.regWrite, halign, Nat.sub_zero, hreg, hmask, nbit_whole (Nat.succ_pos 63), hvalue, State.merged_whole]

/-! ### What a whole write of an enable or command register does in its block -/

section
variable (s : State) (u i j : Nat) (w : Word) (low : Bool) (v mask : Nat)

theorem State.cluWrite_aliasCtl : s.cluWrite CLU_ALIAS_CTL u i j w low v mask =
    s.enWrite low w (s.aliasEnable u w) (s.accessWrite CLU_ALIAS_CTL u i j v mask) (s.accessWrite CLU_ALIAS_CTL u i j v mask) := rfl

theorem State.cluWrite_clear : s.cluWrite CLU_CLEAR u i j w low v mask =
    if low && nbit w.toNat 15 then s.clear u w else s.accessWrite CLU_CLEAR u i j v mask := rfl

theorem State.cluWrite_return : s.cluWrite CLU_RETURN u i j w low v mask =
    if low && nfld w.toNat 0 2 == 1 then s.returnCmd u w else if low && nfld w.toNat 0 2 == 2 then s.refillCmd u w
    else s.accessWrite CLU_RETURN u i j v mask := rfl

theorem State.cluWrite_skCtl : s.cluWrite CTL_SK_CTL u i j w low v mask =
    let s1 := s.enWrite low w (s.skEnable u w) (s.skDisable u w) (s.accessWrite CTL_SK_CTL u i j v mask)
    if low && nbit w.toNat 0 && nbit w.toNat 1 then s1.cancelAll u else s1 := rfl

theorem State.cluWrite_matCtl : s.cluWrite MAT_CTL u i j w low v mask =
    s.enWrite low w (s.matEnable u i w) (s.matDisable u i w) (s.accessWrite MAT_CTL u i j v mask) := rfl

theorem State.cluWrite_strQcfg : s.cluWrite STR_QCFG u i j w low v mask =
    s.enWrite low w (s.strQEnable u i j w) (s.strQDisable u i j w) (s.accessWrite STR_QCFG u i j v mask) := rfl

theorem State.cluWrite_skqPush : s.cluWrite CTL_SKQ_PUSH u i j w low v mask =
    if nbit mask 0 then s.skPush u (BitVec.ofNat 64 v) else s := rfl

theorem State.cluWrite_semAdd : s.cluWrite CTL_SEM_ADD u i j w low v mask =
    if nbit mask 0 then s.semAdd u (nfld v 0 4) (nfld v 16 16) else s := rfl

theorem State.cluWrite_ctxCtl : s.cluWrite MAT_CTX_CTL u i j w low v mask =
    if nbit mask 0 && nfld v 0 2 == 1 then s.matSave u i (BitVec.ofNat 64 v)
    else if nbit mask 0 && nfld v 0 2 == 2 then s.matRestore u i (BitVec.ofNat 64 v) else s.accessWrite MAT_CTX_CTL u i j v mask := rfl

theorem State.chBlockWrite_pageCmd : s.chBlockWrite HBM_PAGE_CMD u i j w low v mask =
    if low then s.hbmPageCmd u w else s.accessWrite HBM_PAGE_CMD u i j v mask := rfl

theorem State.chBlockWrite_updCmd : s.chBlockWrite UPD_CMD u i j w low v mask =
    if low && nfld w.toNat 4 2 == 2 then s.updApply u (nfld w.toNat 0 4)
    else if low && nfld w.toNat 4 2 == 1 then s.updCmdVoid u (nfld w.toNat 0 4) else s.accessWrite UPD_CMD u i j v mask := rfl

theorem State.lnkWrite_ctl : s.lnkWrite LNK_CTL u i j w low v mask =
    s.enWrite low w (s.linkEnable u w) (s.linkDisable u w) (s.accessWrite LNK_CTL u i j v mask) := rfl

theorem State.ioWrite_pwrCtl : s.ioWrite PWR_CTL i j w low v mask =
    s.enWrite low w (s.enable PWR_CTL_en PWR_CTL_reason 0 0 0 w pwrChecks) (s.accessWrite PWR_CTL 0 i j v mask)
      (s.accessWrite PWR_CTL 0 i j v mask) := rfl

@[simp] theorem State.enWrite_whole (on off plain : State) :
    s.enWrite true w on off plain = if nbit w.toNat 0 then on else off := rfl

end

/-- The mask of a write of all 8 bytes, as `simp` writes it, covers bit 0. -/
@[simp] theorem nbit_whole_zero : nbit 0xFFFFFFFFFFFFFFFF 0 = true := rfl

/-! ### The commands of the enable and command registers -/

section
variable (s : State) {r : Reg} {u i j : Nat} (hr : r ∈ unitRegs) (hu : u < r.units) (hi : i < r.n1) (hj : j < r.n2) {v : Word} {t : State}
include hr hu hi hj

theorem exec_write_unit (h : s.regWrite (r.addr u i j) 8 v.toNat = t) : exec (.registerWrite (r.addr u i j) 8 v) s = .next t := by
  have hlt := unitReg_addr_lt hr hu hi hj
  rw [exec_registerWrite_local s v (.inr rfl) (unitReg_addr_aligned hr u i j) (by omega), h]

theorem exec_write_cluster (hbase : r.base < 0x8010000000) (h : s.cluWrite r u i j v true v.toNat (2 ^ 64 - 1) = t) :
    exec (.registerWrite (r.addr u i j) 8 v) s = .next t := by
  refine exec_write_unit s hr hu hi hj ?_
  rw [s.regWrite_whole (regOf_addr hr hu hi hj) (unitReg_addr_aligned hr u i j), if_pos hbase, h]

end

section
variable (s : State) {r : Reg} {v : Word} {t : State} (hr : r ∈ unitRegs)
include hr

/-- A register of a cluster without repetitions. -/
theorem exec_write_cluster_one (c : Clu) (hone : r.base < 0x8010000000 ∧ r.n1 = 1 ∧ r.n2 = 1)
    (h : s.cluWrite r c 0 0 v true v.toNat (2 ^ 64 - 1) = t) : exec (.registerWrite (r.addr c 0 0) 8 v) s = .next t := by
  obtain ⟨hbase, hn1, hn2⟩ := hone
  have hunits : r.units = 1600 := if_pos hbase
  exact exec_write_cluster s hr (by rw [hunits]; exact c.isLt) (by omega) (by omega) hbase h

/-- A register of a channel without repetitions. -/
theorem exec_write_channel_one (ch : Chan) (hone : 0x8010000000 ≤ r.base ∧ r.base < 0x8020000000 ∧ r.n1 = 1 ∧ r.n2 = 1)
    (h : s.chBlockWrite r ch 0 0 v true v.toNat (2 ^ 64 - 1) = t) : exec (.registerWrite (r.addr ch 0 0) 8 v) s = .next t := by
  obtain ⟨hlow, htop, hn1, hn2⟩ := hone
  have hu : ch.val < r.units := by rw [Reg.units, if_neg (by omega), if_pos htop]; exact ch.isLt
  refine exec_write_unit s hr hu (by omega) (by omega) ?_
  rw [s.regWrite_whole (regOf_addr hr hu (by omega) (by omega)) (unitReg_addr_aligned hr _ _ _), if_neg (by omega), if_pos htop, h]

/-- A register of a link without repetitions. -/
theorem exec_write_link_one (l : Lnk) (hone : 0x8020000000 ≤ r.base ∧ r.base < 0x8030000000 ∧ r.n1 = 1 ∧ r.n2 = 1)
    (h : s.lnkWrite r l 0 0 v true v.toNat (2 ^ 64 - 1) = t) : exec (.registerWrite (r.addr l 0 0) 8 v) s = .next t := by
  obtain ⟨hlow, htop, hn1, hn2⟩ := hone
  have hu : l.val < r.units := by rw [Reg.units, if_neg (by omega), if_neg (by omega), if_pos htop]; exact l.isLt
  refine exec_write_unit s hr hu (by omega) (by omega) ?_
  rw [s.regWrite_whole (regOf_addr hr hu (by omega) (by omega)) (unitReg_addr_aligned hr _ _ _), if_neg (by omega), if_neg (by omega),
    if_pos htop, h]

end

theorem exec_write_pwrCtl (s : State) (v : Word) (h : nbit v.toNat 0 = true) :
    exec (.registerWrite (PWR_CTL.addr 0 0 0) 8 v) s = exec (.pwrCtlEn v) s := by
  rw [exec_registerWrite_local s v (.inr rfl) rfl (by decide), s.regWrite_whole regOf_pwrCtl rfl]
  have hblock : s.ioWrite PWR_CTL 0 0 v true v.toNat (2 ^ 64 - 1) = s.enable PWR_CTL_en PWR_CTL_reason 0 0 0 v pwrChecks := by
    rw [State.ioWrite_pwrCtl, State.enWrite_whole, if_pos h]
  exact congrArg _ hblock

/-! ### The doorbells of the host (R404, R413, R426) -/

theorem exec_write_mbxDb (b : Mbx) (v : Word) (s : State) : exec (.registerWrite (MBX_DB.addr b 0 0) 4 v) s = exec (.mbxDb b v) s := by
  have hb := b.isLt
  have haddr : MBX_DB.addr b 0 0 = 2 ^ 46 + (0x402000 + b * 0x10000) := by simp only [Reg.addr, MBX_DB]; omega
  have hbox : (0x402000 + b.val * 0x10000 - 0x400000) / 0x10000 = b := by omega
  have hplace : (0x402000 + b.val * 0x10000) % 0x10000 = 0x2000 := by omega
  have halign : (0x402000 + b.val * 0x10000) % 4 = 0 := by omega
  have hlow : ¬ 0x402000 + b.val * 0x10000 < 0x400000 := by omega
  have hhigh : 0x402000 + b.val * 0x10000 < 0x520000 := by omega
  rw [haddr, exec_registerWrite_host s v (.inl rfl) (by omega) (by omega), Nat.add_sub_cancel_left]
  simp [State.hostWrite, bar0Permitted, hplace, halign, hlow, hhigh, hbox, exec, execMbxDb, nfld]

/-- The doorbells of a channel stand at 0 and 8 of its page. -/
theorem hostWrite_doorbell (s : State) {off : Nat} (hpage : off < 0x400000) (v : Word) :
    (off % 0x1000 = 0 → s.hostWrite off 4 v.toNat = s.sqDoorbell (off / 0x1000) (nfld v.toNat 0 32)) ∧
    (off % 0x1000 = 8 → s.hostWrite off 4 v.toNat = s.cqDoorbell (off / 0x1000) (nfld v.toNat 0 32)) := by
  refine ⟨fun hplace => ?sq, fun hplace => ?cq⟩
  all_goals
    have halign : off % 4 = 0 := by omega
    simp [State.hostWrite, bar0Permitted, hplace, halign, hpage, nfld]

theorem exec_write_chnSqDb (ch : HCh) (v : Word) (s : State) : exec (.registerWrite (CHN_SQ_DB.addr ch 0 0) 4 v) s = exec (.chnSqDb ch v) s := by
  have hch := ch.isLt
  have haddr : CHN_SQ_DB.addr ch 0 0 = 2 ^ 46 + ch * 0x1000 := by simp only [Reg.addr, CHN_SQ_DB]; omega
  have hnum : ch.val * 0x1000 / 0x1000 = ch := by omega
  rw [haddr, exec_registerWrite_host s v (.inl rfl) (by omega) (by omega), Nat.add_sub_cancel_left,
    (hostWrite_doorbell s (by omega) v).1 (by omega), hnum, exec, execChnSqDb]

theorem exec_write_chnCqDb (ch : HCh) (v : Word) (s : State) : exec (.registerWrite (CHN_CQ_DB.addr ch 0 0) 4 v) s = exec (.chnCqDb ch v) s := by
  have hch := ch.isLt
  have haddr : CHN_CQ_DB.addr ch 0 0 = 2 ^ 46 + (ch * 0x1000 + 8) := by simp only [Reg.addr, CHN_CQ_DB]; omega
  have hnum : (ch.val * 0x1000 + 8) / 0x1000 = ch := by omega
  rw [haddr, exec_registerWrite_host s v (.inl rfl) (by omega) (by omega), Nat.add_sub_cancel_left,
    (hostWrite_doorbell s (by omega) v).2 (by omega), hnum, exec, execChnCqDb]

/-! ### CLU_SPAN under its lock (R43) -/

/-- The RWL bits of CLU_SPAN are locked by the enable of the cluster's aliases. -/
theorem State.lockedReg_cluSpan (s : State) (c : Nat) : s.lockedReg CLU_SPAN c 0 0 = (s.get CLU_ALIAS_CTL_en c == 1) := by
  have haddr : CLU_SPAN.base - CLU_SPAN.base % 0x10000 + 8 + c * CLU_SPAN.unit + 0 * 0 + 0 * 0 = CLU_ALIAS_CTL.addr c 0 0 := by
    simp only [Reg.addr, CLU_SPAN, CLU_ALIAS_CTL]
  have hget : s.get CLU_ALIAS_CTL_en c = nfld ((tfind s.regs (CLU_ALIAS_CTL.addr c 0 0)).getD 0).toNat 0 1 := by
    rw [State.get, State.rreg, tget_eq_tfind]
    rfl
  have hlock : CLU_SPAN.lock = some (8, 0, 0, 0) := rfl
  simp only [State.lockedReg, hlock, haddr, hget]
  rcases tfind s.regs (CLU_ALIAS_CTL.addr c 0 0) with _ | w
  · rfl
  · rfl

theorem State.get_span_accessWrite (s : State) (c : Nat) (v : Word) :
    (s.accessWrite CLU_SPAN c 0 0 v.toNat (2 ^ 64 - 1)).get CLU_SPAN_span_tag c =
      if s.get CLU_ALIAS_CTL_en c = 1 then s.get CLU_SPAN_span_tag c else v.toNat % 65536 := by
  have hbit : ∀ n < CLU_SPAN_span_tag.lo + CLU_SPAN_span_tag.w, nbit ((s.accessWrite CLU_SPAN c 0 0 v.toNat (2 ^ 64 - 1)).rreg CLU_SPAN c 0 0) n =
      if s.get CLU_ALIAS_CTL_en c = 1 then nbit (s.rreg CLU_SPAN c 0 0) n else nbit v.toNat n := by
    intro n hwidth
    have hn : n < 16 := hwidth
    rw [State.nbit_accessWrite s _ _ _ _ _ _ (by omega), State.opensBit, s.lockedReg_cluSpan c]
    have hrw : nbit CLU_SPAN.rw n = false := by simp [CLU_SPAN, nbit]
    have hw1c : nbit CLU_SPAN.w1c n = false := by simp [CLU_SPAN, nbit]
    have hrwl : nbit CLU_SPAN.rwl n = true := by
      rw [nbit_eq_testBit]
      exact (Nat.testBit_two_pow_sub_one 16 n).trans (decide_eq_true hn)
    rw [hrw, hw1c, hrwl, nbit_whole (by omega)]
    by_cases hen : s.get CLU_ALIAS_CTL_en c = 1
    · simp [hen]
    · simp [hen]
  have hlow : v.toNat % 65536 = nfld v.toNat 0 16 := rfl
  by_cases hen : s.get CLU_ALIAS_CTL_en c = 1
  · rw [if_pos hen]
    exact nfld_congr fun n hn _ => (hbit n hn).trans (if_pos hen)
  · rw [if_neg hen, hlow]
    exact nfld_congr fun n hn _ => (hbit n hn).trans (if_neg hen)

theorem exec_write_cluSpan (s : State) (c : Clu) (v : Word) :
    exec (.registerWrite (CLU_SPAN.addr c 0 0) 8 v) s = .next (s.accessWrite CLU_SPAN c 0 0 v.toNat (2 ^ 64 - 1)) := by
  have hmem : CLU_SPAN ∈ unitRegs := by simp [unitRegs]
  have hlt := unitReg_addr_lt hmem c.isLt Nat.one_pos Nat.one_pos
  have halign := unitReg_addr_aligned hmem c 0 0
  have hreg := regOf_addr hmem c.isLt Nat.one_pos Nat.one_pos
  have hstn : CLU_SPAN.stnOf 0 = none := Option.isNone_iff_eq_none.mp (by decide +kernel)
  have hplain := exec_registerWrite_plain s v (.inr rfl) halign (by omega) (by rw [halign]; exact hreg) (by decide) (by decide) (by simp [hstn])
  rwa [accessValue_whole halign] at hplain

end Sys2Proof.Machine

namespace Sys2Proof

open Sys2Proof.Machine

/-- Settles O5: a register that is no enable or command register takes the plain write of R7, bit for bit; a whole write of an enable or
command register is its command; what R6 and R40 exclude does nothing. -/
theorem registerWriteRespectsAccessTypesAndLocks : Obligations.RegisterWriteRespectsAccessTypesAndLocks := by
  refine ⟨?plain, ?span, ?commands, fun b v s => exec_write_mbxDb b v s, fun ch v s => ⟨exec_write_chnSqDb ch v s, exec_write_chnCqDb ch v s⟩,
    fun s v off size => ⟨exec_registerWrite_unmapped s size v, exec_registerWrite_bad s v⟩⟩
  case plain =>
    intro s off size v r u i j hsize halign hoff hreg htop hcmd hstn
    refine ⟨_, exec_registerWrite_plain s v hsize halign hoff hreg htop hcmd hstn, fun n hn => ?_, s.accessWrite_regsBut _ _ _ _ _ _,
      s.accessWrite_onlyRegs _ _ _ _ _ _⟩
    exact s.nbit_accessWrite_access r u i j v.toNat hsize halign hn
  case span =>
    refine fun c v s => ⟨fun hen => ⟨_, exec_write_cluSpan s c v, ?_, s.accessWrite_regsBut _ _ _ _ _ _, s.accessWrite_onlyRegs _ _ _ _ _ _⟩,
      fun hen => ⟨_, exec_write_cluSpan s c v, ?_, s.accessWrite_regsBut _ _ _ _ _ _, s.accessWrite_onlyRegs _ _ _ _ _ _⟩⟩
    · rw [State.get_span_accessWrite, if_neg (by omega)]
    · rw [State.get_span_accessWrite, if_pos hen]
  case commands =>
    intro c m u q ch l v s
    simp only [List.forall_mem_cons, List.not_mem_nil, false_imp_iff, implies_true, and_true, Bool.and_eq_true, Bool.not_eq_true', beq_iff_eq]
    refine ⟨
      fun h => exec_write_cluster_one s (by simp [unitRegs]) c (by decide) (by rw [State.cluWrite_aliasCtl]; simp [h]),
      fun h => exec_write_cluster_one s (by simp [unitRegs]) c (by decide) (by rw [State.cluWrite_clear]; simp [h]),
      fun h => exec_write_cluster_one s (by simp [unitRegs]) c (by decide) (by rw [State.cluWrite_return]; simp [h]),
      fun h => exec_write_cluster_one s (by simp [unitRegs]) c (by decide) (by rw [State.cluWrite_return]; simp [h]),
      fun _ => exec_write_cluster_one s (by simp [unitRegs]) c (by decide) (by rw [State.cluWrite_skqPush]; simp),
      fun _ => exec_write_cluster_one s (by simp [unitRegs]) c (by decide) (by rw [State.cluWrite_semAdd]; simp),
      fun h => exec_write_cluster_one s (by simp [unitRegs]) c (by decide) (by rw [State.cluWrite_skCtl]; simp [h]),
      fun h => exec_write_cluster s (by simp [unitRegs]) c.isLt m.isLt Nat.one_pos (by decide) (by rw [State.cluWrite_matCtl]; simp [h]),
      fun h => exec_write_cluster s (by simp [unitRegs]) c.isLt m.isLt Nat.one_pos (by decide) (by rw [State.cluWrite_matCtl]; simp [h]),
      fun h => exec_write_cluster s (by simp [unitRegs]) c.isLt m.isLt Nat.one_pos (by decide) (by rw [State.cluWrite_ctxCtl]; simp [h]),
      fun h => exec_write_cluster s (by simp [unitRegs]) c.isLt m.isLt Nat.one_pos (by decide) (by rw [State.cluWrite_ctxCtl]; simp [h]),
      fun h => exec_write_cluster s (by simp [unitRegs]) c.isLt u.isLt q.isLt (by decide) (by rw [State.cluWrite_strQcfg]; simp [h]),
      fun _ => exec_write_channel_one s (by simp [unitRegs]) ch (by decide) (by rw [State.chBlockWrite_pageCmd]; simp),
      fun h => exec_write_channel_one s (by simp [unitRegs]) ch (by decide) (by rw [State.chBlockWrite_updCmd]; simp [h]),
      fun h => exec_write_channel_one s (by simp [unitRegs]) ch (by decide) (by rw [State.chBlockWrite_updCmd]; simp [h]),
      fun h => exec_write_link_one s (by simp [unitRegs]) l (by decide) (by rw [State.lnkWrite_ctl]; simp [h]),
      fun h => exec_write_link_one s (by simp [unitRegs]) l (by decide) (by rw [State.lnkWrite_ctl]; simp [h]),
      exec_write_pwrCtl s v⟩

end Sys2Proof
end
